-- ==== Sys2Proof/Word.lean ====
section
/-! DEFINITION. The word types of the QV6400 model and their plainest constants: bytes and words as bit vectors,
byte strings as a length and a little-endian number (R7), bit fields of a record, times in units of 2⁻¹⁶ ns (R21). -/
namespace Sys2Proof

/-- One byte. -/
abbrev Byte := BitVec 8
/-- A 64-bit word: the width of an Abtia general register (R114). -/
abbrev Word := BitVec 64
/-- A 128-bit word: the width of a local-memory word (R119). -/
abbrev Quad := BitVec 128

/-- A byte string: `len` bytes whose little-endian value is `val` (R7). -/
structure Bytes where
  len : Nat
  val : Nat
  deriving DecidableEq, Repr, Inhabited

/-- A bit field of a record: its lowest bit and its width. -/
structure Fld where
  lo : Nat
  w  : Nat
  deriving DecidableEq, Repr

end Sys2Proof
end

