-- ==== Sys2Proof/Config.lean ====
section
/-! DEFINITION. The free values: constants without a body for what the spec leaves open. Nothing can be proved of one
beyond its type, so a claim that uses one holds whatever it is. -/
namespace Sys2Proof

/-- A value that the spec does not state, drawn by the counter `free` of the state: any number. -/
opaque Config.freeNat : Nat → Nat
/-- A signed value that the spec does not state, drawn by the same counter. -/
opaque Config.freeInt : Nat → Int
/-- A value fixed at manufacture or by calibration (R283), by quantity, instance and element. -/
opaque Config.fixedValue : Nat → Nat → Nat → Nat → Int
/-- The servo's next frequency-correction addend, from the addend in use and a measured offset; R21 gives its range
and R23 leaves the filter to the device. -/
opaque Config.servo : Int → Int → Int
/-- The filtered mean path delay, from the one in use and a new estimate (R33 names the filter and does not give it). -/
opaque Config.delayFilter : Int → Int → Int
/-- The PTP clock identity of a domain slot, the address that it sends from over UDP, and its unicast master's addresses: slot, and 0
the identity, 1 the own address in IPv4, 2 in IPv6, 3 the master's MAC address, 4 its address in IPv4, 5 in IPv6 (R23 gives none). -/
opaque Config.ptpSource : Nat → Nat → Nat
/-- Sample k of tick t at the output of port p's decimation chain, before gain and the DC-blocking stage: port, its mode, network
and filter, tick, k (R256 to R258). -/
opaque Config.lineSample : Nat → List Nat → Nat → Nat → Int
/-- How the DC-blocking stage rounds its output, given with 16 fraction bits, to a sample (R260 does not say). -/
opaque Config.lineRound : Int → Int
/-- A key unwrapped under another (RFC 3394): the bytes of the key. -/
opaque Config.unwrapKey : Nat → Nat → Nat
/-- The key identifier of a wrapped key. -/
opaque Config.keyId : Nat → Nat
/-- What a load reads from an offset of device control space at which the spec places nothing (R144). -/
opaque Config.deviceWord : Nat → Nat → Nat
/-- Whether the carry flag of a comparison shows the borrow of ra - rb, or its complement (Table 6.2 says only carry). -/
opaque Config.carryIsBorrow : Bool
/-- The leading bits counted for a watched write that is narrower than the armed width (R131): width and value. -/
opaque Config.narrowWatch : Nat → Nat → Nat
/-- A byte of a hearth's code store, as the image that runs fills it (R138): image digest and address. -/
opaque Config.codeByte : Nat → Nat → Nat
/-- What verification reads in an image at bytes that no write of FirmwareLoadData gave (R319). -/
opaque Config.loadGap : Nat
/-- SHA-384 of a message (R318): length in bytes, message. -/
opaque Config.sha384 : Nat → Nat → Nat
/-- The SHA-256 or CRC-like digest of a byte string where the spec names an algorithm of a published standard. -/
opaque Config.digest : Nat → Nat → Nat → Nat

/-- HMAC-SHA-256 of a message under a key (R287): wrapped key, length in bytes, message. -/
opaque Config.hmac : Nat → Nat → Nat → Nat
/-- A key block unwrapped and wrapped again under the fused device key (R66), from the KeyTransportKey and the block. -/
opaque Config.rewrapKey : Nat → Nat → Nat
/-- Bits of one EVS frame at a bit-rate index, 0 where the index names no rate (R76 does not list the rates). -/
opaque Config.evsBits : Nat → Nat
/-- Octets by which a round of the deficit round robin exceeds the longest frame, per unit of weight (R60 gives only the
proportion). -/
opaque Config.drrExtra : Nat
/-- Whether a place is found for flow entry n while at least 245,760 are placed (R53), by how many are. -/
opaque Config.flowPlace : Nat → Nat → Bool
/-- Octets of records that one ledger frame has room for (R209: MaxFrameSize 9,216; the protection's overhead is not given). -/
opaque Config.ledgerRoom : Nat
/-- Header fields of a sent media packet that the spec does not give (R210): 0 the IPv4 type of service or IPv6 traffic
class, 1 the TTL or hop limit, 2 the IPv6 flow label. -/
opaque Config.ipField : Nat → Nat
/-- The percentile point of a list of delays (R82 does not say how a point between two ranks is taken): percentage, delays. -/
opaque Config.percentilePoint : Nat → List Int → Int
/-- What the byte at an offset of the Stoker region of DRAM belongs to: whether a saved context or a thread control block, the thread,
and the byte of its record (R146, R167 give the region and the records, not where each stands). -/
opaque Config.stokerRecord : Nat → Option (Bool × Nat × Nat)
/-- The number of the cell CELL_n at a place of the pool (R190 numbers the cells; which of them the bank region and the free list hold is
not stated). -/
opaque Config.cellNumber : Nat → Nat
/-- Next of a tail cell, undefined (Table 9.1), by the cell's number. -/
opaque Config.tailNext : Nat → Nat
/-- Whether a package goes before a symbol of the same frequency in package-merge (R231 ranks only symbols). -/
opaque Config.packageFirst : Bool

/-! The firmware library's signal processing (R90 to R106). The spec fixes what each stage decides and leaves the arithmetic of these
to the library: each is a constant without a body, applied to the samples and parameters it depends on. Levels are in 0.001 dBm0;
a flag tells 16 kHz from 8 kHz. -/

/-- The samples of a frame from the codec library's decoder: codec, state of the decoder, payload (R76). -/
opaque Config.decode : Nat → Nat → Nat → List Int
/-- Its own loss concealment, for the k-th frame in a row (R84): codec, state, k. -/
opaque Config.conceal : Nat → Nat → Nat → List Int
/-- Comfort noise under DTX: codec, state of the decoder. -/
opaque Config.dtxNoise : Nat → Nat → List Int
/-- The decoder's state after a frame: codec, state, payload plus one, or 0 where none came. -/
opaque Config.decoderNext : Nat → Nat → Nat → Nat
/-- The payload that the encoder makes of a frame: codec, mode, options, state, samples (R76). -/
opaque Config.encode : Nat → Nat → Nat → Nat → List Int → Nat
/-- The encoder's state after it. -/
opaque Config.encoderNext : Nat → Nat → List Int → Nat
/-- What the encoder sends of a frame where DTX is allowed: 0 the frame, 1 a SID frame, 2 nothing. -/
opaque Config.encodeKind : Nat → Nat → List Int → Nat
/-- Octets of a SID frame, by codec. -/
opaque Config.sidOctets : Nat → Nat
/-- An encrypted payload with its authentication tag: suite, wrapped key, packet index, RTP header, payload (R57). -/
opaque Config.protect : Nat → Nat → Nat → Nat → Nat → Nat
/-- Samples at the other treatment rate: whether up, the samples before, the samples. -/
opaque Config.resample : Bool → List Int → List Int → List Int
/-- The windowed FFT of 128 or 64 samples, in subbands (R94). -/
opaque Config.analysis : Bool → List Int → List (Int × Int)
/-- The samples of a hop from the subbands of the last hops, newest first. -/
opaque Config.synthesis : Bool → List (List (Int × Int)) → List Int
/-- The echo that a bank estimates: its taps, and the reference's subbands by tap (R94). -/
opaque Config.echoEstimate : List (List (Int × Int)) → List (List (Int × Int)) → List (Int × Int)
/-- The taps after a step of normalised least mean squares: taps, reference by tap, error (R94). -/
opaque Config.nlms : List (List (Int × Int)) → List (List (Int × Int)) → List (Int × Int) → List (List (Int × Int))
/-- An error energy smoothed over the energies of 16 hops (R96). -/
opaque Config.smoothed : List Nat → Nat
/-- Whether a blend of two residuals rounds up: numerator, denominator (R96 gives no rounding). -/
opaque Config.blendUp : Int → Nat → Bool
/-- The delay that the cross-correlation of reference and received signal finds, samples (R95). -/
opaque Config.delayEstimate : Bool → List Int → List Int → Nat
/-- Whether a bank has converged, from the energies of the received signal and of its error (0x2760:02). -/
opaque Config.converged : Nat → Nat → Bool
/-- Echo return loss enhancement, 0.1 dB, from the same. -/
opaque Config.erle : Nat → Nat → Int
/-- The voice activity decision: subband energies, noise estimate (R105). -/
opaque Config.speech : Bool → List Nat → List Nat → Bool
/-- A subband's smoothed energy after a hop: the one before, the hop's (R105). -/
opaque Config.bandSmooth : Nat → Nat → Nat
/-- The level of some samples. -/
opaque Config.levelOf : List Int → Int
/-- The level of a noise estimate, 0.1 dBm0 (0x2760:0C). -/
opaque Config.floorOf : List Nat → Int
/-- Comfort noise of one subband: generator, the subband's noise estimate, ComfortNoiseLimit (R99). -/
opaque Config.comfortBand : Nat → Nat → Int → Int × Int
/-- Samples of comfort noise at a noise estimate: generator, estimate, how many (R100). -/
opaque Config.comfortSamples : Nat → List Nat → Nat → List Int
/-- Comfort noise at a level, for the k-th frame in a row (R84). -/
opaque Config.fadeNoise : Int → Nat → List Int
/-- How much of the noise stands in sample i of the n of the frame that fades to it, in 2⁻¹⁶ (R84 gives no shape). -/
opaque Config.fadeWeight : Nat → Nat → Nat
/-- Noise reduction's attenuation of a subband, 0.1 dB: energy, noise estimate (R106). -/
opaque Config.attenuation : Nat → Nat → Nat
/-- A subband attenuated. -/
opaque Config.attenuate : Nat → Int × Int → Int × Int
/-- A sample under a gain of so many 0.001 dB. -/
opaque Config.applyGain : Int → Int → Int
/-- The frequency found nearest to so many Hz, in 0.001 Hz. -/
opaque Config.toneFreq : Bool → List Int → Nat → Int
/-- The level of the tone found there. -/
opaque Config.toneLevel : Bool → List Int → Nat → Int
/-- The level of the strongest frequency besides two. -/
opaque Config.thirdLevel : Bool → List Int → Nat → Nat → Int
/-- The outcome where Table 5.4 allows either. -/
opaque Config.dtmfEither : Bool → List Int → Nat → Bool
/-- The level of the 300 to 650 Hz band, or of the rest of the band. -/
opaque Config.bandLevel : Bool → List Int → Bool → Int
/-- The largest phase jump of the 2,100 Hz tone in a window, degrees (R103). -/
opaque Config.phaseJump : Bool → List Int → Int

end Sys2Proof
end

