-- ==== Sys2Proof/Machine/Sparse.lean ====
section
/-! DEFINITION. Sparse data by number: a list of key and value pairs with keys strictly rising, and the operations that
look up, write and erase one entry. -/
namespace Sys2Proof.Machine

/-- Numbered items, listed by strictly rising number; an unlisted number has the owner's default. -/
abbrev SMap (α : Type) := List (Nat × α)

/-- The entry of `k`, where there is one. -/
def sfind {α : Type} : SMap α → Nat → Option α
  | [], _ => none
  | (i, v) :: m, k => if i = k then some v else sfind m k

/-- The entry of `k`, or the default. -/
def sget {α : Type} (m : SMap α) (k : Nat) (dflt : α) : α := (sfind m k).getD dflt

/-- `m` with `v` at `k`. -/
def sput {α : Type} : SMap α → Nat → α → SMap α
  | [], k, v => [(k, v)]
  | (i, w) :: m, k, v =>
    if k < i then (k, v) :: (i, w) :: m
    else if k = i then (k, v) :: m
    else (i, w) :: sput m k v

/-- `m` with nothing at `k`. -/
def serase {α : Type} (m : SMap α) (k : Nat) : SMap α := m.filter (fun p => p.1 != k)

/-- `m` with the entry of `k` changed by `f`, from the default where there is none. -/
def smodify {α : Type} (m : SMap α) (k : Nat) (dflt : α) (f : α → α) : SMap α := sput m k (f (sget m k dflt))

/-- Whether `k` is listed. -/
def shas {α : Type} (m : SMap α) (k : Nat) : Bool := (sfind m k).isSome

/-- The keys, rising. -/
def skeys {α : Type} (m : SMap α) : List Nat := m.map Prod.fst

/-- The values, by rising key. -/
def svals {α : Type} (m : SMap α) : List α := m.map Prod.snd

/-- The values of `n` over `m` where both list a key, and those of either elsewhere: `n` lies over `m`. -/
def sover {α : Type} (m n : SMap α) : SMap α := n.foldl (fun acc p => sput acc p.1 p.2) m

/-- Keys strictly rising: the canonical form. -/
def SMap.sorted {α : Type} (m : SMap α) : Bool :=
  match m with
  | [] => true
  | (k, _) :: r => r.all (fun p => k < p.1) && SMap.sorted r

/-- The account of the busy time of an engine, a compressor unit or a check channel (R186, R238, R254): elapsed time up to which it
is accounted, how long it has been busy in the 100 ms window in progress, and how long it was in the last completed one. -/
structure LoadAcct where
  upto : Nat
  busy : Nat
  last : Nat
  deriving DecidableEq, Repr

/-- The account of a block that has never been busy. -/
def LoadAcct.zero : LoadAcct := { upto := 0, busy := 0, last := 0 }

end Sys2Proof.Machine
end

