-- ==== Sys2Proof/Machine/StateTime.lean ====
section
/-! DEFINITION. The state of the time unit: network time, media time and ticks, the two PTP domain slots, the sixteen
trigger units and the captures (chapter "Network time, ticks and triggers", R21 to R40). Times are in 2⁻¹⁶ ns. -/
namespace Sys2Proof.Machine

/-- A stamp of network time with the generation in force when it was taken (R27). -/
structure NetStamp where
  gen : Nat
  t   : Nat
  deriving DecidableEq, Repr, Inhabited

/-- A Sync message awaiting its Follow_Up, or a Delay_Req awaiting its Delay_Resp (R23). -/
structure PtpExchange where
  seq   : Nat        -- sequenceId of the message
  stamp : Nat        -- its ingress or egress timestamp, network time
  corr  : Int        -- correctionField and delayAsymmetry already gathered
  deriving DecidableEq, Repr

/-- The data set that an Announce message tells (IEEE 1588-2019, clause 9.3): what a best-master algorithm compares. -/
structure ClockData where
  priority1 : Nat
  class_    : Nat
  accuracy  : Nat
  variance  : Nat
  priority2 : Nat
  identity  : Nat        -- clockIdentity of the grandmaster
  steps     : Nat        -- stepsRemoved
  deriving DecidableEq, Repr

/-- The master that a slot follows: its data set, the port it is heard on, and when its last Announce came, with the interval
that the message tells (R23). -/
structure PtpMaster where
  data  : ClockData
  port  : Nat
  heard : Nat            -- elapsed time of its last Announce
  every : Nat            -- its announce interval
  deriving DecidableEq, Repr

/-- One PTP domain slot (R23 to R28, R33). -/
structure TimeSlot where
  state    : Nat                  -- SlotState: 0 DISABLED, 1 LISTENING, 2 LOCKED, 3 SUSPECT, 4 LOST
  offset   : Int                  -- the slot's view less network time
  base     : Int                  -- what an offset is judged against: 0, but after a step accepted while not selected (Table 2.3), or in a slew
  measured : Bool                 -- a measurement has given `offset`
  mpd      : Option Int           -- filtered mean path delay
  master   : Option PtpMaster
  foreign  : List PtpMaster       -- masters heard once, not qualified yet
  grants   : List Nat             -- unicast services granted (G.8275.2): 0 Announce, 1 Sync, 2 Delay_Resp
  cands    : List Int             -- pending step candidates, oldest first (R26)
  acquire  : List Int             -- consecutive consistent measurements in FREERUN, oldest first (R28)
  agree    : Option Nat           -- since when a SUSPECT slot's measurements have agreed (elapsed time, R33)
  reroute  : Option Nat           -- elapsed time of the last re-route (Table 2.4)
  sync     : Option PtpExchange   -- the Sync awaiting a Follow_Up
  lastSync : Option PtpExchange   -- the last completed Sync: t1 in `corr`, t2 in `stamp`
  delay    : Option PtpExchange   -- the Delay_Req (or Pdelay_Req) awaiting its response
  delaySeq : Nat                  -- sequenceId of the next Delay_Req
  deriving DecidableEq, Repr

/-- One time-trigger unit (R35, R36, Table 2.6). -/
structure Trigger where
  armed : Bool
  done  : Bool
  next  : Nat                -- next firing: network time, or tick time (tick × 2.5 ms + offset) for media time
  late  : Bool               -- the firing was already past when armed, or a step passed it
  pin   : Option Nat         -- the TIME_OUT pin that the unit owns (R36)
  pulseEnd : Option Nat      -- elapsed time at which the running pulse ends
  deriving DecidableEq, Repr

/-- One TIME_OUT pin: its level, and the inactive level left by its last owner (R36). -/
structure TimeOutPin where
  level : Bool
  rest  : Bool
  deriving DecidableEq, Repr

/-- One capture input: its records (Table 2.7, oldest first), edge count and pending LOST_BEFORE (R39). -/
structure Capture where
  records : List Nat
  seq     : Nat
  lost    : Bool
  lastEdge : Option Nat
  deriving DecidableEq, Repr

/-- The time unit. -/
structure TimeUnit where
  net     : Nat              -- network time
  gen     : Nat              -- time generation count (R27)
  elapsed : Nat              -- time elapsed on the counter: network time less every step
  addend  : Int              -- frequency-correction addend, 2⁻³² ns per 2 ns step (R21)
  frac    : Nat              -- what the addend has gathered below 2⁻¹⁶ ns, in 2⁻⁴⁹ ns
  stepAt  : Nat              -- elapsed time of the last step of network time
  stepOld : NetStamp         -- network time and generation as that step found them
  media   : Nat              -- media time
  mediaLocked : Bool         -- |D| fell below 10 ns and no step has parted the two since (R30)
  started : Bool             -- Ready has set media time (R32)
  ticking : Bool             -- the first tick has started
  tick    : Nat              -- number of the tick in progress
  tickOffset : Int           -- R29
  tickStart : Nat            -- media time at the start of the tick in progress
  nextTick  : Nat            -- media time at which the next tick starts
  firstTick : Nat            -- number of the first tick, before it starts (R32)
  stamps  : List (Nat × NetStamp)   -- tick start stamps, newest first (R29)
  stamped : Option NetStamp  -- the stamp of the coming tick, where a step followed at the instant of its start (R27)
  state   : Nat              -- NetworkTimeState, Table 2.5
  selected : Nat             -- the selected slot (meaningless in FREERUN and HOLDOVER)
  awaits  : Bool             -- a HOLDOVER that awaits a choice (R34)
  slew    : Int              -- network time still to be slewed at 10 ppm (R25)
  slots   : List TimeSlot
  triggers : SMap Trigger
  pins    : List TimeOutPin
  ppsOut  : Bool             -- level of PPS_OUT
  ppsNext : Nat              -- next whole second at which PPS_OUT pulses (R38)
  ppsEnd  : Option Nat       -- elapsed time at which the PPS_OUT pulse ends
  captures : SMap Capture
  dacHeld : Bool             -- the holdover DAC holds its mean code (R34)
  dacCode : Nat              -- the code that it holds
  acquired : Option Nat      -- elapsed time at which a slot ended FREERUN (R28)
  deriving DecidableEq, Repr

/-- A slot before any message: SlotState reads 0 until the defaults step arms it. -/
def TimeSlot.reset : TimeSlot :=
  { state := 0, offset := 0, base := 0, measured := false, mpd := none, master := none, foreign := [], grants := [], cands := [], acquire := [], agree := none,
    reroute := none, sync := none, lastSync := none, delay := none, delaySeq := 0 }

/-- A trigger unit that is idle. -/
def Trigger.reset : Trigger := { armed := false, done := false, next := 0, late := false, pin := none, pulseEnd := none }

/-- An empty capture FIFO. -/
def Capture.reset : Capture := { records := [], seq := 0, lost := false, lastEdge := none }

/-- The time unit after power-up: FREERUN, network time zero, ticks not started (R28, R32). -/
def TimeUnit.reset : TimeUnit :=
  { net := 0, gen := 0, elapsed := 0, addend := 0, frac := 0, stepAt := 0, stepOld := ⟨0, 0⟩, media := 0, mediaLocked := false, started := false,
    ticking := false, tick := 0, tickOffset := 0, tickStart := 0, nextTick := 0, firstTick := 0, stamps := [], stamped := none,
    state := 0, selected := 0, awaits := false, slew := 0, slots := [TimeSlot.reset, TimeSlot.reset], triggers := [],
    pins := List.replicate 8 ⟨false, false⟩, ppsOut := false, ppsNext := 0, ppsEnd := none, captures := [],
    dacHeld := false, dacCode := 0, acquired := none }

end Sys2Proof.Machine
end

