-- ==== Sys2Proof/Machine/StateQueues.lean ====
section
/-! DEFINITION. The state of the queue manager: queues with their items, read points and marks (R190 to R200), the
ordered-accumulate contexts (R162 to R166), the speech banks of each channel (R201 to R206). -/
namespace Sys2Proof.Machine

/-- What the jitter buffer's 32-byte descriptor tells of a media packet (R79 to R83). -/
structure Packet where
  ts     : Nat            -- RTP timestamp, 32 bits
  seq    : Nat            -- RTP sequence number
  stamp  : NetStamp       -- ingress timestamp with its generation
  octets : Nat            -- payload octets
  marker : Bool
  sid    : Bool           -- a SID frame
  fetched : Bool          -- came from the partner; `stamp` is the partner's (R213)
  judged : Bool           -- Table 4.8 has been applied to its arrival
  deriving DecidableEq, Repr

/-- What the forwarding path keeps of a queued frame (R48, R49, R59, R60). -/
structure FrameInfo where
  inPort  : Option Nat    -- ingress port, for a received frame
  inPrio  : Nat           -- Ethernet priority on which its ingress cells count
  stamp   : Nat           -- elapsed time from which its age runs (R49)
  order   : Nat           -- order of admission (R59)
  deriving DecidableEq, Repr

/-- The kind of an item, by its producer. -/
inductive ItemInfo where
  | plain
  | packet (p : Packet)
  | frame (f : FrameInfo)
  deriving DecidableEq, Repr

/-- One item of a queue: its bytes, the POISON and the bad parity of each of its 64-bit words, and the cells that hold it, in the order
of their Next fields (Table 9.1, R190). Eight items of a WORD queue share a cell. -/
structure QItem where
  data   : Bytes
  poison : Nat
  badPar : Nat
  badHeads : Nat          -- bit k: HeaderParity of its cell k fails
  places : List Nat       -- places of the pool; empty until the item is pushed
  info   : ItemInfo
  deriving DecidableEq, Repr

/-- An item that no queue holds yet. -/
def QItem.of (data : Bytes) (info : ItemInfo) : QItem :=
  { data := data, poison := 0, badPar := 0, badHeads := 0, places := [], info := info }

/-- One queue (R193 to R200). `items` are those not yet released, oldest first; the first `read` of them are wholly
read, and `off` bytes of the next one have been popped. -/
structure Queue where
  items  : List QItem
  read   : Nat
  off    : Nat
  mark   : Option (Nat × Nat)
  last   : Nat            -- LastValue, 16 bytes
  isolated : Bool
  headSlot : Nat          -- WORD queue: items of the head cell already released
  stranded : List Nat     -- places of its stranded cells
  deriving DecidableEq, Repr

/-- An empty queue. -/
def Queue.empty : Queue :=
  { items := [], read := 0, off := 0, mark := none, last := 0, isolated := false, headSlot := 0, stranded := [] }

/-- One entry of an ordered-accumulate round, waiting for its close (R163, R107). -/
structure OaEntry where
  member : Nat
  active : Bool
  level  : Nat
  concealed : Bool
  values : List Int       -- samples, or vector elements
  place  : Nat            -- the cell that it occupies
  poison : Bool
  deriving DecidableEq, Repr

/-- One round of a context: the entries that have arrived. -/
structure OaRound where
  entries : List OaEntry
  deriving DecidableEq, Repr

/-- The result slot of a closed round, 256 bytes as Table 7.7 lays it out, with the samples of each selected member of a
group (R110, R164, R165). -/
structure OaResult where
  slot   : Nat
  poison : Bool
  own    : SMap (List Int)
  deriving DecidableEq, Repr

/-- The parameters of a firmware context (Table 7.5). -/
structure OaParams where
  enable : Bool
  mode   : Nat
  count  : Nat
  mask   : Nat
  lag    : Nat
  deriving DecidableEq, Repr

/-- A stretch of membership of a group: member index, channel, join tick and leave tick (R107). -/
structure OaMember where
  member  : Nat
  channel : Nat
  join    : Nat
  leave   : Option Nat
  deriving DecidableEq, Repr

/-- An ordered-accumulate context: a group's, or a firmware context (R162 to R166, R107 to R109). -/
structure OaCtx where
  params   : List (Nat × OaParams)  -- first round that opens under them, newest first (R162)
  members  : List OaMember      -- of a group, as they joined
  open_    : SMap OaRound       -- entries of rounds not yet closed, by round tick
  closed   : Option Nat         -- a group's last closed round, since it last became non-empty
  results  : SMap OaResult      -- results, by round
  selected : List Nat           -- members selected at the last close (R108)
  lastActive : SMap Nat         -- last ACTIVE tick of each member
  deriving DecidableEq, Repr

/-- A context that has closed no round. -/
def OaCtx.empty : OaCtx :=
  { params := [], members := [], open_ := [], closed := none, results := [], selected := [], lastActive := [] }

/-- One slot of a speech bank (R201): its source (0 unwritten, 1 DECODED, 2 CONCEALED, 3 FILL), tag and samples. -/
structure BankSlot where
  src    : Nat
  tag    : Nat
  poison : Bool
  samples : List Int
  deriving DecidableEq, Repr

/-- The two speech banks of a channel and the state of their seal (R201 to R206). -/
structure Banks where
  filling   : Nat               -- FirstSlot of the filling bank
  draining  : Nat               -- FirstSlot of the draining bank
  slots     : SMap BankSlot     -- written slots of both banks, by tick
  nextSeal  : Nat               -- the next slot to seal
  doneTick  : Nat               -- the tick whose swap and seal have been made
  lastDecoded : Option BankSlot -- the last slot sealed DECODED (R204)
  run       : Nat               -- consecutive slots sealed CONCEALED under R204
  tags      : List (Nat × Nat)  -- the tag of the channel's hearth unit at the starts of recent ticks, newest first
  deriving DecidableEq, Repr

end Sys2Proof.Machine
end

