-- ==== Sys2Proof/Machine/StateCalls.lean ====
section
/-! DEFINITION. The state of endpoints, channels, groups and the setup store (R65 to R89), and of each channel's
treatment (R90 to R113). An endpoint context is the 512-byte record of Table 4.1, held as one number. -/
namespace Sys2Proof.Machine

/-- Where a channel's stream is anchored (R79): the frame tick `fa` of RTP timestamp `ts`, and the anchor's ingress. -/
structure Anchor where
  fa    : Int
  ts    : Nat
  stamp : NetStamp
  deriving DecidableEq, Repr

/-- What the slot of a frame tick is filled with (Table 4.8). -/
inductive SlotKind where
  | fill                        -- before the first anchor
  | played (p : Packet)
  | dtx                         -- comfort noise under DTX
  | missing                     -- concealed
  | inserted                    -- concealed, R82
  deriving DecidableEq, Repr

/-- An alert-tone definition (R102, 0x2740). -/
structure ToneDef where
  enable   : Bool
  f1       : Nat                -- Hz
  f2       : Nat                -- Hz; 0 single tone
  tol      : Nat                -- 0.1 %
  minLevel : Int                -- dBm0
  twist    : Nat                -- dB
  onMin    : Nat                -- ms
  onMax    : Nat
  offMin   : Nat
  offMax   : Nat
  cycles   : Nat
  action   : Nat
  deriving DecidableEq, Repr

/-- The parameter values under which a frame is treated: those of the epoch tag that it carries (R91). -/
structure Params where
  echo     : Bool
  tail     : Nat                -- ms, at the treatment rate
  bulkMax  : Nat                -- ms
  fade     : Nat                -- ms
  margin   : Nat                -- dB
  hold     : Nat                -- hops
  nlpMode  : Nat
  nlpThreshold : Nat            -- dB
  cnLimit  : Int                -- dBm0
  toneSet  : Nat
  dtmf     : Bool
  dtmfSuppress : Bool
  callProgress : Bool
  answerDisable : Bool
  noise    : Bool
  noiseMax : Nat                -- dB
  level    : Bool
  target   : Int                -- dBm0
  gainMax  : Int                -- dB
  gainMin  : Int
  slewUp   : Nat                -- dB/s
  slewDown : Nat
  fixedGain : Int               -- 0.5 dB
  concealFade : Nat             -- frames (R84)
  tones    : List ToneDef       -- of the profile's tone set
  deriving DecidableEq, Repr

/-- The playout decision of a frame tick, with the frame it plays. -/
structure Slot where
  tick : Nat
  kind : SlotKind
  tag  : Nat                    -- epoch tag of the hearth at the start of the frame (R88)
  codec : Nat                   -- RxCodec
  wide : Bool                   -- treatment rate 16 kHz
  run  : Nat                    -- concealed frames in a row, this one included (R84)
  data : Bytes                  -- payload of the frame played
  poison : Bool                 -- a word of it carried POISON (R198)
  params : Params
  dest   : Option Nat           -- the endpoint that the frame is sent to
  group  : Nat                  -- the channel's group and member index at the frame tick
  member : Nat
  deriving DecidableEq, Repr

/-- A bank of coefficients of the echo canceller: one complex tap per hop of tail in each subband, and the placement of its
window, in samples behind the received signal (R94, R95). -/
structure Bank where
  taps  : List (List (Int × Int))
  place : Nat
  deriving DecidableEq, Repr

/-- The echo canceller of a channel (R94 to R98, R103). -/
structure Canceller where
  bypassed : Bool
  bypassAt : Option (Nat × Nat) -- a peer's bypass waits: frame tick and channel of the detection (R103)
  fadeLeft : Nat                -- samples of the cross-fade still to run; 0 none
  fadeLen  : Nat                -- samples of the whole fade
  held     : Bool               -- SwapPending
  apply    : Bool               -- a request is applied at the first sample of the next hop
  tail     : Nat                -- tail length in use, ms
  converged : Bool
  fg       : Bank               -- the foreground bank
  bg       : Bank               -- the background bank
  old      : Bank               -- the foreground bank that a fade leaves
  fgErrs   : List (List (Int × Int))  -- error subbands of the last hops, newest first
  bgErrs   : List (List (Int × Int))
  oldErrs  : List (List (Int × Int))
  fgPower  : List Nat           -- error energies of the last 16 hops, newest first
  bgPower  : List Nat
  better   : Nat                -- unfrozen hops in a row on which the background was better by SwapMargin
  delay    : Nat                -- BulkDelay, samples
  estimates : List Nat          -- estimates of the delay over the last 500 ms, newest first
  silent   : Nat                -- samples for which both signals have stayed below −36 dBm0, while bypassed (R103)
  deriving DecidableEq, Repr

/-- A canceller that has learned nothing, for a tail. -/
def Canceller.fresh (tail : Nat) : Canceller :=
  { bypassed := false, bypassAt := none, fadeLeft := 0, fadeLen := 0, held := false, apply := false, tail := tail, converged := false,
    fg := ⟨[], 0⟩, bg := ⟨[], 0⟩, old := ⟨[], 0⟩, fgErrs := [], bgErrs := [], oldErrs := [], fgPower := [], bgPower := [],
    better := 0, delay := 0, estimates := [], silent := 0 }

/-- Hops in a row in which something has held: how many, where the first began (in 1/16 ms) and whether one was CONCEALED. -/
structure Run where
  n       : Nat
  since   : Nat
  conceal : Bool
  deriving DecidableEq, Repr

/-- No hop. -/
def Run.none : Run := ⟨0, 0, false⟩

/-- The DTMF detector (R100). -/
structure DtmfState where
  on    : Option Nat            -- digit reported
  began : Nat                   -- where it began, 1/16 ms
  gone  : Run                   -- hops for which it has been absent
  cand  : Nat                   -- digit that is being confirmed
  valid : Run                   -- hops for which that has been valid
  deriving DecidableEq, Repr

/-- The call-progress detector (R101): its state, where that began, and the hops for which the other has held. -/
structure CpState where
  on    : Bool
  began : Nat
  other : Run
  deriving DecidableEq, Repr

/-- The detector of one alert definition (R102). -/
structure AlertState where
  on      : Bool                -- between ALERT_ON and ALERT_OFF
  began   : Nat
  present : Bool                -- the period in progress is an on period
  run     : Run                 -- its hops
  good    : Bool                -- the on period before it lasted as the definition asks
  cycles  : Nat                 -- full cycles in a row
  deriving DecidableEq, Repr

/-- An alert detector that has heard nothing. -/
def AlertState.fresh : AlertState := ⟨false, 0, false, Run.none, false, 0⟩

/-- The detectors of a channel; the answer tone's run and whether it has been reported (R103). -/
structure Detect where
  dtmf   : DtmfState
  cp     : CpState
  alerts : List AlertState
  answer : Run
  told   : Nat                  -- 0 no answer tone, 1 reported, 2 its phase reversal has been seen
  deriving DecidableEq, Repr

/-- Detectors from position `pos` on. -/
def Detect.fresh (pos : Nat) : Detect :=
  ⟨⟨none, 0, Run.none, 0, Run.none⟩, ⟨false, pos, Run.none⟩, List.replicate 16 AlertState.fresh, Run.none, 0⟩

/-- What the stages of the treatment have learned of a channel, besides the canceller (R91). -/
structure Treat where
  wide   : Bool                 -- the treatment rate of what it holds
  lfsr   : Nat                  -- comfort-noise generator (R99)
  rx     : List Int             -- received samples of the last 20 ms, oldest first
  res    : List Int             -- residual of stage 3, the same
  nlp    : List Int             -- output of stage 4, the same
  nlpBands : List (List (Int × Int))  -- subbands of stage 4's last hops, newest first
  outBands : List (List (Int × Int))  -- subbands of stage 7's last hops
  smooth : List Nat             -- smoothed energy by subband
  recent : List (List Nat)      -- smoothed energies of the last 1.5 s, newest first
  noise  : List Nat             -- noise estimate by subband (R105)
  gain   : Int                  -- adaptive gain, 0.001 dB (R106)
  detect : Detect
  last   : List Int             -- treated samples of the last frame
  decoder : Nat                 -- state of the codec library's decoder
  encoder : Nat                 -- and of its encoder
  lastLevel : Int               -- last measured level, 0.001 dBm0 (R84)
  sentSilent : Bool             -- nothing was sent for the frame before, under DTX
  deriving DecidableEq, Repr

/-- The treatment of a channel from position `pos` on, with a seed (R99). -/
def Treat.fresh (wide : Bool) (seed pos : Nat) : Treat :=
  { wide := wide, lfsr := seed, rx := [], res := [], nlp := [], nlpBands := [], outBands := [], smooth := [], recent := [], noise := [], gain := 0,
    detect := Detect.fresh pos, last := [], decoder := 0, encoder := 0, lastLevel := 0, sentSilent := true }

/-- The send stream of an endpoint (R93): the samples sent toward it by speech slot, 40 at 16 kHz or 20 at 8 kHz. -/
structure SendStream where
  slots : SMap (List Int)
  deriving DecidableEq, Repr

/-- A group that a channel was a member of from its join tick on and before its leave tick (R107). -/
structure Left where
  group  : Nat
  member : Nat
  join   : Nat
  leave  : Nat
  deriving DecidableEq, Repr

/-- One channel (R67 to R85). Its counters are objects of 0x2630, 0x2760 and 0x2540. -/
structure Channel where
  state    : Nat                -- 1 active, 2 isolated
  endpoint : Nat
  output   : Nat                -- OutputEndpoint
  group    : Nat
  member   : Nat
  engine   : Nat
  thread   : Nat
  phase    : Nat
  frameTicks : Nat
  cost     : Nat                -- hundredths of a draught unit
  cipher   : Nat                -- cipher load, bit/s
  traceA   : Bool
  recorded : Bool
  body     : Nat                -- channel body in force, Table 4.4
  tag      : Nat                -- ChannelEpochTag
  openTick : Nat
  joinTick : Nat                -- tick of its group join (R107)
  rate16   : Bool               -- treatment rate 16 kHz
  rateWas  : Bool               -- the rate of frames of ticks before `rateTick`
  rateTick : Nat                -- tick from which `rate16` is in force
  depth    : Nat                -- ms
  target   : Nat                -- ms
  jmin     : Nat
  jmax     : Nat
  anchor   : Option Anchor
  firstFa  : Option Int         -- frame tick of the first anchor
  played   : List Nat           -- RTP timestamps of packets kept or played, newest first
  playedAt : List Nat           -- frame ticks played, newest first
  early    : Nat                -- early packets in a row
  delays   : List Int           -- relative delays of the last AdaptWindow packets, newest first, 2⁻¹⁶ ns
  insert   : Bool               -- one concealed frame is to be inserted at the next frame slot
  below    : Option Nat         -- tick since which the target has stayed below the depth
  dtx      : Bool               -- the last frame played was a SID frame
  conceal  : Nat                -- concealed frames in a row (R84)
  slot     : Option Slot        -- decision of the latest frame tick
  todo     : List Slot          -- decided frames whose frame work has not run, oldest first
  events   : Nat                -- tone event sequence (Table 5.5)
  tones    : List (Nat × Nat × Nat × Nat)  -- states begun and not ended: event code, set, index, start in 1/16 ms (R104)
  left     : List Left          -- the groups that it has left, newest first (R107)
  canceller : Canceller
  treat    : Treat
  isolatedAt : Option Nat       -- tick of its isolation
  misses   : Nat                -- deadline misses of its thread (R176)
  banks    : Banks
  deriving DecidableEq, Repr

/-- A setup record that waits for its tick, or is being applied (R70 to R75). -/
structure SetupRec where
  seq     : Nat
  kind    : Nat
  subject : Nat
  tick    : Nat
  cookie  : Nat
  body    : Bytes
  deriving DecidableEq, Repr

/-- An endpoint's previous receive key: the last tick of its use, and the MKI that selects it (R66). -/
structure PrevKey where
  tick      : Nat
  mkiLength : Nat
  mki       : Nat
  deriving DecidableEq, Repr

/-- The setup store and its results (R71, R75). -/
structure Setup where
  next    : Nat                 -- SetupNextSequence
  pending : List SetupRec       -- in sequence order
  results : List Nat            -- result records, oldest first, Table 4.5
  prevKeys : SMap PrevKey       -- by endpoint: its previous receive key (R66)
  deriving DecidableEq, Repr

end Sys2Proof.Machine
end

