-- ==== Sys2Proof/Machine/StateLine.lean ====
section
/-! DEFINITION. The state of the line shell and the 64 line ports (R255 to R271). -/
namespace Sys2Proof.Machine

/-- One line port. Its UNSETTLED run covers the output samples `runFrom` to `runTo - 1`, counted from the first of the tick
in progress (R262). -/
structure LinePort where
  runFrom  : Nat
  runTo    : Nat
  dc       : Int              -- the estimate m, 16 fraction bits (R260)
  froze    : Bool             -- DcFreeze as it holds for the first sample of the tick in progress
  freezes  : List (Nat × Bool)  -- what DcFreeze becomes from a sample of the tick on, oldest first
  calibrating : Bool          -- a calibration of the port runs (R270)
  bound    : Option Nat       -- channel bound to the port
  taken    : List (Nat × List Int)   -- samples of the last 40 ticks, newest first, for line frames (R264)
  sent     : List (Nat × List Int)   -- send slots of the bound channel still to be presented (R265)
  delay    : Nat              -- ticks from a send slot to its instants: 8, or 16 in a group (R265)
  mute     : Nat              -- ticks of zeros still to play after a GROUP_JOIN
  deriving DecidableEq, Repr

/-- A port at rest. -/
def LinePort.reset : LinePort :=
  { runFrom := 0, runTo := 0, dc := 0, froze := false, freezes := [], calibrating := false, bound := none, taken := [], sent := [], delay := 8, mute := 0 }

/-- A sync reset that waits for its modulator edge (R261): when that comes (elapsed time), where it lies after the start of
the tick in progress (media time), the ports, and the source as LastSyncSource shows it. -/
structure EdgeReset where
  due    : Nat
  off    : Nat
  mask   : Nat
  source : Nat
  deriving DecidableEq, Repr

/-- The line shell. -/
structure LineShell where
  awake   : Nat               -- 0 asleep, 1 waking, 2 awake
  locked  : Bool              -- the converter PLL (R257)
  unlockedTick : Bool         -- it was unlocked at some time in the tick in progress
  calibration : Nat           -- CalibrationState
  calTemp : Int               -- CalibrationTemperature
  drift   : Bool              -- the drift notice has been raised since the last calibration
  commands : List (Nat × Nat) -- scheduled sync resets: tick and mask (R261)
  edges   : List EdgeReset    -- resets that wait for their modulator edge, oldest first
  disco   : Bool              -- the tick in progress began with a re-anchor
  ports   : SMap LinePort
  deriving DecidableEq, Repr

/-- The line shell asleep. -/
def LineShell.reset : LineShell :=
  { awake := 0, locked := false, unlockedTick := false, calibration := 0, calTemp := 0, drift := false, commands := [],
    edges := [], disco := false, ports := [] }

end Sys2Proof.Machine
end

