-- ==== Sys2Proof/Machine/StateMgmt.lean ====
section
/-! DEFINITION. The state of the management plane: the dictionary's values, staging set and epochs (R272 to R294, R86,
R87), the two CANopen nodes (R273 to R278), the Gencel Object Access sessions (R287 to R291), the fault collector
(R295 to R310) and the supplies and start machinery (R311 to R326). -/
namespace Sys2Proof.Machine

/-- A commit that waits for its target tick (R86). -/
structure Commit where
  epoch  : Nat
  tick   : Nat
  values : SMap Int
  deriving DecidableEq, Repr

/-- An epoch unit that is behind: the committed epochs that it has yet to apply, oldest first (R87). -/
structure EpochUnit where
  tag     : Nat
  waiting : List (Nat × SMap Int)
  kept    : SMap (Option Int)  -- values of the epochs that wait as they still are in this unit; none the default
  deriving DecidableEq, Repr

/-- The object dictionary: values that differ from their defaults, the staging set, the pending commit, the epoch
units, and each route's window selections (R272, R285). -/
structure Dict where
  obj     : SMap Int
  staged  : SMap Int
  commit  : Option Commit
  epoch   : Nat                -- CurrentEpoch
  units   : SMap EpochUnit     -- units that are behind, or whose tag is not CurrentEpoch
  sel     : SMap Nat           -- window selections: route × 65,536 + index (× 256 + subindex)
  past    : SMap (List (Nat × Option Int))  -- values that epochs have replaced, with the target tick, newest first (R111)
  shown   : SMap Int           -- the counters of 0x2630 as they were at the last tick boundary (R89)
  abort   : Nat                -- response code of the last access; 0 when it was performed
  deriving DecidableEq, Repr

/-- The CANopen node of one bus (R273 to R278). -/
structure CanNode where
  nmt       : Nat              -- NMT state: 0 initialising, 4 stopped, 5 operational, 127 pre-operational
  state     : Nat              -- BusState: 0 error active, 1 error passive, 2 bus-off
  nominal   : Nat              -- rates in use, taken at the last NMT reset (R294)
  data      : Nat
  syncCount : SMap Nat         -- SYNCs since each synchronous TPDO was last sent
  deriving DecidableEq, Repr

/-- An open block transfer of a session (R290). -/
structure Block where
  idx  : Nat
  sub  : Nat
  item : Nat
  len  : Nat
  crc  : Nat
  segs : SMap Bytes            -- segments received, by offset
  clash : Bool                 -- a segment came again with other data
  last : Nat                   -- elapsed time of its last datagram
  deriving DecidableEq, Repr

/-- One item of a READ or WRITE: index, subindex, item number of an alias, and the value of a write (R287). -/
structure GoaItem where
  idx  : Nat
  sub  : Nat
  item : Nat
  data : Bytes
  deriving DecidableEq, Repr

/-- The body of a request, by its opcode (Table 14.8, R287, R290). -/
inductive GoaBody where
  | read (staged : Bool) (items : List GoaItem)
  | write (items : List GoaItem)
  | blockBegin (idx sub item len crc : Nat)
  | blockData (off : Nat) (data : Bytes)
  | blockEnd
  | blockRead (idx sub item off : Nat)
  | keyLoad (slot key : Nat)
  deriving DecidableEq, Repr

/-- A kept response: the request's sequence and body, and the response without its tag (R289). -/
structure Kept where
  seq  : Nat
  body : GoaBody
  resp : Bytes
  deriving DecidableEq, Repr

/-- A Gencel Object Access session (R289, R290). -/
structure Session where
  id    : Nat
  key   : Nat                  -- key slot of its last request
  high  : Nat                  -- highest sequence accepted
  last  : Nat                  -- elapsed time of its last accepted datagram
  kept  : List Kept            -- newest first, at most 32
  block : Option Block
  frees : List (Nat × Nat × List Nat)  -- records read, to free at the next request: code of the object, instance, records
  snap  : Option (Nat × Nat × Nat × Bytes) -- snapshot for BLOCK_READ: index, subindex, item number, data
  deriving DecidableEq, Repr

/-- The Gencel Object Access server: key slots (wrapped key as written, 0 empty) and sessions. -/
structure Goa where
  keys     : List Nat
  sessions : List Session
  link     : Nat               -- MgmtLinkSpeed
  deriving DecidableEq, Repr

/-- One fault log entry (Table 15.5), with the elapsed time of its first report. -/
structure LogEntry where
  seq    : Nat
  cause  : Nat
  tick   : Nat
  off    : Nat
  lastTick : Nat               -- tick of the last coalesced report
  cls    : Nat
  code   : Nat
  inst   : Nat
  detail : Nat
  coalesced : Nat
  conseq : Bool
  escal  : Bool
  lostBefore : Bool
  since  : Nat
  deriving DecidableEq, Repr

/-- The reset record of one block of Table 15.3 (R298, R299). -/
structure BlockSt where
  phase  : Nat                 -- 0 running, 1 in reset, 2 settling, 3 escalated
  cause  : Nat                 -- log sequence of the causing report
  opened : Nat                 -- elapsed time at which the reset started
  ended  : Nat                 -- elapsed time at which the reset ended
  starts : List Nat            -- elapsed times of non-consequential resets, newest first
  lastTick : Nat
  deriving DecidableEq, Repr

/-- The fault collector (R295 to R309). -/
structure Faults where
  seq     : Nat                -- log sequence of the newest entry
  low     : List LogEntry      -- entries of FC0 to FC2 not yet copied, oldest first, at most 960
  ring    : List LogEntry      -- the DRAM ring, newest first
  lostFlag : List Nat          -- classes whose next entry carries LOST_BEFORE
  blocks  : SMap BlockSt       -- kind × 256 + instance
  faultN  : Bool               -- FAULT_N asserted
  faultNAt : Nat               -- elapsed time of its last assertion
  quench  : Nat                -- code of the FC4 that quenched the device; 0 none
  quenchSup : Bool             -- the quench was caused by the supervisor (0x0C40)
  pilot   : Nat                -- PilotState: 0 held low, 1 500 Hz, 2 5 Hz
  hbArmed : Bool               -- a heartbeat has come since Ready (R306)
  hbLast  : Nat                -- elapsed time of the last heartbeat, or of Ready before the first
  hbLost  : Option Nat         -- elapsed time of the loss
  standing : List (Nat × Nat × Nat)  -- FC2 faults that stand: code, instance, detail
  emcyLast : Option Nat        -- elapsed time of the last EMCY
  emcyField : List Nat         -- PreDefinedErrorField, newest first
  deriving DecidableEq, Repr

end Sys2Proof.Machine
end

