-- ==== Sys2Proof/Machine/StatePorts.lean ====
section
/-! DEFINITION. The state of the Ethernet ports and the forwarding path (R41 to R64): links, pauses and the damper,
egress scheduling, flow table placement, PRP. Settings and counters of a port are objects of 0x3000 + 0x40 × p. -/
namespace Sys2Proof.Machine

/-- The pause state of one priority of one port (R47, R49). Times are elapsed times. -/
structure Pause where
  from_   : Option Nat          -- when the pause took effect; none: not paused
  until_  : Nat                 -- when the pause time runs out
  ignore  : Option Nat          -- received pauses have no effect until then
  deriving DecidableEq, Repr

/-- A priority that is not paused. -/
def Pause.none : Pause := { from_ := Option.none, until_ := 0, ignore := Option.none }

/-- One Ethernet port. -/
structure Port where
  linkUp  : Bool
  txPrio  : Option Nat          -- priority of the frame on the wire
  txEnd   : Nat                 -- elapsed time at which that frame ends
  pauses  : SMap Pause          -- by priority
  deficit : List Nat            -- deficit round robin counters, octets, by priority
  drrAt   : Nat                 -- priority whose turn it is
  xoff    : SMap (Nat × Bool)   -- priorities (8: all, under PAUSE) for which pause has been sent: elapsed time of the last one,
                                -- and whether the excess still stands
  deriving DecidableEq, Repr

/-- A port that is down. -/
def Port.reset : Port :=
  { linkUp := false, txPrio := none, txEnd := 0, pauses := [], deficit := List.replicate 8 0, drrAt := 0, xoff := [] }

/-- A node known to a PRP pair: the source's MAC, when it was last heard, and the sequence numbers remembered with
their times (R56). -/
structure PrpNode where
  mac  : Nat
  seen : Nat
  seqs : List (Nat × Nat)
  deriving DecidableEq, Repr

/-- The forwarding path. -/
structure Forward where
  ports   : SMap Port
  placed  : SMap Nat            -- flow entries that hold a place: 1 staged, 2 installed (R53)
  order   : Nat                 -- frames admitted so far (R59)
  prpSeq  : SMap Nat            -- next PRP sequence number, by pair and destination
  nodes   : List PrpNode
  lifeAt  : SMap Nat            -- elapsed time of each pair's last supervision frame
  rtcp    : SMap (Nat × Nat)    -- by endpoint: the highest SRTCP index received, and the replay window below it (R57)
  cipher  : List (Nat × Nat)    -- what the cipher pipeline took in the last 100 ms: elapsed time, frame octets; newest first
  deriving DecidableEq, Repr

/-- The forwarding path after power-up. -/
def Forward.reset : Forward :=
  { ports := [], placed := [], order := 0, prpSeq := [], nodes := [], lifeAt := [], rtcp := [], cipher := [] }

end Sys2Proof.Machine
end

