-- ==== Sys2Proof/Machine/StateEvidence.lean ====
section
/-! DEFINITION. The state of the evidence path (R222 to R238): streams, block images, the compressor job queue, the four
units and each stream's saved compression context. -/
namespace Sys2Proof.Machine

/-- One slot of a block: its slot-map byte and its samples (R225, Table 11.2). -/
structure EvSlot where
  map     : Nat
  samples : List Int
  deriving DecidableEq, Repr

/-- An event record (Tables 11.3, 11.4) with the key that orders it within its block (R226). -/
structure EvEvent where
  late : Bool
  tick : Nat
  kind : Nat
  seq  : Nat
  offset : Nat
  body : Bytes
  deriving DecidableEq, Repr

/-- A block that is being filled, or that has been refused (R223, R224). -/
structure EvBlock where
  first   : Nat               -- first tick
  last    : Option Nat        -- last tick, once known
  made    : Bool              -- false: no image was free at its first tick
  index   : Nat
  slots   : List EvSlot       -- in tick order
  captures : List Bytes       -- capture records in order of acceptance
  events  : List EvEvent      -- in order of arrival
  eventBytes : Nat
  tag     : Nat               -- EpochTag of the preamble
  final   : Bool
  restart : Bool              -- RESTART, settled at its first tick (R232)
  transform : Bool            -- Transform of its group (R228)
  slotsLost : Nat             -- carried in this block's preamble
  eventsLost : Nat
  lost    : Bool              -- LOST_BEFORE
  deriving DecidableEq, Repr

/-- One symbol of the matcher: a literal or a match (R230). -/
inductive Sym where
  | lit (b : Nat)
  | copy (len dist : Nat)
  deriving DecidableEq, Repr

/-- A compressor job: one closed block (R233). -/
structure Job where
  stream  : Nat
  index   : Nat
  image   : Bytes             -- the logical image, before the transform (R225)
  final   : Bool
  groupEnd : Bool             -- last job of its group, or of its stream (R232)
  lost    : Bool              -- LOST_BEFORE
  group   : Nat               -- BlockIndex of the RESTART block of its group
  first   : Nat
  ticks   : Nat
  plane   : Nat               -- byte offset of the sample plane
  planeLen : Nat
  granted : Nat               -- bytes of output space granted
  state   : Nat               -- 1 queued, 2 running, 3 suspended for output, 4 suspended by abort
  deriving DecidableEq, Repr

/-- A stream's saved compression context (R234, Table 11.8): what carries over between jobs and suspensions. -/
structure CompCtx where
  window  : List Nat          -- history bytes, oldest first, at most 32,768
  wpos    : Nat               -- next write offset in the circular window
  started : Bool              -- the job in progress has begun to emit
  effort  : Nat
  transform : Bool
  x1      : Int
  x2      : Int
  words   : Nat               -- code words of the job already emitted
  bits    : Nat               -- bits of the job emitted
  output  : Nat               -- those bits, first bit lowest
  jobState : Nat
  deriving DecidableEq, Repr

/-- An evidence stream (R222 to R226). -/
structure Stream where
  kind    : Nat               -- 1 channel, 2 capture
  state   : Nat               -- 1 open, 2 closing
  source  : Nat
  slotSamples : Nat
  openTick : Nat
  nextIndex : Nat
  blocks  : List EvBlock      -- open blocks, oldest first
  blockTicks : Nat            -- BlockTicks in force for this stream (R223)
  lastTag : Option Nat        -- tag of the last slot received
  slotsLost : Nat             -- refused and not yet carried by a made block
  eventsLost : Nat
  lost    : Bool              -- the next made block carries LOST_BEFORE
  transform : Bool            -- Transform of the group of the last made block (R228)
  group   : Nat               -- BlockIndex of the RESTART block of the last closed block's group (R232)
  ctx     : CompCtx
  deriving DecidableEq, Repr

/-- A compressor unit. -/
structure CompUnit where
  state   : Nat               -- UnitState
  stream  : Option Nat
  deriving DecidableEq, Repr

/-- The evidence path. -/
structure Evidence where
  streams : SMap Stream
  jobs    : List Job          -- queued, running and suspended jobs, in queue order
  units   : SMap CompUnit
  discos  : List Nat          -- ticks that began with a re-anchor, newest first (R31)
  cut     : Nat               -- BlockTicks as it stood before the tick in progress (R223)
  busy    : SMap LoadAcct     -- by compressor unit
  shown   : SMap Int          -- the streams' counters as they were at their last block close (R238)
  deriving DecidableEq, Repr

/-- The evidence path after power-up. -/
def Evidence.reset : Evidence := { streams := [], jobs := [], units := [], discos := [], cut := 400, busy := [], shown := [] }

end Sys2Proof.Machine
end

