-- ==== Sys2Proof/Machine/StateStore.lean ====
section
/-! DEFINITION. The state of the check-value channels (R239 to R242) and of the NVMe store host: namespaces, the ring,
open and closing segments with their records, output pages, the retained index (R243 to R254). -/
namespace Sys2Proof.Machine

/-- A firmware check job in progress (R240): its descriptor (Table 12.2). -/
structure CheckJob where
  desc : Nat
  deriving DecidableEq, Repr

/-- One check-value channel. -/
structure CheckCh where
  job  : Option CheckJob
  sealing : Option (Nat × Nat)    -- the record being sealed: segment and offset
  deriving DecidableEq, Repr

/-- A namespace attached to a root port: 2 r + s for namespace s of PCIE_r (R244). -/
structure Namespace where
  state    : Nat           -- NamespaceState
  capacity : Nat           -- bytes
  lba      : Nat
  identity : Nat           -- RingIdentity of its label; 0 none
  place    : Nat           -- NamespaceIndex of its label
  deriving DecidableEq, Repr

/-- A block record (R246): where it is placed and how far it has come. -/
structure Rec where
  stream : Nat
  off    : Nat             -- offset in its segment
  header : Nat             -- Table 12.7, with BlockCrc once sealed
  payload : Bytes
  size   : Nat             -- RecordBytes
  phase  : Nat             -- 0 placed, 1 being sealed, 2 submitted, 3 written
  channel : Nat            -- check channel that seals it
  tries  : Nat             -- failed Writes
  pages  : Nat             -- output pages it holds
  deriving DecidableEq, Repr

/-- A segment that is open, or closed with its header not yet written (R247 to R249). -/
structure Segment where
  number  : Nat
  offset  : Nat            -- where the next record goes
  opened  : NetStamp
  openedAt : Nat           -- elapsed time of its opening
  records : List Rec       -- in order of placement
  epochs  : List (Nat × Nat)   -- target tick and epoch, oldest first
  overflow : Bool
  reason  : Nat            -- CloseReason; 0 while open
  closed  : NetStamp
  header  : Option Nat     -- Table 12.8 once its Write has been submitted
  tries   : Nat            -- failed Writes of the header
  deriving DecidableEq, Repr

/-- A segment held by the ring: its header as written and the bytes of its records (R253, R254). -/
structure Held where
  header : Nat
  data   : Bytes
  broken : Bool            -- its PreviousHeaderCheck does not match
  deriving DecidableEq, Repr

/-- The store host. -/
structure Store where
  checks  : SMap CheckCh
  names   : SMap Namespace
  ready   : Bool           -- the scan, or a FORMAT, has put the ring into use
  formatting : Option (Nat × Nat)  -- RingIdentity and network seconds of a FORMAT that is running
  identity : Nat
  total   : Nat            -- TotalSlots
  perName : Nat            -- SlotsPerNamespace
  places  : List (Option Nat)  -- namespaces of the ring, by index; none where a scan found the place's drive missing
  next    : Nat            -- number of the next segment to open
  segs    : List Segment   -- open segment last, closing ones before it
  held    : SMap Held
  lastCheck : Nat          -- HeaderCheck of the last header written
  lastTick : Nat
  waiting : List Rec       -- records handed over or to be re-placed while no segment is open, oldest first
  gapNext : List Nat       -- streams whose next block carries GAP because one of theirs could not be sealed
  epochAt : SMap Nat       -- target tick of the epoch in force in unit 96 + r
  pool    : Nat            -- pages of OutputPool at this start
  free    : Nat            -- OutputPagesFree
  robin   : Nat            -- next channel of the seal round robin
  wrote   : List (Nat × Nat) -- elapsed time and bytes of each write of the last 60 s, newest first
  clean   : Bool           -- the retained index is clean
  linkUp  : SMap (Nat × Nat) -- PCIe speed and width of ports that are up
  grants  : List Nat       -- streams whose grant of output space waits for a page (R250)
  busy    : SMap LoadAcct  -- by check channel
  deriving DecidableEq, Repr

/-- The store host after power-up. -/
def Store.reset : Store :=
  { checks := [], names := [], ready := false, formatting := none, identity := 0, total := 0, perName := 0,
    places := [], next := 1, segs := [], held := [], lastCheck := 0, lastTick := 0, waiting := [], gapNext := [],
    epochAt := [],
    pool := 32768, free := 32768, robin := 0, wrote := [], clean := false, linkUp := [], grants := [], busy := [] }

end Sys2Proof.Machine
end

