-- ==== Sys2Proof/Machine/StateStart.lean ====
section
/-! DEFINITION. The state of the supplies, the straps and the start machinery (R311 to R326), and what a command that
starts the device tells of the outside world: the straps, the fuses, the flash and the store that it finds. -/
namespace Sys2Proof.Machine

/-- The strap pins (Table 16.4). -/
structure Straps where
  node : Nat
  tier : Nat               -- 0 FULL, 1 HALF, 2 TRACKSIDE, 3 ONBOARD
  boot : Nat
  twin : Nat               -- 0 solo, 1 twin A, 2 twin B, 3 error
  line : Nat
  deriving DecidableEq, Repr

/-- A firmware image as verification finds it (R318). -/
structure Image where
  accepted : Bool          -- Magic, lengths, key hash, signature and MinStepping hold
  tooLong  : Bool          -- ImageLength is above 16,776,704, or the image does not fit a slot
  version  : Nat
  rollback : Nat
  digest   : Nat           -- SHA-384, 48 bytes
  deriving DecidableEq, Repr

/-- A slot of the flash as a cold start finds it (R318): its bytes, none where no flash is found, and whether the image in them is
`signed`: the key hash and the signature hold. -/
structure FlashSlot where
  data   : Bytes
  signed : Bool
  deriving DecidableEq, Repr

/-- A namespace that the scan of a cold start finds (R251). -/
structure FoundName where
  slot : Nat               -- 2 r + s
  capacity : Nat
  lba  : Nat
  identity : Nat           -- RingIdentity of its label; 0 no label
  place : Nat
  count : Nat              -- NamespaceCount of its label
  slots : Nat              -- SlotsPerNamespace of its label
  deriving DecidableEq, Repr

/-- What the evidence-store scan finds (R251): namespaces, headers by segment number with their records, the records of
the partial segment that verify, and how the scan went. -/
structure Scan where
  names   : List FoundName
  held    : List (Nat × Held)
  partial_ : List Rec
  linear  : Bool
  breaks  : Nat
  ms      : Nat
  deriving DecidableEq, Repr

/-- What a start meets outside: the failing step, if any, with its reason (Table 16.5, 16.7), failed lanes, sensor
readings, images, line calibration, the store. -/
structure StartWorld where
  fail     : Option (Nat × Nat)
  lanes    : Nat             -- mask of lanes that fail calibration
  temps    : List Int        -- sensors 0 to 5, 0.1 °C
  main     : FlashSlot            -- the main slot of the flash
  recovery : FlashSlot            -- the recovery slot
  flash    : Nat             -- FlashBytes
  drams    : List Nat        -- GiB that each DDR5 controller trains
  imageOk  : Bool            -- warm start: the retained image's digest still matches
  indexOk  : Bool            -- warm start: the CRC of the store index matches
  ddrOk    : Bool            -- warm start: retained training values valid
  ms       : Nat             -- time from the start to its end or its wait, ms
  scan     : Scan
  deriving DecidableEq, Repr

/-- The always-on retention register (R324). -/
structure Retention where
  failedStep : Nat
  failReason : Nat
  warm   : Nat             -- FailedWarmStarts
  cold   : Nat             -- FailedColdStarts
  colds  : Nat             -- ColdStarts
  warms  : Nat             -- WarmStarts
  banked : Nat             -- BankedReason
  deriving DecidableEq, Repr

/-- The retention register after VDD_IO18 has come up. -/
def Retention.reset : Retention := { failedStep := 0, failReason := 0, warm := 0, cold := 0, colds := 0, warms := 0, banked := 0 }

/-- The supplies and start machinery. -/
structure Start where
  straps : Straps
  state  : Nat             -- StartState: 0 cold start, 1 running, 2 warm start, 3 banked, 4 quench
  step   : Nat             -- StartStep
  kind   : Nat             -- LastStartKind
  ready  : Bool            -- the device has reached Ready since its last start began
  begun  : Nat             -- elapsed time at which the start began
  ms     : Nat             -- LastStartTime
  world  : Option StartWorld -- what the start in progress still needs
  boot   : Nat             -- boot mode of the start in progress (R325)
  due    : Option Nat      -- the start that is to run, as LastStartKind codes it
  selftest : Bool          -- that start is a warm start with memory self-test
  waitFrom : Nat           -- elapsed time since which step 8 or step 10 waits
  retention : Retention
  armed  : Bool            -- supply monitors
  resetLow : Bool          -- RESET_N is low
  temps  : List Int        -- sensor readings
  tjMax  : Int             -- TjMax
  warned : Bool            -- the thermal warning has been reported and is not re-armed
  lanes  : Nat             -- failed lanes
  dramGiB : Nat
  ddrTemp : Int            -- DdrTrainTemperature
  image  : Option Image    -- the image that runs
  imageFrom : Nat          -- FirmwareImage
  main   : Option Image
  recovery : Option Image
  flash  : Nat
  fused  : Nat             -- fused rollback index, as raised since manufacture
  load   : List (Nat × Bytes)   -- FirmwareLoadData received: offset and bytes, newest first
  loadStatus : Nat         -- FirmwareLoadStatus
  loadImage : Option Image -- the image being written to flash
  deriving DecidableEq, Repr

/-- The machinery with power on and RESET_N low: nothing sampled, nothing started. -/
def Start.reset : Start :=
  { straps := ⟨0, 0, 0, 0, 0⟩, state := 0, step := 0, kind := 0, ready := false, begun := 0, ms := 0, world := none,
    boot := 0, due := some 0, selftest := false, waitFrom := 0, retention := Retention.reset, armed := false, resetLow := true,
    temps := [0, 0, 0, 0, 0, 0], tjMax := 0, warned := false, lanes := 0, dramGiB := 0, ddrTemp := 0, image := none,
    imageFrom := 0, main := none, recovery := none, flash := 0, fused := 0, load := [], loadStatus := 0,
    loadImage := none }

end Sys2Proof.Machine
end

