-- ==== Sys2Proof/Machine/StateEngine.lean ====
section
/-! DEFINITION. The state of the Abtia engines (R114 to R143): a thread's context, the operations an engine holds in
flight, and the memories that engines address: external memory and local memory, byte by byte. -/
namespace Sys2Proof.Machine

/-- Hardware loop state LC0 or LC1: count, start and end, 32 bits each (Table 6.12). -/
structure LoopReg where
  count : BitVec 32
  start : BitVec 32
  stop  : BitVec 32
  deriving DecidableEq, Repr

/-- A thread's context: the register set of Table 6.1. Accumulator pair k is 80 bits: ACC2k low and ACC2k+1 high in
16-bit mode, WACCk in the low 72 bits in 32-bit mode (R141). G0's storage is never read (R117). -/
structure Ctx where
  g    : Vector Word 32
  gp   : BitVec 32             -- GPoison: bit n, Gn poisoned
  a    : Vector (BitVec 32) 8
  cd   : Vector (BitVec 64) 4
  acc  : Vector (BitVec 80) 4
  accp : BitVec 8              -- AccPoison
  st   : BitVec 64
  qs   : BitVec 16
  pc   : BitVec 32
  lc0  : LoopReg
  lc1  : LoopReg
  lmwin : BitVec 32            -- bits 5:0 base, bits 14:8 size, in 4 KiB units
  tags : BitVec 8              -- copy tags outstanding
  failed : BitVec 8            -- copy tags failed
  deriving DecidableEq, Repr

/-- A loop register at rest. -/
def LoopReg.reset : LoopReg := { count := 0, start := 0, stop := 0 }

/-- The context of Table 6.12's defaults: address register n selects descriptor n mod 4 (Table 6.4). -/
def Ctx.reset : Ctx :=
  { g := Vector.replicate 32 0, gp := 0,
    a := #v[0, 0x100000, 0x200000, 0x300000, 0, 0x100000, 0x200000, 0x300000],
    cd := Vector.replicate 4 0, acc := Vector.replicate 4 0, accp := 0, st := 0, qs := 0, pc := 0,
    lc0 := LoopReg.reset, lc1 := LoopReg.reset, lmwin := 0, tags := 0, failed := 0 }

/-- An outstanding external operation (R147): what it does at its home. A push or a pop that the queue manager has not taken yet is
one too (R150); `last` tells that its thread has made no later queue operation, so that its outcome goes to QS. -/
inductive XKind where
  | load (wide : Bool) (rd : BitVec 5)
  | add (rd : BitVec 5) (operand : Word)
  | swap (rd : BitVec 5) (operand : Word)
  | cas (rd : BitVec 5) (operand expect : Word)
  | store (wide : Bool) (data : BitVec 128)
  | push (q : Nat) (word rel : Bool) (item : QItem) (last : Bool)
  | pop (q : Nat) (rd : BitVec 5) (last : Bool)
  deriving DecidableEq, Repr

/-- An external operation in flight: its address, the thread that issued it and the poison of its data, one bit for
each 64-bit word. -/
structure XOp where
  kind   : XKind
  addr   : Nat
  thread : Nat
  poison : Nat
  deriving DecidableEq, Repr

/-- A background copy under a tag (R121): its external address, local address and 16-byte words. -/
structure XCopy where
  tag    : Nat
  into   : Bool                -- XCOPY.IN
  ext    : Nat
  loc    : Nat
  words  : Nat
  thread : Nat
  left   : List Nat            -- words that have not been moved yet
  deriving DecidableEq, Repr

/-- One engine: the thread it runs and the active bank, the preloaded candidate, the context still to be written back,
and what it holds in flight. -/
structure EngineSt where
  thread : Option Nat
  ctx    : Ctx
  cand   : Option (Nat × Ctx)
  back   : Option (Nat × Ctx)
  ops    : List XOp            -- oldest first
  copies : List XCopy
  bank   : Bool                -- register bank in use
  deriving DecidableEq, Repr

/-- An engine that runs nothing. -/
def EngineSt.reset : EngineSt :=
  { thread := none, ctx := Ctx.reset, cand := none, back := none, ops := [], copies := [], bank := false }

/-- The memories. `ext` is external memory by address (hearthstone at 0x2000_0000 + h × 0x40_0000, DRAM); `loc` is
local memory, byte a of engine e at e × 2¹⁸ + a. The poison lists name poisoned 64-bit words (address / 8), and `lmBad`
the local-memory halves with bad parity, each list strictly rising (R122, R132). -/
structure Mem where
  ext     : List Host.Cell
  loc     : List Host.Cell
  extPsn  : List Nat
  locPsn  : List Nat
  lmBad   : List Nat
  deriving DecidableEq, Repr

/-- Memory with nothing listed. -/
def Mem.reset : Mem := { ext := [], loc := [], extPsn := [], locPsn := [], lmBad := [] }

end Sys2Proof.Machine
end

