-- ==== Sys2Proof/Machine/StateStoker.lean ====
section
/-! DEFINITION. The state of the Stoker (R167 to R189): thread control blocks with the contexts of threads that are on
no engine, ready stores, latches, the accounts of the draught gauge and the steering of VDD_CORE. -/
namespace Sys2Proof.Machine

/-- A ready entry (R169): thread, kind (Table 8.3), value, ready time, order key, order of writing, and the deadline of
the release it begins. -/
structure Ready where
  thread : Nat
  kind   : Nat
  value  : Nat
  time   : NetStamp
  key    : Nat
  order  : Nat
  dlTick : Nat
  dlOff  : Nat
  missed : Bool               -- its miss has been reported before the release began (R176)
  deriving DecidableEq, Repr

/-- What a thread that blocked within its release waits for (Table 8.4, R155, R156). -/
inductive Hold where
  | kinds (mask : Nat) (rd : BitVec 5)     -- WAIT
  | tick (t : Nat)                         -- FENCE.TICK
  | epoch (e tick : Nat)                   -- FENCE.EPOCH: the epoch pending at its issue, and its target tick
  deriving DecidableEq, Repr

/-- A thread control block (Table 8.1) with its saved context (R141) and the release in progress (R172). -/
structure Tcb where
  state   : Nat                -- Table 8.2
  entryPc : Nat
  channel : Nat
  cost    : Nat
  lmWindow : Nat
  mask    : Nat                -- AffinityMask
  home    : Nat                -- HomeEngine
  prio    : Nat
  releases : Nat               -- ReleasesPending
  waitMask : Nat
  flags   : Nat
  relDl   : Nat                -- RelativeDeadline, ns
  misses  : Nat
  dispatches : Nat
  preempts : Nat
  dlTick  : Nat
  dlOff   : Nat
  ctx     : Ctx
  release : Option Ready       -- the entry whose release is in progress
  missed  : Bool               -- that release's miss has been reported (R176)
  hold    : Option Hold
  move    : Option (Nat × Nat) -- a migration that waits: target engine and mask; MIGRATING: the engine left, and mask (R178)
  via     : Option Nat         -- the slice whose port took that MIGRATE; none: StokerCommand
  behind  : Bool               -- its channel was isolated by R177: no further TICK or FRAME entry is written for it
  deriving DecidableEq, Repr

/-- An event that a hardware poster holds in its latch, or behind it (R170). -/
structure Post where
  thread : Nat
  kind   : Nat
  value  : Nat
  deriving DecidableEq, Repr

/-- The wait statistics of class B dispatches of an engine (R186). -/
structure WaitStats where
  count : Nat
  sum   : Nat
  least : Nat
  most  : Nat
  hist  : List Nat
  deriving DecidableEq, Repr

/-- The steering of VDD_CORE (R183, R184). -/
structure Avs where
  command  : Nat               -- VddCoreCommand, mV
  reported : Nat               -- last voltage the regulator reported
  waiting  : Option Nat        -- a step whose report has not come: elapsed time of the command
  lastDecision : Nat
  lowSince : Option Nat        -- since when every engine has held Allocated at or below AvsLowerRatio
  ports    : List Nat          -- ports whose AdminUp waits for 0.720 V
  deriving DecidableEq, Repr

/-- The Stoker. -/
structure Stoker where
  tcbs   : SMap Tcb
  ready  : SMap (List Ready)   -- by hearth, in the order written
  order  : Nat                 -- entries written so far
  latches : SMap (List Post)   -- by poster: 0 to 11 tick release of hearth h, 16 classifier, 20 to 23 queue manager
                               -- banks, 32 to 47 time-trigger units
  owed   : SMap Nat            -- by poster: ready entries freed in the hearth of its held event, not yet followed by a retry
  waits  : SMap WaitStats
  loads  : SMap LoadAcct       -- by engine
  gaugeAt : SMap Nat           -- by hearth: elapsed time of its last gauge reading (R180)
  deficit : SMap (Nat × Bool)  -- engines in deficit: since when, and whether the second notice was raised
  trace  : SMap (Nat × Bool)   -- trace queues: sequence, and whether a record was refused since the last; TraceSelect k at
                               -- 2 ^ 32 + k: records it lost while its queue was unset (R185)
  result : Nat                 -- CommandResult
  resultH : SMap Nat           -- result at offset 0x20 of each slice's command port
  port   : SMap (Option Nat × Option Nat)  -- halves stored to each slice's command port: bytes 0 to 15, 16 to 31
  avs    : Avs
  deriving DecidableEq, Repr

/-- VDD_CORE steering after reset: 0.780 V until the first decision (R184). -/
def Avs.reset : Avs :=
  { command := 780, reported := 780, waiting := none, lastDecision := 0, lowSince := none, ports := [] }

/-- The Stoker after power-up: no thread, no entry. -/
def Stoker.reset : Stoker :=
  { tcbs := [], ready := [], order := 0, latches := [], owed := [], waits := [], loads := [], gaugeAt := [],
    deficit := [], trace := [], result := 0,
    resultH := [], port := [], avs := Avs.reset }

end Sys2Proof.Machine
end

