-- ==== Sys2Proof/Machine/StateTwin.lean ====
section
/-! DEFINITION. The state of the twin logic (R208 to R221): ledgers, fetches, decisions, digests, the join. Counters are
objects of 0x2801 and 0x2820. -/
namespace Sys2Proof.Machine

/-- A ledger entry (Table 10.5): one media packet accepted to a jitter buffer. -/
structure LedgerEntry where
  channel : Nat
  seq     : Nat
  ts      : Nat
  stamp   : NetStamp
  digest  : Nat
  octets  : Nat
  marker  : Bool
  sid     : Bool
  deriving DecidableEq, Repr

/-- A decision record (Table 10.6). -/
structure Decision where
  seq     : Nat
  subject : Nat
  status  : Nat
  engine  : Nat
  phase   : Nat
  cost    : Nat
  deriving DecidableEq, Repr

/-- A digest record (Table 10.7). -/
structure Digest where
  tick    : Nat
  channel : Nat
  ledger  : Nat
  output  : Nat
  cause   : Nat
  deriving DecidableEq, Repr

/-- A partner's ledger of one interval, as its header and contents stand (Table 10.4). -/
structure Ledger where
  tick    : Nat
  stamp   : NetStamp           -- the sender's twin deadline of the interval
  entries : List LedgerEntry
  decisions : List Decision
  digests : List Digest
  sender  : Nat
  config  : Nat
  last    : Bool
  deriving DecidableEq, Repr

/-- A fetch that has been sent (R213). -/
structure Fetch where
  entry : LedgerEntry
  tick  : Nat                  -- the frame tick that needs it
  deriving DecidableEq, Repr

/-- The twin logic. -/
structure Twin where
  state   : Nat                -- Table 10.1
  closed  : Option Nat         -- last interval tick closed here
  entries : List LedgerEntry   -- packets accepted since the last close, oldest first
  own     : List (Nat × NetStamp × List LedgerEntry)  -- own ledgers of recent intervals with their deadlines, newest first
  partner : List Ledger        -- partner's ledgers of recent intervals, newest first
  digests : List Digest        -- digests not yet sent
  sentDigests : List Digest    -- own records still to be compared, newest first
  heldDigests : List Digest    -- partner's records that came before the own ones, newest first
  decisions : List Decision    -- decisions not yet sent
  decided : List Decision      -- own decisions for the records that name the next tick (R215)
  ledFor  : Option Nat         -- the tick whose records those decisions are for
  fetches : List Fetch
  failed  : List (Nat × Nat)   -- channels and frame ticks of recent failed fetches, newest first
  missing : Nat                -- consecutive intervals missing
  skew    : Nat                -- consecutive intervals beyond TickSkewLimit
  config  : Nat                -- consecutive intervals whose ConfigDigest differed
  single  : List (Nat × Nat)   -- channels single-sourced: channel and elapsed time, newest first
  states  : SMap Nat           -- TwinChannelState of channels that are not 0
  suppress : List Nat          -- channels whose egress media frames are suppressed here
  helloAt : Option Nat         -- elapsed time of the last HELLO
  joinStep : Nat               -- step of Table 10.8 reached; 0 none
  joinTick : Option Nat        -- join boundary T, once fixed
  expect  : Nat                -- channels that the join will copy
  nextSeq : Nat                -- the partner's SetupNextSequence, for the join boundary
  joined  : List Nat           -- channels joined or single-sourced in this join
  awaiting : SMap Nat          -- joined channels whose output must still match: frames tried
  key     : Nat                -- TwinLinkKey as written, 0 none
  deriving DecidableEq, Repr

/-- The twin logic of a device strapped solo. -/
def Twin.reset : Twin :=
  { state := 0, closed := none, entries := [], own := [], partner := [], digests := [], sentDigests := [], heldDigests := [],
    decisions := [], decided := [], ledFor := none, fetches := [], failed := [], missing := 0, skew := 0, config := 0, single := [], states := [],
    suppress := [], helloAt := none, joinStep := 0, joinTick := none, expect := 0, nextSeq := 1, joined := [], awaiting := [], key := 0 }

end Sys2Proof.Machine
end

