-- ==== Sys2Proof/Machine/Dev.lean ====
section
/-! DEFINITION. Everything the device holds but its addressed memories: the blocks of Tables 1.1 and 1.2, put together. -/
namespace Sys2Proof.Machine

/-- What the device sends outside. -/
inductive Emission where
  | frame (port : Nat) (queue : Nat) (data : Bytes)        -- an Ethernet frame starts on a port
  | mac (port : Nat) (code : Nat) (data : Bytes)           -- a MAC control, PTP, PRP or twin frame
  | answer (abort : Nat) (data : Bytes)                    -- the response to a dictionary access
  | can (bus : Nat) (id : Nat) (data : Bytes)              -- a CAN FD frame
  | datagram (data : Bytes)                                -- a Gencel Object Access response
  | nvme (name : Nat) (kind : Nat) (lba : Nat) (data : Bytes)  -- an NVMe command: 0 Write, 1 Write with FUA, 2 Flush
  | abandon (port : Nat)                                   -- submitted NVMe commands are abandoned
  | avs (mv : Nat)                                         -- a VDD_CORE command
  | line (port : Nat) (samples : List Int)                 -- samples presented to a transmit chain
  deriving DecidableEq, Repr

/-- The device. -/
structure Dev where
  time    : TimeUnit
  fwd     : Forward
  dict    : Dict
  endpoints : SMap Nat            -- endpoint contexts, Table 4.1
  chans   : SMap Channel
  sends   : SMap SendStream       -- send streams, by endpoint (R93)
  groups  : SMap (SMap Nat)       -- members of each group: member index to channel
  setup   : Setup
  queues  : SMap Queue
  oa      : SMap OaCtx            -- 0 to 8,191 groups, 8,192 to 8,703 firmware contexts
  banks   : SMap Nat              -- parity or poison tally of queue manager banks (R199)
  stk     : Stoker
  engines : SMap EngineSt
  twin    : Twin
  ev      : Evidence
  store   : Store
  line    : LineShell
  cans    : SMap CanNode
  canAt   : SMap Nat              -- elapsed time at which TPDO 0 to 3, or the heartbeat (4), was last sent
  goa     : Goa
  faults  : Faults
  start   : Start
  out     : List Emission         -- what the device has sent, newest first
  free    : Nat                   -- the model's own: values drawn so far that the spec leaves open
  deriving DecidableEq, Repr

/-- The dictionary at its defaults, CurrentEpoch 0 (R317). -/
def Dict.reset : Dict :=
  { obj := [], staged := [], commit := none, epoch := 0, units := [], sel := [], past := [], shown := [], abort := 0 }

/-- The setup store, empty; the first record is number 1 unless the table of defaults says otherwise. -/
def Setup.reset : Setup := { next := 1, pending := [], results := [], prevKeys := [] }

/-- The Gencel Object Access server: both key slots empty. -/
def Goa.reset : Goa := { keys := [0, 0], sessions := [], link := 0 }

/-- The fault collector after power-up. -/
def Faults.reset : Faults :=
  { seq := 0, low := [], ring := [], lostFlag := [], blocks := [], faultN := false, faultNAt := 0,
    quench := 0, quenchSup := false, pilot := 0, hbArmed := false, hbLast := 0, hbLost := none, standing := [],
    emcyLast := none, emcyField := [] }

/-- The device with power on and RESET_N low. -/
def Dev.reset : Dev :=
  { time := TimeUnit.reset, fwd := Forward.reset, dict := Dict.reset, endpoints := [], chans := [], sends := [], groups := [],
    setup := Setup.reset, queues := [], oa := [], banks := [], stk := Stoker.reset, engines := [],
    twin := Twin.reset, ev := Evidence.reset, store := Store.reset, line := LineShell.reset, cans := [], canAt := [],
    goa := Goa.reset, faults := Faults.reset, start := Start.reset, out := [], free := 0 }

/-- The device with the memories that engines and check-value channels address. -/
structure Sys where
  mem : Mem
  dev : Dev
  deriving DecidableEq, Repr

/-- The whole after power-up. -/
def Sys.reset : Sys := { mem := Mem.reset, dev := Dev.reset }

/-- A change of the device that leaves the addressed memories alone. -/
def Sys.onDev (f : Dev → Dev) (s : Sys) : Sys := { s with dev := f s.dev }

end Sys2Proof.Machine
end

