-- ==== Sys2Proof/Machine/Bits.lean ====
section
/-! DEFINITION. Bit fields, byte order and signs: the helpers that read and write the device's own records, whose bit 0
is the least significant and whose multi-byte values are little-endian (R7); and the unit of time, 2⁻¹⁶ ns (R21). -/
namespace Sys2Proof.Machine

/-- The value of field `f` in the record `r`. -/
def getF (r : Nat) (f : Fld) : Nat := (r >>> f.lo) % 2 ^ f.w

/-- The record `r` with field `f` holding `v` (modulo the field's width). -/
def setF (r : Nat) (f : Fld) (v : Nat) : Nat :=
  r % 2 ^ f.lo + (v % 2 ^ f.w) * 2 ^ f.lo + (r >>> (f.lo + f.w)) * 2 ^ (f.lo + f.w)

/-- The `w` bits of `r` from bit `lo`. -/
def bitsAt (r lo w : Nat) : Nat := (r >>> lo) % 2 ^ w

/-- Whether bit `i` of `r` is set. -/
def bitSet (r i : Nat) : Bool := r.testBit i

/-- `b` as a number. -/
def b2n (b : Bool) : Nat := if b then 1 else 0

/-- The number `v` as an `n`-byte little-endian list. -/
def leBytes : Nat → Nat → List Byte
  | 0, _ => []
  | n + 1, v => BitVec.ofNat 8 v :: leBytes n (v / 256)

/-- The little-endian number of a list of bytes. -/
def ofLeBytes : List Byte → Nat
  | [] => 0
  | b :: bs => b.toNat + 256 * ofLeBytes bs

/-- The bytes `off` to `off + n - 1` of a little-endian number. -/
def sliceBytes (v off n : Nat) : Nat := (v >>> (8 * off)) % 2 ^ (8 * n)

/-- The empty byte string. -/
def noBytes : Bytes := ⟨0, 0⟩

/-- Two byte strings one after the other. -/
def catBytes (a b : Bytes) : Bytes := ⟨a.len + b.len, a.val % 2 ^ (8 * a.len) + b.val * 2 ^ (8 * a.len)⟩

/-- A list of byte strings, joined in order. -/
def joinBytes : List Bytes → Bytes
  | [] => noBytes
  | b :: bs => catBytes b (joinBytes bs)

/-- A number written in `n` bytes. -/
def bytesOf (n v : Nat) : Bytes := ⟨n, v % 2 ^ (8 * n)⟩

/-- A signed number in `w` bits of two's complement, as the number that software sees. -/
def toUnsigned (w : Nat) (v : Int) : Nat := (v % ((2 ^ w : Nat) : Int)).toNat

/-- The signed reading of a `w`-bit number. -/
def toSigned (w : Nat) (v : Nat) : Int :=
  let u := v % 2 ^ w
  if u < 2 ^ (w - 1) then (u : Int) else (u : Int) - ((2 ^ w : Nat) : Int)

/-- Clamp an integer between two bounds. -/
def clampInt (lo hi x : Int) : Int := if x < lo then lo else if hi < x then hi else x

/-- The quotient rounded up. -/
def ceilDiv (a b : Nat) : Nat := (a + b - 1) / b

/-- The exclusive or of a list of numbers. -/
def xorAll (l : List Nat) : Nat := l.foldl Nat.xor 0

/-- The sum of a list of numbers. -/
def sumNat (l : List Nat) : Nat := l.foldr (· + ·) 0

/-- The number of set bits among the low `w`. -/
def popCount (w v : Nat) : Nat := (List.range w).foldr (fun i n => n + b2n (v.testBit i)) 0

/-- The indices of the set bits among the low `w`, lowest first. -/
def setBits (w v : Nat) : List Nat := (List.range w).filter (fun i => v.testBit i)

/-- Nanoseconds in the model's time unit of 2⁻¹⁶ ns (R21). -/
def ns (n : Nat) : Nat := n * 65536
/-- Microseconds in time units. -/
def usec (n : Nat) : Nat := n * 1000 * 65536
/-- Milliseconds in time units. -/
def msec (n : Nat) : Nat := n * 1000000 * 65536
/-- Seconds in time units. -/
def secs (n : Nat) : Nat := n * 1000000000 * 65536
/-- The media tick: 2,500,000 ns (R29). -/
def tickLen : Nat := 2500000 * 65536

end Sys2Proof.Machine
end

