-- ==== Sys2Proof/Machine/Layouts.lean ====
section
/-! DEFINITION. The record layouts of the spec: each field of each record, by its lowest bit and its width, as the table
that is named gives it. Reserved fields have no name. -/
namespace Sys2Proof.Machine

/-! Capture record (Table 2.7) -/
def CaptureRec.seconds : Fld := ⟨128, 64⟩
def CaptureRec.nanoseconds : Fld := ⟨96, 32⟩
def CaptureRec.fraction : Fld := ⟨80, 16⟩
def CaptureRec.generation : Fld := ⟨48, 32⟩
def CaptureRec.sequence : Fld := ⟨32, 16⟩
def CaptureRec.lostBefore : Fld := ⟨20, 1⟩
def CaptureRec.freerun : Fld := ⟨19, 1⟩
def CaptureRec.holdover : Fld := ⟨18, 1⟩
def CaptureRec.uncertain : Fld := ⟨17, 1⟩
def CaptureRec.source : Fld := ⟨4, 4⟩
def CaptureRec.edge : Fld := ⟨0, 4⟩

/-! Flow key (Table 3.7) -/
def FlowKey.srcAddress : Fld := ⟨320, 128⟩
def FlowKey.dstAddress : Fld := ⟨192, 128⟩
def FlowKey.dstMac : Fld := ⟨144, 48⟩
def FlowKey.etherType : Fld := ⟨128, 16⟩
def FlowKey.srcPort : Fld := ⟨112, 16⟩
def FlowKey.dstPort : Fld := ⟨96, 16⟩
def FlowKey.protocol : Fld := ⟨88, 8⟩
def FlowKey.ipVersion : Fld := ⟨80, 8⟩
def FlowKey.dscp : Fld := ⟨72, 8⟩
def FlowKey.ingressPort : Fld := ⟨64, 8⟩
def FlowKey.vlan : Fld := ⟨52, 12⟩

/-! Endpoint context (Table 4.1) -/
def Ep.keyFallbacks : Fld := ⟨3552, 32⟩
def Ep.sourceMismatch : Fld := ⟨3520, 32⟩
def Ep.replayDrops : Fld := ⟨3488, 32⟩
def Ep.authFailures : Fld := ⟨3456, 32⟩
def Ep.txOctets : Fld := ⟨3392, 64⟩
def Ep.txPackets : Fld := ⟨3328, 64⟩
def Ep.rxOctets : Fld := ⟨3264, 64⟩
def Ep.rxPackets : Fld := ⟨3200, 64⟩
def Ep.registerSequence : Fld := ⟨3168, 32⟩
def Ep.epochTag : Fld := ⟨3136, 32⟩
def Ep.memberIndex : Fld := ⟨3120, 8⟩
def Ep.group : Fld := ⟨3104, 16⟩
def Ep.boundChannel : Fld := ⟨3072, 32⟩
def Ep.rxKeyBlockPrevious : Fld := ⟨2304, 512⟩
def Ep.replayBitmap : Fld := ⟨2176, 128⟩
def Ep.txRoc : Fld := ⟨2144, 32⟩
def Ep.rxRoc : Fld := ⟨2112, 32⟩
def Ep.txKeyBlock : Fld := ⟨1600, 512⟩
def Ep.rxKeyBlock : Fld := ⟨1088, 512⟩
def Ep.mki : Fld := ⟨1056, 32⟩
def Ep.mkiLength : Fld := ⟨1032, 8⟩
def Ep.srtpSuite : Fld := ⟨1024, 8⟩
def Ep.txTimestamp : Fld := ⟨704, 32⟩
def Ep.rxHighestSeq : Fld := ⟨688, 16⟩
def Ep.txSequence : Fld := ⟨672, 16⟩
def Ep.codecPreferences : Fld := ⟨640, 32⟩
def Ep.codecOptions : Fld := ⟨624, 16⟩
def Ep.codecMode : Fld := ⟨616, 8⟩
def Ep.frameTicks : Fld := ⟨608, 8⟩
def Ep.txPayloadType : Fld := ⟨600, 8⟩
def Ep.rxPayloadType : Fld := ⟨592, 8⟩
def Ep.txCodec : Fld := ⟨584, 8⟩
def Ep.rxCodec : Fld := ⟨576, 8⟩
def Ep.txSsrc : Fld := ⟨544, 32⟩
def Ep.rxSsrc : Fld := ⟨512, 32⟩
def Ep.linePort : Fld := ⟨304, 8⟩
def Ep.nextHopMac : Fld := ⟨256, 48⟩
def Ep.egressPriority : Fld := ⟨248, 8⟩
def Ep.egressPort : Fld := ⟨240, 8⟩
def Ep.vlan : Fld := ⟨224, 16⟩
def Ep.localRtcpPort : Fld := ⟨208, 16⟩
def Ep.remoteRtcpPort : Fld := ⟨192, 16⟩
def Ep.localPort : Fld := ⟨176, 16⟩
def Ep.remotePort : Fld := ⟨160, 16⟩
def Ep.remoteAddress : Fld := ⟨32, 128⟩
def Ep.mediaAddressIndex : Fld := ⟨24, 8⟩
def Ep.flags : Fld := ⟨16, 8⟩
def Ep.kind : Fld := ⟨8, 8⟩
def Ep.state : Fld := ⟨0, 8⟩

/-! Setup record header (Table 4.2) -/
def SetupHdr.cookie : Fld := ⟨192, 64⟩
def SetupHdr.subject : Fld := ⟨128, 32⟩
def SetupHdr.targetTick : Fld := ⟨64, 64⟩
def SetupHdr.recordSequence : Fld := ⟨32, 32⟩
def SetupHdr.length : Fld := ⟨16, 16⟩
def SetupHdr.kind : Fld := ⟨0, 16⟩

/-! Channel body (Table 4.4) -/
def ChBody.hearthHint : Fld := ⟨192, 8⟩
def ChBody.evidenceStream : Fld := ⟨160, 32⟩
def ChBody.jitterInitial : Fld := ⟨144, 16⟩
def ChBody.jitterMax : Fld := ⟨128, 16⟩
def ChBody.jitterMin : Fld := ⟨112, 16⟩
def ChBody.treatmentProfile : Fld := ⟨104, 8⟩
def ChBody.flags : Fld := ⟨96, 8⟩
def ChBody.priority : Fld := ⟨88, 8⟩
def ChBody.memberIndex : Fld := ⟨80, 8⟩
def ChBody.group : Fld := ⟨64, 16⟩
def ChBody.outputEndpoint : Fld := ⟨32, 32⟩
def ChBody.endpoint : Fld := ⟨0, 32⟩

/-! Result record (Table 4.5) -/
def ResultRec.cookie : Fld := ⟨128, 64⟩
def ResultRec.appliedTick : Fld := ⟨64, 64⟩
def ResultRec.engine : Fld := ⟨56, 8⟩
def ResultRec.status : Fld := ⟨48, 8⟩
def ResultRec.kind : Fld := ⟨32, 16⟩
def ResultRec.sequence : Fld := ⟨0, 32⟩

/-! Tone event record (Table 5.5) -/
def ToneRec.startTick : Fld := ⟨128, 64⟩
def ToneRec.channel : Fld := ⟨96, 32⟩
def ToneRec.duration : Fld := ⟨80, 16⟩
def ToneRec.toneSet : Fld := ⟨72, 8⟩
def ToneRec.toneIndex : Fld := ⟨64, 8⟩
def ToneRec.event : Fld := ⟨56, 8⟩
def ToneRec.level : Fld := ⟨48, 8⟩
def ToneRec.truncated : Fld := ⟨41, 1⟩
def ToneRec.concealed : Fld := ⟨40, 1⟩
def ToneRec.sampleOffset : Fld := ⟨16, 16⟩
def ToneRec.sequence : Fld := ⟨0, 16⟩

/-! Mix contribution entry (Table 5.7) -/
def MixEntry.samples : Fld := ⟨128, 640⟩
def MixEntry.tick : Fld := ⟨64, 64⟩
def MixEntry.group : Fld := ⟨48, 16⟩
def MixEntry.memberIndex : Fld := ⟨40, 8⟩
def MixEntry.level : Fld := ⟨32, 8⟩
def MixEntry.concealed : Fld := ⟨1, 1⟩
def MixEntry.active : Fld := ⟨0, 1⟩

/-! Status register ST (Table 6.2) -/
def St.pin : Fld := ⟨48, 8⟩
def St.wmode : Fld := ⟨44, 4⟩
def St.bexpShift : Fld := ⟨32, 8⟩
def St.bexpArmed : Fld := ⟨31, 1⟩
def St.bexpZero : Fld := ⟨30, 1⟩
def St.bexpWidth : Fld := ⟨28, 2⟩
def St.aov : Fld := ⟨27, 1⟩
def St.sat : Fld := ⟨26, 1⟩
def St.psn : Fld := ⟨25, 1⟩
def St.prefused : Fld := ⟨24, 1⟩
def St.loop1 : Fld := ⟨15, 1⟩
def St.loop0 : Fld := ⟨14, 1⟩
def St.bank : Fld := ⟨11, 1⟩
def St.fpsn : Fld := ⟨4, 1⟩
def St.v : Fld := ⟨3, 1⟩
def St.c : Fld := ⟨2, 1⟩
def St.n : Fld := ⟨1, 1⟩
def St.z : Fld := ⟨0, 1⟩

/-! Cell overhead (Table 9.1) -/
def CellHdr.headerParity : Fld := ⟨124, 4⟩
def CellHdr.itemLength : Fld := ⟨64, 14⟩
def CellHdr.cellLength : Fld := ⟨56, 8⟩
def CellHdr.start : Fld := ⟨55, 1⟩
def CellHdr.end_ : Fld := ⟨54, 1⟩
def CellHdr.next : Fld := ⟨32, 20⟩
def CellHdr.wordPoison : Fld := ⟨16, 16⟩
def CellHdr.wordParity : Fld := ⟨0, 16⟩

/-! Saved context (Table 6.12) -/
def SavedCtx.copyState : Fld := ⟨3264, 32⟩
def SavedCtx.lmWindow : Fld := ⟨3232, 32⟩
def SavedCtx.loopState : Fld := ⟨3040, 192⟩
def SavedCtx.gPoison : Fld := ⟨3008, 32⟩
def SavedCtx.accPoison : Fld := ⟨2992, 8⟩
def SavedCtx.qs : Fld := ⟨2976, 16⟩
def SavedCtx.pc : Fld := ⟨2944, 32⟩
def SavedCtx.st : Fld := ⟨2880, 64⟩
def SavedCtx.accumulators : Fld := ⟨2560, 320⟩
def SavedCtx.cd0ToCd3 : Fld := ⟨2304, 256⟩
def SavedCtx.a0ToA7 : Fld := ⟨2048, 256⟩
def SavedCtx.g0ToG31 : Fld := ⟨0, 2048⟩

/-! Ordered-accumulate result slot (Table 7.7) -/
def OaSlot.sums : Fld := ⟨512, 1536⟩
def OaSlot.summed : Fld := ⟨256, 256⟩
def OaSlot.saturations : Fld := ⟨184, 8⟩
def OaSlot.missing : Fld := ⟨160, 16⟩
def OaSlot.count : Fld := ⟨144, 16⟩
def OaSlot.poison : Fld := ⟨132, 1⟩
def OaSlot.concealed : Fld := ⟨131, 1⟩
def OaSlot.missingFlag : Fld := ⟨130, 1⟩
def OaSlot.early : Fld := ⟨129, 1⟩
def OaSlot.closed : Fld := ⟨128, 1⟩
def OaSlot.round : Fld := ⟨64, 64⟩
def OaSlot.context : Fld := ⟨48, 16⟩

/-! Thread control block (Table 8.1) -/
def TcbRec.deadlineTick : Fld := ⟨448, 64⟩
def TcbRec.deadlineOffset : Fld := ⟨416, 32⟩
def TcbRec.entryPc : Fld := ⟨384, 32⟩
def TcbRec.channel : Fld := ⟨352, 32⟩
def TcbRec.cost : Fld := ⟨320, 32⟩
def TcbRec.lmWindow : Fld := ⟨304, 16⟩
def TcbRec.affinityMask : Fld := ⟨288, 16⟩
def TcbRec.homeEngine : Fld := ⟨280, 8⟩
def TcbRec.priority : Fld := ⟨272, 8⟩
def TcbRec.state : Fld := ⟨264, 8⟩
def TcbRec.releasesPending : Fld := ⟨256, 8⟩
def TcbRec.waitMask : Fld := ⟨248, 8⟩
def TcbRec.flags : Fld := ⟨240, 8⟩
def TcbRec.entriesHeld : Fld := ⟨224, 16⟩
def TcbRec.relativeDeadline : Fld := ⟨192, 32⟩
def TcbRec.deadlineMisses : Fld := ⟨160, 32⟩
def TcbRec.dispatches : Fld := ⟨128, 32⟩
def TcbRec.preemptions : Fld := ⟨96, 32⟩

/-! Trace record (Table 8.10) -/
def TraceRec.tick : Fld := ⟨192, 64⟩
def TraceRec.tickOffset : Fld := ⟨160, 32⟩
def TraceRec.thread : Fld := ⟨128, 32⟩
def TraceRec.channel : Fld := ⟨96, 32⟩
def TraceRec.engine : Fld := ⟨88, 8⟩
def TraceRec.decision : Fld := ⟨80, 8⟩
def TraceRec.priority : Fld := ⟨72, 8⟩
def TraceRec.entryKind : Fld := ⟨64, 8⟩
def TraceRec.detail : Fld := ⟨32, 32⟩
def TraceRec.sequence : Fld := ⟨16, 16⟩
def TraceRec.lostBefore : Fld := ⟨0, 1⟩

/-! Bank push header (Table 9.5) -/
def BankHdr.firstSlot : Fld := ⟨64, 64⟩
def BankHdr.epochTag : Fld := ⟨32, 32⟩
def BankHdr.sources : Fld := ⟨16, 16⟩
def BankHdr.slots : Fld := ⟨0, 4⟩

/-! Ledger frame header (Table 10.4) -/
def LedgerHdr.intervalTick : Fld := ⟨192, 64⟩
def LedgerHdr.deadlineSeconds : Fld := ⟨160, 32⟩
def LedgerHdr.deadlineNanoseconds : Fld := ⟨128, 32⟩
def LedgerHdr.generation : Fld := ⟨96, 32⟩
def LedgerHdr.entryCount : Fld := ⟨80, 16⟩
def LedgerHdr.decisionCount : Fld := ⟨64, 16⟩
def LedgerHdr.digestCount : Fld := ⟨48, 16⟩
def LedgerHdr.frameIndex : Fld := ⟨40, 8⟩
def LedgerHdr.lastFrame : Fld := ⟨39, 1⟩
def LedgerHdr.sender : Fld := ⟨32, 2⟩
def LedgerHdr.configDigest : Fld := ⟨0, 32⟩

/-! Ledger entry (Table 10.5) -/
def LedgerRec.seconds : Fld := ⟨224, 32⟩
def LedgerRec.nanoseconds : Fld := ⟨192, 32⟩
def LedgerRec.fraction : Fld := ⟨176, 16⟩
def LedgerRec.rtpSequence : Fld := ⟨160, 16⟩
def LedgerRec.rtpTimestamp : Fld := ⟨128, 32⟩
def LedgerRec.channel : Fld := ⟨96, 32⟩
def LedgerRec.generation : Fld := ⟨64, 32⟩
def LedgerRec.payloadDigest : Fld := ⟨32, 32⟩
def LedgerRec.payloadLength : Fld := ⟨16, 16⟩
def LedgerRec.marker : Fld := ⟨0, 1⟩

/-! Decision record (Table 10.6) -/
def DecisionRec.recordSequence : Fld := ⟨96, 32⟩
def DecisionRec.subject : Fld := ⟨64, 32⟩
def DecisionRec.status : Fld := ⟨56, 8⟩
def DecisionRec.engine : Fld := ⟨48, 8⟩
def DecisionRec.framePhase : Fld := ⟨40, 8⟩
def DecisionRec.cost : Fld := ⟨0, 32⟩

/-! Digest record (Table 10.7) -/
def DigestRec.frameTick : Fld := ⟨128, 64⟩
def DigestRec.outputDigest : Fld := ⟨64, 64⟩
def DigestRec.ledgerDigest : Fld := ⟨32, 32⟩
def DigestRec.localCause : Fld := ⟨24, 8⟩
def DigestRec.channel : Fld := ⟨0, 16⟩

/-! Block preamble (Table 11.1) -/
def Preamble.firstTick : Fld := ⟨192, 64⟩
def Preamble.stream : Fld := ⟨160, 32⟩
def Preamble.blockIndex : Fld := ⟨128, 32⟩
def Preamble.tickCount : Fld := ⟨112, 16⟩
def Preamble.slotSamples : Fld := ⟨104, 8⟩
def Preamble.lostBefore : Fld := ⟨100, 1⟩
def Preamble.capture : Fld := ⟨99, 1⟩
def Preamble.final : Fld := ⟨98, 1⟩
def Preamble.transform : Fld := ⟨97, 1⟩
def Preamble.restart : Fld := ⟨96, 1⟩
def Preamble.eventBytes : Fld := ⟨64, 32⟩
def Preamble.epochTag : Fld := ⟨32, 32⟩
def Preamble.slotsLost : Fld := ⟨16, 16⟩
def Preamble.eventsLost : Fld := ⟨0, 16⟩

/-! Slot-map byte (Table 11.2) -/
def SlotMap.discontinuity : Fld := ⟨4, 1⟩
def SlotMap.epochChange : Fld := ⟨3, 1⟩
def SlotMap.poison : Fld := ⟨2, 1⟩
def SlotMap.source : Fld := ⟨0, 2⟩

/-! Event record header (Table 11.3) -/
def EventHdr.tick : Fld := ⟨64, 64⟩
def EventHdr.kind : Fld := ⟨48, 16⟩
def EventHdr.bodyLength : Fld := ⟨32, 16⟩
def EventHdr.sampleOffset : Fld := ⟨16, 16⟩
def EventHdr.late : Fld := ⟨0, 1⟩

/-! Capture record header (Table 11.5) -/
def CaptureHdr.seconds : Fld := ⟨192, 64⟩
def CaptureHdr.nanoseconds : Fld := ⟨160, 32⟩
def CaptureHdr.fraction : Fld := ⟨144, 16⟩
def CaptureHdr.generation : Fld := ⟨112, 32⟩
def CaptureHdr.frameLength : Fld := ⟨96, 16⟩
def CaptureHdr.flowEntry : Fld := ⟨64, 32⟩
def CaptureHdr.ingressPort : Fld := ⟨56, 8⟩

/-! Saved compression context (Table 11.8) -/
def CompRec.window : Fld := ⟨8192, 262144⟩
def CompRec.codeLengths : Fld := ⟨4096, 1280⟩
def CompRec.stream : Fld := ⟨992, 32⟩
def CompRec.blockIndex : Fld := ⟨960, 32⟩
def CompRec.inputOffset : Fld := ⟨928, 32⟩
def CompRec.deflateBlockStart : Fld := ⟨896, 32⟩
def CompRec.outputBytes : Fld := ⟨864, 32⟩
def CompRec.windowFill : Fld := ⟨832, 32⟩
def CompRec.windowPosition : Fld := ⟨800, 32⟩
def CompRec.bitAccumulator : Fld := ⟨736, 64⟩
def CompRec.bitCount : Fld := ⟨728, 8⟩
def CompRec.pendingKind : Fld := ⟨720, 8⟩
def CompRec.pendingLength : Fld := ⟨704, 16⟩
def CompRec.pendingDistance : Fld := ⟨688, 16⟩
def CompRec.pendingLiteral : Fld := ⟨680, 8⟩
def CompRec.blockType : Fld := ⟨672, 8⟩
def CompRec.pass : Fld := ⟨664, 8⟩
def CompRec.effort : Fld := ⟨656, 8⟩
def CompRec.transform : Fld := ⟨648, 8⟩
def CompRec.jobState : Fld := ⟨640, 8⟩
def CompRec.transformX1 : Fld := ⟨624, 16⟩
def CompRec.transformX2 : Fld := ⟨608, 16⟩

/-! Check job descriptor (Table 12.2) -/
def CheckDesc.cookie : Fld := ⟨448, 64⟩
def CheckDesc.seed : Fld := ⟨384, 64⟩
def CheckDesc.tag : Fld := ⟨320, 64⟩
def CheckDesc.startAddress : Fld := ⟨256, 64⟩
def CheckDesc.length : Fld := ⟨224, 32⟩
def CheckDesc.resultQueue : Fld := ⟨192, 32⟩
def CheckDesc.tagMode : Fld := ⟨14, 2⟩
def CheckDesc.polynomial : Fld := ⟨12, 2⟩
def CheckDesc.lastF : Fld := ⟨1, 1⟩
def CheckDesc.first : Fld := ⟨0, 1⟩

/-! Check result record (Table 12.3) -/
def CheckRes.cookie : Fld := ⟨192, 64⟩
def CheckRes.value : Fld := ⟨128, 64⟩
def CheckRes.register : Fld := ⟨64, 64⟩
def CheckRes.bytesChecked : Fld := ⟨32, 32⟩
def CheckRes.channel : Fld := ⟨8, 8⟩
def CheckRes.status : Fld := ⟨0, 8⟩

/-! Store label (Table 12.6) -/
def Label.formatSeconds : Fld := ⟨320, 64⟩
def Label.slotsPerNamespace : Fld := ⟨288, 32⟩
def Label.lbaBytes : Fld := ⟨272, 16⟩
def Label.namespaceCount : Fld := ⟨264, 8⟩
def Label.namespaceIndex : Fld := ⟨256, 8⟩
def Label.ringIdentity : Fld := ⟨224, 32⟩
def Label.magic : Fld := ⟨64, 32⟩
def Label.labelCheck : Fld := ⟨0, 64⟩

/-! Block header (Table 12.7) -/
def BlockHdr.firstTick : Fld := ⟨448, 64⟩
def BlockHdr.stream : Fld := ⟨416, 32⟩
def BlockHdr.blockIndex : Fld := ⟨384, 32⟩
def BlockHdr.tickCount : Fld := ⟨368, 16⟩
def BlockHdr.transform : Fld := ⟨357, 1⟩
def BlockHdr.capture : Fld := ⟨356, 1⟩
def BlockHdr.restart : Fld := ⟨355, 1⟩
def BlockHdr.final : Fld := ⟨354, 1⟩
def BlockHdr.replaced : Fld := ⟨353, 1⟩
def BlockHdr.gap : Fld := ⟨352, 1⟩
def BlockHdr.epochTag : Fld := ⟨320, 32⟩
def BlockHdr.imageBytes : Fld := ⟨288, 32⟩
def BlockHdr.payloadBytes : Fld := ⟨256, 32⟩
def BlockHdr.recordBytes : Fld := ⟨224, 32⟩
def BlockHdr.groupStart : Fld := ⟨192, 32⟩
def BlockHdr.magic : Fld := ⟨32, 32⟩
def BlockHdr.blockCrc : Fld := ⟨0, 32⟩

/-! Segment header (Table 12.8) -/
def SegHdr.epochList : Fld := ⟨2048, 30720⟩
def SegHdr.deviceSerial : Fld := ⟨960, 64⟩
def SegHdr.twinRole : Fld := ⟨952, 8⟩
def SegHdr.closeReason : Fld := ⟨944, 8⟩
def SegHdr.epochCount : Fld := ⟨928, 16⟩
def SegHdr.epochOverflow : Fld := ⟨920, 1⟩
def SegHdr.gapBlocks : Fld := ⟨864, 32⟩
def SegHdr.usedBytes : Fld := ⟨832, 32⟩
def SegHdr.blockCount : Fld := ⟨800, 32⟩
def SegHdr.lastTick : Fld := ⟨704, 64⟩
def SegHdr.firstTick : Fld := ⟨640, 64⟩
def SegHdr.openSeconds : Fld := ⟨576, 64⟩
def SegHdr.openNanoseconds : Fld := ⟨544, 32⟩
def SegHdr.openGeneration : Fld := ⟨512, 32⟩
def SegHdr.closeSeconds : Fld := ⟨448, 64⟩
def SegHdr.closeNanoseconds : Fld := ⟨416, 32⟩
def SegHdr.closeGeneration : Fld := ⟨384, 32⟩
def SegHdr.previousHeaderCheck : Fld := ⟨320, 64⟩
def SegHdr.segmentNumber : Fld := ⟨256, 64⟩
def SegHdr.ringIdentity : Fld := ⟨224, 32⟩
def SegHdr.version : Fld := ⟨208, 16⟩
def SegHdr.magic : Fld := ⟨96, 32⟩
def SegHdr.headerCheck : Fld := ⟨0, 64⟩

/-! Monitor record (Table 13.5) -/
def MonRec.tick : Fld := ⟨192, 64⟩
def MonRec.tickOffset : Fld := ⟨160, 32⟩
def MonRec.generation : Fld := ⟨128, 32⟩
def MonRec.epochTag : Fld := ⟨96, 32⟩
def MonRec.sampleCount : Fld := ⟨80, 16⟩
def MonRec.unsettledFirst : Fld := ⟨72, 8⟩
def MonRec.unsettledCount : Fld := ⟨64, 8⟩
def MonRec.port : Fld := ⟨56, 8⟩
def MonRec.discontinuity : Fld := ⟨52, 1⟩
def MonRec.overload : Fld := ⟨51, 1⟩
def MonRec.pllUnlocked : Fld := ⟨50, 1⟩
def MonRec.mode : Fld := ⟨48, 2⟩
def MonRec.preset : Fld := ⟨40, 8⟩

/-! Gencel Object Access header (Table 14.8) -/
def GoaHdr.sequence : Fld := ⟨192, 64⟩
def GoaHdr.sessionId : Fld := ⟨160, 32⟩
def GoaHdr.keyId : Fld := ⟨128, 32⟩
def GoaHdr.status : Fld := ⟨96, 32⟩
def GoaHdr.payloadLength : Fld := ⟨80, 16⟩
def GoaHdr.opcode : Fld := ⟨72, 8⟩
def GoaHdr.staged : Fld := ⟨66, 1⟩
def GoaHdr.response : Fld := ⟨64, 1⟩
def GoaHdr.itemCount : Fld := ⟨48, 16⟩
def GoaHdr.version : Fld := ⟨16, 16⟩
def GoaHdr.magic : Fld := ⟨0, 16⟩

/-! Fault log entry (Table 15.5) -/
def LogRec.sequence : Fld := ⟨320, 64⟩
def LogRec.causeSequence : Fld := ⟨256, 64⟩
def LogRec.tick : Fld := ⟨192, 64⟩
def LogRec.tickOffset : Fld := ⟨160, 32⟩
def LogRec.lastTickDelta : Fld := ⟨128, 32⟩
def LogRec.detail : Fld := ⟨96, 32⟩
def LogRec.code : Fld := ⟨80, 16⟩
def LogRec.inst : Fld := ⟨56, 24⟩
def LogRec.coalesced : Fld := ⟨40, 16⟩
def LogRec.consequential : Fld := ⟨7, 1⟩
def LogRec.escalated : Fld := ⟨6, 1⟩
def LogRec.lostBefore : Fld := ⟨5, 1⟩
def LogRec.classF : Fld := ⟨0, 3⟩

/-! Firmware image header (Table 16.6) -/
def ImageHdr.signatureS : Fld := ⟨2432, 384⟩
def ImageHdr.signatureR : Fld := ⟨2048, 384⟩
def ImageHdr.publicKey : Fld := ⟨512, 768⟩
def ImageHdr.keyIndex : Fld := ⟨152, 8⟩
def ImageHdr.minStepping : Fld := ⟨144, 8⟩
def ImageHdr.rollbackIndex : Fld := ⟨128, 16⟩
def ImageHdr.imageLength : Fld := ⟨96, 32⟩
def ImageHdr.firmwareVersion : Fld := ⟨64, 32⟩
def ImageHdr.headerVersion : Fld := ⟨32, 16⟩
def ImageHdr.magic : Fld := ⟨0, 32⟩

end Sys2Proof.Machine
end

