-- ==== Sys2Proof/Machine/ObjectRow.lean ====
section
/-! DEFINITION. The form of one row of an object table of the dictionary (R279, R280): index, instances, subindexes,
type, access, when a write applies, default and range. -/
namespace Sys2Proof.Machine

/-- The data types of Table 14.3 that the object tables use; `int n` and `uint n` are n bytes wide. -/
inductive ObjType where
  | bool
  | int (bytes : Nat)
  | uint (bytes : Nat)
  | octets (n : Nat)
  | visible (n : Nat)
  | domain
  deriving DecidableEq, Repr

/-- The access types of Table 14.4. -/
inductive Access where
  | const | ro | wo | rw | rws
  deriving DecidableEq, Repr

/-- When a written value takes effect (R280). `epochR162` is an ordered-accumulate setting, which applies at its
epoch and, when the context is enabled, at the next round (R162). -/
inductive Applies where
  | none | onWrite | epoch | epochR162 | nextStart | nmtReset
  deriving DecidableEq, Repr

/-- Where an object's default comes from (R283). -/
inductive Dflt where
  | num (v : Int)                 -- fixed, the same for every instance
  | byInst (l : List Int)         -- fixed, by instance number
  | bySub (l : List Int)          -- fixed, by array element
  | calibrated (k : Nat)          -- calibration-derived, quantity k
  | fused (k : Nat)               -- fused or carried by the image, quantity k
  | portIngress | portEgress      -- Table 2.1, by the port's rate
  | depthLimit | classA           -- Table 9.2, by the queue's kind
  | twinRole | twinState          -- from STRAP_TWIN
  | rpdoCobId | tpdoCobId         -- CiA 301 predefined connection set, bit 31 set
  | jobQueue                      -- 196,864 + k
  | lineShell | portsPowered | linePreset | cicLength | cicOrder | firDecimation
  | outputRate | groupDelay | settlingCount
  | tier | strapWord | node | nodePlus (n : Nat) | canEnable
  | poweredHearths | poweredLanes | poweredDdr | poweredPcie | poweredCompressors | poweredChecks | poweredLines
  | thermalWarning | overTemperature
  deriving DecidableEq, Repr

/-- One row of an object table. `inst` instances stand `step` indexes apart (a `step` of 0 with more than one instance
is a window); `subs` consecutive subindexes hold the elements of an array. -/
structure Row where
  idx  : Nat
  inst : Nat
  step : Nat
  sub  : Nat
  subs : Nat
  ty   : ObjType
  acc  : Access
  applies : Applies
  dflt : Dflt
  lo   : Int
  hi   : Int
  deriving DecidableEq, Repr

/-- The number of bytes of a fixed-length type; 0 for a DOMAIN (R279). -/
def ObjType.size : ObjType → Nat
  | .bool => 1
  | .int n => n
  | .uint n => n
  | .octets n => n
  | .visible n => n
  | .domain => 0

/-- The number that the object's bytes hold for the value `v` (two's complement for a signed type). -/
def ObjType.encode (t : ObjType) (v : Int) : Nat := toUnsigned (8 * t.size) v

/-- The value that the object's bytes stand for. -/
def ObjType.decode (t : ObjType) (u : Nat) : Int :=
  match t with
  | .int n => toSigned (8 * n) u
  | t => ((u % 2 ^ (8 * t.size) : Nat) : Int)

/-- The key under which the value of element `j` of instance `i` of a row is held. -/
def Row.key (r : Row) (i j : Nat) : Nat := (i * 65536 + r.idx) * 256 + (r.sub + j)

end Sys2Proof.Machine
end

