-- ==== Sys2Proof/Machine/Objects.lean ====
section
/-! DEFINITION. Every row of the object tables of the spec (R284), one definition per object, named as the table names it;
the tables are 2.8, 3.10 to 3.12, 4.11, 5.8, 8.11 to 8.13, 9.8, 10.10, 11.10, 12.13, 13.6, 14.10, 14.11, 15.9 and 16.11. -/
namespace Sys2Proof.Machine

/-- 0x2200:01 NetworkTimeState (Table 2.8, R40). -/
def Obj.networkTimeState : Row := ⟨0x2200, 1, 0, 0x01, 1, .uint 1, .ro, .none, .num 0, 0, 255⟩
/-- 0x2200:02 SelectedDomain (Table 2.8, R40). -/
def Obj.selectedDomain : Row := ⟨0x2200, 1, 0, 0x02, 1, .uint 1, .ro, .none, .num 0, 0, 255⟩
/-- 0x2200:03 TimeGeneration (Table 2.8, R40). -/
def Obj.timeGeneration : Row := ⟨0x2200, 1, 0, 0x03, 1, .uint 4, .ro, .none, .num 0, 0, 4294967295⟩
/-- 0x2200:04 CurrentTick (Table 2.8, R40). -/
def Obj.currentTick : Row := ⟨0x2200, 1, 0, 0x04, 1, .uint 8, .ro, .none, .num 0, 0, 18446744073709551615⟩
/-- 0x2200:05 MediaOffset (Table 2.8, R40). -/
def Obj.mediaOffset : Row := ⟨0x2200, 1, 0, 0x05, 1, .int 8, .ro, .none, .num 0, (-9223372036854775808), 9223372036854775807⟩
/-- 0x2200:06 TickOffset (Table 2.8, R40). -/
def Obj.tickOffset : Row := ⟨0x2200, 1, 0, 0x06, 1, .int 8, .ro, .none, .num 0, (-9223372036854775808), 9223372036854775807⟩
/-- 0x2200:07 DiscontinuityCount (Table 2.8, R40). -/
def Obj.discontinuityCount : Row := ⟨0x2200, 1, 0, 0x07, 1, .uint 4, .ro, .none, .num 0, 0, 4294967295⟩
/-- 0x2200:08 FrequencyCorrection (Table 2.8, R40). -/
def Obj.frequencyCorrection : Row := ⟨0x2200, 1, 0, 0x08, 1, .int 4, .ro, .none, .num 0, (-2147483648), 2147483647⟩
/-- 0x2200:09 MediaState (Table 2.8, R40). -/
def Obj.mediaState : Row := ⟨0x2200, 1, 0, 0x09, 1, .uint 1, .ro, .none, .num 2, 0, 255⟩
/-- 0x2201:01 Enable (Table 2.8, R40). -/
def Obj.slotEnable : Row := ⟨0x2201, 2, 1, 0x01, 1, .bool, .rws, .epoch, .byInst [1, 0], 0, 1⟩
/-- 0x2201:02 Profile (Table 2.8, R40). -/
def Obj.slotProfile : Row := ⟨0x2201, 2, 1, 0x02, 1, .uint 1, .rws, .epoch, .num 2, 0, 3⟩
/-- 0x2201:03 DomainNumber (Table 2.8, R40). -/
def Obj.domainNumber : Row := ⟨0x2201, 2, 1, 0x03, 1, .uint 1, .rws, .epoch, .byInst [24, 25], 0, 255⟩
/-- 0x2201:04 PortMask (Table 2.8, R40). -/
def Obj.portMask : Row := ⟨0x2201, 2, 1, 0x04, 1, .uint 4, .rws, .epoch, .byInst [1, 2], 0, 4294967295⟩
/-- 0x2201:05 Transport (Table 2.8, R40). -/
def Obj.transport : Row := ⟨0x2201, 2, 1, 0x05, 1, .uint 1, .rws, .epoch, .num 1, 0, 3⟩
/-- 0x2201:06 LogSyncInterval (Table 2.8, R40). -/
def Obj.logSyncInterval : Row := ⟨0x2201, 2, 1, 0x06, 1, .int 1, .rws, .epoch, .num (-4), (-7), 0⟩
/-- 0x2201:07 LogDelayReqInterval (Table 2.8, R40). -/
def Obj.logDelayReqInterval : Row := ⟨0x2201, 2, 1, 0x07, 1, .int 1, .rws, .epoch, .num (-4), (-7), 0⟩
/-- 0x2201:08 VlanId (Table 2.8, R40). -/
def Obj.vlanId : Row := ⟨0x2201, 2, 1, 0x08, 1, .uint 2, .rws, .epoch, .num 0, 0, 4094⟩
/-- 0x2201:10 SlotState (Table 2.8, R40). -/
def Obj.slotState : Row := ⟨0x2201, 2, 1, 0x10, 1, .uint 1, .ro, .none, .num 0, 0, 255⟩
/-- 0x2201:11 SlotOffset (Table 2.8, R40). -/
def Obj.slotOffset : Row := ⟨0x2201, 2, 1, 0x11, 1, .int 8, .ro, .none, .num 0, (-9223372036854775808), 9223372036854775807⟩
/-- 0x2201:12 MeanPathDelay (Table 2.8, R40). -/
def Obj.meanPathDelay : Row := ⟨0x2201, 2, 1, 0x12, 1, .int 8, .ro, .none, .num 0, (-9223372036854775808), 9223372036854775807⟩
/-- 0x2201:13 GrandmasterIdentity (Table 2.8, R40). -/
def Obj.grandmasterIdentity : Row := ⟨0x2201, 2, 1, 0x13, 1, .uint 8, .ro, .none, .num 0, 0, 18446744073709551615⟩
/-- 0x2201:14 PendingCandidates (Table 2.8, R40). -/
def Obj.pendingCandidates : Row := ⟨0x2201, 2, 1, 0x14, 1, .uint 1, .ro, .none, .num 0, 0, 255⟩
/-- 0x2201:15 StepsAccepted (Table 2.8, R40). -/
def Obj.stepsAccepted : Row := ⟨0x2201, 2, 1, 0x15, 1, .uint 4, .ro, .none, .num 0, 0, 4294967295⟩
/-- 0x2201:16 StepsRejected (Table 2.8, R40). -/
def Obj.stepsRejected : Row := ⟨0x2201, 2, 1, 0x16, 1, .uint 4, .ro, .none, .num 0, 0, 4294967295⟩
/-- 0x2201:17 ReroutesDetected (Table 2.8, R40). -/
def Obj.reroutesDetected : Row := ⟨0x2201, 2, 1, 0x17, 1, .uint 4, .ro, .none, .num 0, 0, 4294967295⟩
/-- 0x2201:18 ManagementIgnored (Table 2.8, R40). -/
def Obj.managementIgnored : Row := ⟨0x2201, 2, 1, 0x18, 1, .uint 4, .ro, .none, .num 0, 0, 4294967295⟩
/-- 0x2203:01 PreferredDomain (Table 2.8, R40). -/
def Obj.preferredDomain : Row := ⟨0x2203, 1, 0, 0x01, 1, .uint 1, .rws, .epoch, .num 0, 0, 1⟩
/-- 0x2203:02 StepThreshold (Table 2.8, R40). -/
def Obj.stepThreshold : Row := ⟨0x2203, 1, 0, 0x02, 1, .uint 4, .rws, .epoch, .num 10000, 1000, 1000000⟩
/-- 0x2203:03 StepConfirmCount (Table 2.8, R40). -/
def Obj.stepConfirmCount : Row := ⟨0x2203, 1, 0, 0x03, 1, .uint 1, .const, .none, .num 8, 0, 255⟩
/-- 0x2203:04 StepConsistency (Table 2.8, R40). -/
def Obj.stepConsistency : Row := ⟨0x2203, 1, 0, 0x04, 1, .uint 4, .rws, .epoch, .num 1000, 100, 100000⟩
/-- 0x2203:05 DomainSlewLimit (Table 2.8, R40). -/
def Obj.domainSlewLimit : Row := ⟨0x2203, 1, 0, 0x05, 1, .uint 4, .const, .none, .num 10000, 0, 4294967295⟩
/-- 0x2203:06 SeamlessLimit (Table 2.8, R40). -/
def Obj.seamlessLimit : Row := ⟨0x2203, 1, 0, 0x06, 1, .uint 4, .const, .none, .num 1000, 0, 4294967295⟩
/-- 0x2203:07 RerouteThreshold (Table 2.8, R40). -/
def Obj.rerouteThreshold : Row := ⟨0x2203, 1, 0, 0x07, 1, .uint 4, .rws, .epoch, .num 250, 20, 100000⟩
/-- 0x2203:08 SuspectClearTime (Table 2.8, R40). -/
def Obj.suspectClearTime : Row := ⟨0x2203, 1, 0, 0x08, 1, .uint 4, .rws, .epoch, .num 60, 1, 3600⟩
/-- 0x2203:09 HoldoverAverage (Table 2.8, R40). -/
def Obj.holdoverAverage : Row := ⟨0x2203, 1, 0, 0x09, 1, .uint 4, .rws, .epoch, .num 300, 10, 86400⟩
/-- 0x2203:0A DomainSwitchCommand (Table 2.8, R40). -/
def Obj.domainSwitchCommand : Row := ⟨0x2203, 1, 0, 0x0A, 1, .uint 1, .wo, .onWrite, .num 0, 1, 7⟩
/-- 0x2204:01 MediaSlewRate (Table 2.8, R40). -/
def Obj.mediaSlewRate : Row := ⟨0x2204, 1, 0, 0x01, 1, .uint 4, .rws, .epoch, .num 200000, 1000, 200000⟩
/-- 0x2204:02 ReanchorThreshold (Table 2.8, R40). -/
def Obj.reanchorThreshold : Row := ⟨0x2204, 1, 0, 0x02, 1, .uint 4, .const, .none, .num 100000000, 0, 4294967295⟩
/-- 0x2205:01 Ref10mEnable (Table 2.8, R40). -/
def Obj.ref10mEnable : Row := ⟨0x2205, 1, 0, 0x01, 1, .bool, .rws, .epoch, .num 0, 0, 1⟩
/-- 0x2205:02 HoldDacCode (Table 2.8, R40). -/
def Obj.holdDacCode : Row := ⟨0x2205, 1, 0, 0x02, 1, .uint 4, .ro, .none, .calibrated 0, 0, 4294967295⟩
/-- 0x2205:03 HoldDacSlope (Table 2.8, R40). -/
def Obj.holdDacSlope : Row := ⟨0x2205, 1, 0, 0x03, 1, .int 4, .rws, .epoch, .calibrated 1, (-2147483648), 2147483647⟩
/-- 0x2205:04 PpsOutWidth (Table 2.8, R40). -/
def Obj.ppsOutWidth : Row := ⟨0x2205, 1, 0, 0x04, 1, .uint 4, .rws, .epoch, .num 100000000, 100, 900000000⟩
/-- 0x2205:05 PpsOutMode (Table 2.8, R40). -/
def Obj.ppsOutMode : Row := ⟨0x2205, 1, 0, 0x05, 1, .uint 1, .rws, .epoch, .num 1, 0, 2⟩
/-- 0x2210:01 Mode (Table 2.8, R40). -/
def Obj.trigMode : Row := ⟨0x2210, 16, 1, 0x01, 1, .uint 1, .rws, .epoch, .num 0, 0, 2⟩
/-- 0x2210:02 TimeBase (Table 2.8, R40). -/
def Obj.trigTimeBase : Row := ⟨0x2210, 16, 1, 0x02, 1, .uint 1, .rws, .epoch, .num 0, 0, 1⟩
/-- 0x2210:03 StartSeconds (Table 2.8, R40). -/
def Obj.trigStartSeconds : Row := ⟨0x2210, 16, 1, 0x03, 1, .uint 8, .rws, .epoch, .num 0, 0, 18446744073709551615⟩
/-- 0x2210:04 StartNanoseconds (Table 2.8, R40). Values above 999,999,999 are refused (DESIGN CHOICE, log entry 77: the table gives no
range). -/
def Obj.trigStartNanoseconds : Row := ⟨0x2210, 16, 1, 0x04, 1, .uint 4, .rws, .epoch, .num 0, 0, 999999999⟩
/-- 0x2210:05 Period (Table 2.8, R40). -/
def Obj.trigPeriod : Row := ⟨0x2210, 16, 1, 0x05, 1, .uint 8, .rws, .epoch, .num 1000000000, 1000, 1000000000000⟩
/-- 0x2210:06 Width (Table 2.8, R40). -/
def Obj.trigWidth : Row := ⟨0x2210, 16, 1, 0x06, 1, .uint 4, .rws, .epoch, .num 1000, 8, 999999999992⟩
/-- 0x2210:07 Target (Table 2.8, R40). -/
def Obj.trigTarget : Row := ⟨0x2210, 16, 1, 0x07, 1, .uint 1, .rws, .epoch, .num 0, 0, 7⟩
/-- 0x2210:08 OutPin (Table 2.8, R40). -/
def Obj.trigOutPin : Row := ⟨0x2210, 16, 1, 0x08, 1, .uint 1, .rws, .epoch, .byInst [0, 1, 2, 3, 4, 5, 6, 7, 0, 1, 2, 3, 4, 5, 6, 7], 0, 7⟩
/-- 0x2210:09 Polarity (Table 2.8, R40). -/
def Obj.trigPolarity : Row := ⟨0x2210, 16, 1, 0x09, 1, .uint 1, .rws, .epoch, .num 0, 0, 1⟩
/-- 0x2210:0A ThreadNumber (Table 2.8, R40). -/
def Obj.trigThreadNumber : Row := ⟨0x2210, 16, 1, 0x0A, 1, .uint 4, .rws, .epoch, .num 0, 0, 131071⟩
/-- 0x2210:0B ConverterMask (Table 2.8, R40). -/
def Obj.trigConverterMask : Row := ⟨0x2210, 16, 1, 0x0B, 1, .uint 8, .rws, .epoch, .num 0, 0, 18446744073709551615⟩
/-- 0x2210:0C Fired (Table 2.8, R40). -/
def Obj.trigFired : Row := ⟨0x2210, 16, 1, 0x0C, 1, .uint 4, .ro, .none, .num 0, 0, 4294967295⟩
/-- 0x2210:0D Late (Table 2.8, R40). -/
def Obj.trigLate : Row := ⟨0x2210, 16, 1, 0x0D, 1, .uint 4, .ro, .none, .num 0, 0, 4294967295⟩
/-- 0x2210:0E Skipped (Table 2.8, R40). -/
def Obj.trigSkipped : Row := ⟨0x2210, 16, 1, 0x0E, 1, .uint 4, .ro, .none, .num 0, 0, 4294967295⟩
/-- 0x2210:0F UnitState (Table 2.8, R40). -/
def Obj.trigUnitState : Row := ⟨0x2210, 16, 1, 0x0F, 1, .uint 1, .ro, .none, .num 0, 0, 255⟩
/-- 0x2220:01 to 0x2220:20 PortIngressLatency (Table 2.8, R40). -/
def Obj.portIngressLatency : Row := ⟨0x2220, 1, 0, 0x01, 32, .int 4, .rws, .epoch, .portIngress, (-2147483648), 2147483647⟩
/-- 0x2221:01 to 0x2221:20 PortEgressLatency (Table 2.8, R40). -/
def Obj.portEgressLatency : Row := ⟨0x2221, 1, 0, 0x01, 32, .int 4, .rws, .epoch, .portEgress, (-2147483648), 2147483647⟩
/-- 0x2222:01 to 0x2222:20 PortAsymmetry (Table 2.8, R40). -/
def Obj.portAsymmetry : Row := ⟨0x2222, 1, 0, 0x01, 32, .int 4, .rws, .epoch, .num 0, (-2147483648), 2147483647⟩
/-- 0x2223:01 to 0x2223:08 TimeOutLatency (Table 2.8, R40). -/
def Obj.timeOutLatency : Row := ⟨0x2223, 1, 0, 0x01, 8, .int 4, .rws, .epoch, .num 2400, (-2147483648), 2147483647⟩
/-- 0x2224:01 to 0x2224:05 TimeInLatency (Table 2.8, R40). -/
def Obj.timeInLatency : Row := ⟨0x2224, 1, 0, 0x01, 5, .int 4, .rws, .epoch, .num 1800, (-2147483648), 2147483647⟩
/-- 0x2230:01 Edge (Table 2.8, R40). -/
def Obj.capEdge : Row := ⟨0x2230, 5, 1, 0x01, 1, .uint 1, .rws, .epoch, .byInst [0, 0, 0, 0, 1], 0, 3⟩
/-- 0x2230:02 FifoDepth (Table 2.8, R40). -/
def Obj.fifoDepth : Row := ⟨0x2230, 5, 1, 0x02, 1, .uint 1, .const, .none, .num 64, 0, 255⟩
/-- 0x2230:03 Captured (Table 2.8, R40). -/
def Obj.capCaptured : Row := ⟨0x2230, 5, 1, 0x03, 1, .uint 4, .ro, .none, .num 0, 0, 4294967295⟩
/-- 0x2230:04 Lost (Table 2.8, R40). -/
def Obj.capLost : Row := ⟨0x2230, 5, 1, 0x04, 1, .uint 4, .ro, .none, .num 0, 0, 4294967295⟩
/-- 0x2230:05 Held (Table 2.8, R40). -/
def Obj.capHeld : Row := ⟨0x2230, 5, 1, 0x05, 1, .uint 1, .ro, .none, .num 0, 0, 255⟩
/-- 0x2230:06 Records (Table 2.8, R40). -/
def Obj.capRecords : Row := ⟨0x2230, 5, 1, 0x06, 1, .domain, .ro, .none, .num 0, 0, 0⟩
/-- 0x2100:01 to 0x2100:08 LaneGroupMode (Table 3.11, R63). -/
def Obj.laneGroupMode : Row := ⟨0x2100, 1, 0, 0x01, 8, .uint 1, .rw, .onWrite, .num 4, 0, 5⟩
/-- 0x2101:01 VoicePriorityMask (Table 3.11, R63). -/
def Obj.voicePriorityMask : Row := ⟨0x2101, 1, 0, 0x01, 1, .uint 1, .rws, .epoch, .num 96, 0, 255⟩
/-- 0x2101:02 FlowEntries (Table 3.11, R63). -/
def Obj.flowEntries : Row := ⟨0x2101, 1, 0, 0x02, 1, .uint 4, .ro, .none, .num 0, 0, 4294967295⟩
/-- 0x2101:03 FlowStaged (Table 3.11, R63). -/
def Obj.flowStaged : Row := ⟨0x2101, 1, 0, 0x03, 1, .uint 4, .ro, .none, .num 0, 0, 4294967295⟩
/-- 0x2101:04 FlowPlacementLimit (Table 3.11, R63). -/
def Obj.flowPlacementLimit : Row := ⟨0x2101, 1, 0, 0x04, 1, .uint 4, .const, .none, .num 245760, 0, 4294967295⟩
/-- 0x2101:05 FlowCapacity (Table 3.11, R63). -/
def Obj.flowCapacity : Row := ⟨0x2101, 1, 0, 0x05, 1, .uint 4, .const, .none, .num 262144, 0, 4294967295⟩
/-- 0x2101:06 FlowMissFrames (Table 3.11, R63). -/
def Obj.flowMissFrames : Row := ⟨0x2101, 1, 0, 0x06, 1, .uint 8, .ro, .none, .num 0, 0, 18446744073709551615⟩
/-- 0x2101:07 MediaMiss (Table 3.11, R63). -/
def Obj.mediaMiss : Row := ⟨0x2101, 1, 0, 0x07, 1, .uint 8, .ro, .none, .num 0, 0, 18446744073709551615⟩
/-- 0x2101:08 DamperIgnoreTime (Table 3.11, R63). -/
def Obj.damperIgnoreTime : Row := ⟨0x2101, 1, 0, 0x08, 1, .uint 4, .rws, .epoch, .num 100, 10, 10000⟩
/-- 0x2102:01 CipherCapacity (Table 3.11, R63). -/
def Obj.cipherCapacity : Row := ⟨0x2102, 1, 0, 0x01, 1, .uint 4, .const, .none, .num 100000, 0, 4294967295⟩
/-- 0x2102:02 CipherLoad (Table 3.11, R63). -/
def Obj.cipherLoad : Row := ⟨0x2102, 1, 0, 0x02, 1, .uint 4, .ro, .none, .num 0, 0, 4294967295⟩
/-- 0x2102:03 CipherOverflow (Table 3.11, R63). -/
def Obj.cipherOverflow : Row := ⟨0x2102, 1, 0, 0x03, 1, .uint 8, .ro, .none, .num 0, 0, 18446744073709551615⟩
/-- 0x2102:04 AuthFailures (Table 3.11, R63). -/
def Obj.authFailures : Row := ⟨0x2102, 1, 0, 0x04, 1, .uint 8, .ro, .none, .num 0, 0, 18446744073709551615⟩
/-- 0x2102:05 ReplayDrops (Table 3.11, R63). -/
def Obj.replayDrops : Row := ⟨0x2102, 1, 0, 0x05, 1, .uint 8, .ro, .none, .num 0, 0, 18446744073709551615⟩
/-- 0x2102:06 ReplayWindow (Table 3.11, R63). -/
def Obj.replayWindow : Row := ⟨0x2102, 1, 0, 0x06, 1, .uint 2, .const, .none, .num 128, 0, 65535⟩
/-- 0x2103:01 LifeCheckInterval (Table 3.11, R63). -/
def Obj.lifeCheckInterval : Row := ⟨0x2103, 1, 0, 0x01, 1, .uint 4, .rws, .epoch, .num 2000, 0, 4294967295⟩
/-- 0x2103:02 EntryForgetTime (Table 3.11, R63). -/
def Obj.entryForgetTime : Row := ⟨0x2103, 1, 0, 0x02, 1, .uint 4, .rws, .epoch, .num 400, 0, 4294967295⟩
/-- 0x2103:03 NodeForgetTime (Table 3.11, R63). -/
def Obj.nodeForgetTime : Row := ⟨0x2103, 1, 0, 0x03, 1, .uint 4, .rws, .epoch, .num 60000, 0, 4294967295⟩
/-- 0x2103:04 NodeTableSize (Table 3.11, R63). -/
def Obj.nodeTableSize : Row := ⟨0x2103, 1, 0, 0x04, 1, .uint 2, .const, .none, .num 4096, 0, 65535⟩
/-- 0x2103:05 NodesKnown (Table 3.11, R63). -/
def Obj.nodesKnown : Row := ⟨0x2103, 1, 0, 0x05, 1, .uint 2, .ro, .none, .num 0, 0, 65535⟩
/-- 0x2103:06 DuplicatesDiscarded (Table 3.11, R63). -/
def Obj.duplicatesDiscarded : Row := ⟨0x2103, 1, 0, 0x06, 1, .uint 8, .ro, .none, .num 0, 0, 18446744073709551615⟩
/-- 0x2103:07 NodeTableFull (Table 3.11, R63). -/
def Obj.nodeTableFull : Row := ⟨0x2103, 1, 0, 0x07, 1, .uint 8, .ro, .none, .num 0, 0, 18446744073709551615⟩
/-- 0x2104:01 to 0x2104:10 PrpPair (Table 3.11, R63). -/
def Obj.prpPair : Row := ⟨0x2104, 1, 0, 0x01, 16, .uint 2, .rws, .epoch, .num 65535, 0, 65535⟩
/-- 0x2105:01 to 0x2105:10 MediaAddress (Table 3.11, R63). -/
def Obj.mediaAddress : Row := ⟨0x2105, 1, 0, 0x01, 16, .octets 16, .rws, .epoch, .num 0, 0, 340282366920938463463374607431768211455⟩
/-- 0x2110:01 FieldMask (Table 3.11, R63). -/
def Obj.fieldMask : Row := ⟨0x2110, 16, 1, 0x01, 1, .uint 4, .rws, .epoch, .num 0, 0, 4294967295⟩
/-- 0x2110:02 SrcPrefix (Table 3.11, R63). -/
def Obj.srcPrefix : Row := ⟨0x2110, 16, 1, 0x02, 1, .uint 1, .rws, .epoch, .num 128, 0, 128⟩
/-- 0x2110:03 DstPrefix (Table 3.11, R63). -/
def Obj.dstPrefix : Row := ⟨0x2110, 16, 1, 0x03, 1, .uint 1, .rws, .epoch, .num 128, 0, 128⟩
/-- 0x2110:04 Enable (Table 3.11, R63). -/
def Obj.profEnable : Row := ⟨0x2110, 16, 1, 0x04, 1, .bool, .rws, .epoch, .num 0, 0, 1⟩
/-- 0x2140:01 FlowSelect (Table 3.11, R63). -/
def Obj.flowSelect : Row := ⟨0x2140, 262144, 0, 0x01, 1, .uint 4, .rw, .onWrite, .num 0, 0, 262143⟩
/-- 0x2140:02 Profile (Table 3.11, R63). -/
def Obj.flowProfile : Row := ⟨0x2140, 262144, 0, 0x02, 1, .uint 1, .rws, .epoch, .num 0, 0, 15⟩
/-- 0x2140:03 FlowKey (Table 3.11, R63). -/
def Obj.flowKey : Row := ⟨0x2140, 262144, 0, 0x03, 1, .octets 56, .rws, .epoch, .num 0, 0, 726838724295606890549323807888004534353641360687318060281490199180639288113397923326191050713763565560762521606266177933534601628614655⟩
/-- 0x2140:04 Action (Table 3.11, R63). -/
def Obj.flowAction : Row := ⟨0x2140, 262144, 0, 0x04, 1, .uint 1, .rws, .epoch, .num 0, 0, 255⟩
/-- 0x2140:05 EgressPort (Table 3.11, R63). -/
def Obj.flowEgressPort : Row := ⟨0x2140, 262144, 0, 0x05, 1, .uint 1, .rws, .epoch, .num 0, 0, 31⟩
/-- 0x2140:06 EgressPriority (Table 3.11, R63). -/
def Obj.flowEgressPriority : Row := ⟨0x2140, 262144, 0, 0x06, 1, .uint 1, .rws, .epoch, .num 0, 0, 7⟩
/-- 0x2140:07 Ordered (Table 3.11, R63). -/
def Obj.flowOrdered : Row := ⟨0x2140, 262144, 0, 0x07, 1, .bool, .rws, .epoch, .num 0, 0, 1⟩
/-- 0x2140:08 Edit (Table 3.11, R63). -/
def Obj.flowEdit : Row := ⟨0x2140, 262144, 0, 0x08, 1, .uint 1, .rws, .epoch, .num 0, 0, 255⟩
/-- 0x2140:09 EditData (Table 3.11, R63). -/
def Obj.editData : Row := ⟨0x2140, 262144, 0, 0x09, 1, .octets 16, .rws, .epoch, .num 0, 0, 340282366920938463463374607431768211455⟩
/-- 0x2140:0A Capture (Table 3.11, R63). -/
def Obj.flowCapture : Row := ⟨0x2140, 262144, 0, 0x0A, 1, .bool, .rws, .epoch, .num 0, 0, 1⟩
/-- 0x2140:0B CaptureStream (Table 3.11, R63). -/
def Obj.captureStream : Row := ⟨0x2140, 262144, 0, 0x0B, 1, .uint 4, .rws, .epoch, .num 0, 0, 65535⟩
/-- 0x2140:0C TargetQueue (Table 3.11, R63). -/
def Obj.targetQueue : Row := ⟨0x2140, 262144, 0, 0x0C, 1, .uint 4, .rws, .epoch, .num 0, 0, 4294967295⟩
/-- 0x2140:0D Valid (Table 3.11, R63). -/
def Obj.flowValid : Row := ⟨0x2140, 262144, 0, 0x0D, 1, .bool, .rws, .epoch, .num 0, 0, 1⟩
/-- 0x2140:0E EntryState (Table 3.11, R63). -/
def Obj.flowEntryState : Row := ⟨0x2140, 262144, 0, 0x0E, 1, .uint 1, .ro, .none, .num 0, 0, 255⟩
/-- 0x2140:0F Frames (Table 3.11, R63). -/
def Obj.flowFrames : Row := ⟨0x2140, 262144, 0, 0x0F, 1, .uint 8, .ro, .none, .num 0, 0, 18446744073709551615⟩
/-- 0x2140:10 Octets (Table 3.11, R63). -/
def Obj.flowOctets : Row := ⟨0x2140, 262144, 0, 0x10, 1, .uint 8, .ro, .none, .num 0, 0, 18446744073709551615⟩
/-- 0x2140:11 CaptureGaps (Table 3.11, R63). -/
def Obj.captureGaps : Row := ⟨0x2140, 262144, 0, 0x11, 1, .uint 4, .ro, .none, .num 0, 0, 4294967295⟩
/-- 0x2150:01 FlueStopSelect (Table 3.11, R63). -/
def Obj.flueStopSelect : Row := ⟨0x2150, 432, 0, 0x01, 1, .uint 1, .rw, .onWrite, .num 0, 0, 23⟩
/-- 0x2150:02 LinkSelect (Table 3.11, R63). -/
def Obj.linkSelect : Row := ⟨0x2150, 432, 0, 0x02, 1, .uint 1, .rw, .onWrite, .num 0, 0, 5⟩
/-- 0x2150:03 ChannelSelect (Table 3.11, R63). -/
def Obj.flueChannelSelect : Row := ⟨0x2150, 432, 0, 0x03, 1, .uint 1, .rw, .onWrite, .num 0, 0, 2⟩
/-- 0x2150:04 BufferDepth (Table 3.11, R63). -/
def Obj.flueBufferDepth : Row := ⟨0x2150, 432, 0, 0x04, 1, .uint 1, .const, .none, .num 16, 0, 255⟩
/-- 0x2150:05 CreditsHeld (Table 3.11, R63). -/
def Obj.creditsHeld : Row := ⟨0x2150, 432, 0, 0x05, 1, .uint 1, .ro, .none, .num 16, 0, 255⟩
/-- 0x2150:06 InFlight (Table 3.11, R63). -/
def Obj.inFlight : Row := ⟨0x2150, 432, 0, 0x06, 1, .uint 1, .ro, .none, .num 0, 0, 255⟩
/-- 0x2150:07 Occupied (Table 3.11, R63). -/
def Obj.occupied : Row := ⟨0x2150, 432, 0, 0x07, 1, .uint 1, .ro, .none, .num 0, 0, 255⟩
/-- 0x2150:08 Returning (Table 3.11, R63). -/
def Obj.returning : Row := ⟨0x2150, 432, 0, 0x08, 1, .uint 1, .ro, .none, .num 0, 0, 255⟩
/-- 0x2150:09 AuditMismatches (Table 3.11, R63). -/
def Obj.flueAuditMismatches : Row := ⟨0x2150, 432, 0, 0x09, 1, .uint 4, .ro, .none, .num 0, 0, 4294967295⟩
/-- base+0x00:01 AdminUp (Table 3.12, R64). -/
def Obj.adminUp : Row := ⟨0x3000, 32, 64, 0x01, 1, .bool, .rw, .onWrite, .num 0, 0, 1⟩
/-- base+0x00:02 PortRate (Table 3.12, R64). -/
def Obj.portRate : Row := ⟨0x3000, 32, 64, 0x02, 1, .uint 1, .rw, .onWrite, .num 0, 0, 3⟩
/-- base+0x00:03 FecMode (Table 3.12, R64). -/
def Obj.fecMode : Row := ⟨0x3000, 32, 64, 0x03, 1, .uint 1, .rw, .onWrite, .num 0, 0, 2⟩
/-- base+0x00:04 AutoNeg (Table 3.12, R64). -/
def Obj.autoNeg : Row := ⟨0x3000, 32, 64, 0x04, 1, .bool, .rw, .onWrite, .num 1, 0, 1⟩
/-- base+0x00:05 MaxFrameSize (Table 3.12, R64). -/
def Obj.maxFrameSize : Row := ⟨0x3000, 32, 64, 0x05, 1, .uint 2, .rws, .epoch, .num 1518, 1518, 9216⟩
/-- base+0x00:06 DeliverBad (Table 3.12, R64). -/
def Obj.deliverBad : Row := ⟨0x3000, 32, 64, 0x06, 1, .bool, .rws, .epoch, .num 0, 0, 1⟩
/-- base+0x00:07 DiagnosticQueue (Table 3.12, R64). -/
def Obj.diagnosticQueue : Row := ⟨0x3000, 32, 64, 0x07, 1, .uint 4, .rws, .epoch, .num 4294967295, 0, 4294967295⟩
/-- base+0x00:08 ControlQueue (Table 3.12, R64). -/
def Obj.controlQueue : Row := ⟨0x3000, 32, 64, 0x08, 1, .uint 4, .rws, .epoch, .num 4294967295, 0, 4294967295⟩
/-- base+0x00:09 MacAddress (Table 3.12, R64). -/
def Obj.macAddress : Row := ⟨0x3000, 32, 64, 0x09, 1, .octets 6, .rws, .epoch, .num 0, 0, 281474976710655⟩
/-- base+0x00:0A MissAction (Table 3.12, R64). -/
def Obj.missAction : Row := ⟨0x3000, 32, 64, 0x0A, 1, .uint 1, .rws, .epoch, .num 0, 0, 2⟩
/-- base+0x00:0B MissPort (Table 3.12, R64). -/
def Obj.missPort : Row := ⟨0x3000, 32, 64, 0x0B, 1, .uint 1, .rws, .epoch, .num 0, 0, 31⟩
/-- base+0x01:01 LinkUp (Table 3.12, R64). -/
def Obj.portLinkUp : Row := ⟨0x3001, 32, 64, 0x01, 1, .bool, .ro, .none, .num 0, 0, 1⟩
/-- base+0x01:02 ActualRate (Table 3.12, R64). -/
def Obj.actualRate : Row := ⟨0x3001, 32, 64, 0x02, 1, .uint 1, .ro, .none, .num 0, 0, 255⟩
/-- base+0x01:03 FecCorrected (Table 3.12, R64). -/
def Obj.fecCorrected : Row := ⟨0x3001, 32, 64, 0x03, 1, .uint 8, .ro, .none, .num 0, 0, 18446744073709551615⟩
/-- base+0x01:04 FecUncorrected (Table 3.12, R64). -/
def Obj.fecUncorrected : Row := ⟨0x3001, 32, 64, 0x04, 1, .uint 8, .ro, .none, .num 0, 0, 18446744073709551615⟩
/-- base+0x01:05 LinkDownCount (Table 3.12, R64). -/
def Obj.linkDownCount : Row := ⟨0x3001, 32, 64, 0x05, 1, .uint 4, .ro, .none, .num 0, 0, 4294967295⟩
/-- base+0x02:01 to :0D RxCounters (Table 3.12, R64). -/
def Obj.rxCounters : Row := ⟨0x3002, 32, 64, 0x01, 13, .uint 8, .ro, .none, .num 0, 0, 18446744073709551615⟩
/-- base+0x03:01 to :05 TxCounters (Table 3.12, R64). -/
def Obj.txCounters : Row := ⟨0x3003, 32, 64, 0x01, 5, .uint 8, .ro, .none, .num 0, 0, 18446744073709551615⟩
/-- base+0x04:01 PauseMode (Table 3.12, R64). -/
def Obj.pauseMode : Row := ⟨0x3004, 32, 64, 0x01, 1, .uint 1, .rws, .epoch, .num 2, 0, 2⟩
/-- base+0x04:02 PauseTxVoice (Table 3.12, R64). -/
def Obj.pauseTxVoice : Row := ⟨0x3004, 32, 64, 0x02, 1, .bool, .rws, .epoch, .num 0, 0, 1⟩
/-- base+0x04:03 PauseTxQuanta (Table 3.12, R64). -/
def Obj.pauseTxQuanta : Row := ⟨0x3004, 32, 64, 0x03, 1, .uint 2, .rws, .epoch, .num 65535, 0, 65535⟩
/-- base+0x04:04 XoffCells (Table 3.12, R64). -/
def Obj.xoffCells : Row := ⟨0x3004, 32, 64, 0x04, 1, .uint 4, .rws, .epoch, .num 2048, 0, 4294967295⟩
/-- base+0x04:05 XonCells (Table 3.12, R64). -/
def Obj.xonCells : Row := ⟨0x3004, 32, 64, 0x05, 1, .uint 4, .rws, .epoch, .num 1024, 0, 4294967295⟩
/-- base+0x05:01 to :08 PauseWatchdogLimit (Table 3.12, R64). -/
def Obj.pauseWatchdogLimit : Row := ⟨0x3005, 32, 64, 0x01, 8, .uint 4, .rws, .epoch, .bySub [200, 200, 200, 200, 200, 50, 50, 200], 1, 10000⟩
/-- base+0x06:01 to :08 DamperAgeLimit (Table 3.12, R64). -/
def Obj.damperAgeLimit : Row := ⟨0x3006, 32, 64, 0x01, 8, .uint 4, .rws, .epoch, .num 0, 0, 4294967295⟩
/-- base+0x07:01 to :08 DamperBreaks (Table 3.12, R64). -/
def Obj.damperBreaks : Row := ⟨0x3007, 32, 64, 0x01, 8, .uint 4, .ro, .none, .num 0, 0, 4294967295⟩
/-- base+0x08:01 to :08 DamperDiscards (Table 3.12, R64). -/
def Obj.damperDiscards : Row := ⟨0x3008, 32, 64, 0x01, 8, .uint 8, .ro, .none, .num 0, 0, 18446744073709551615⟩
/-- base+0x09:01 to :08 PauseIgnored (Table 3.12, R64). -/
def Obj.pauseIgnored : Row := ⟨0x3009, 32, 64, 0x01, 8, .uint 8, .ro, .none, .num 0, 0, 18446744073709551615⟩
/-- base+0x0A:01 to :08 RxPfcFrames (Table 3.12, R64). -/
def Obj.rxPfcFrames : Row := ⟨0x300A, 32, 64, 0x01, 8, .uint 8, .ro, .none, .num 0, 0, 18446744073709551615⟩
/-- base+0x0B:01 StrictMask (Table 3.12, R64). -/
def Obj.strictMask : Row := ⟨0x300B, 32, 64, 0x01, 1, .uint 1, .rws, .epoch, .num 224, 0, 255⟩
/-- base+0x0B:02 to :09 DrrWeight (Table 3.12, R64). -/
def Obj.drrWeight : Row := ⟨0x300B, 32, 64, 0x02, 8, .uint 2, .rws, .epoch, .num 1, 1, 1024⟩
/-- 0x2600:01 EndpointCapacity (Table 4.11, R89). -/
def Obj.endpointCapacity : Row := ⟨0x2600, 1, 0, 0x01, 1, .uint 4, .const, .none, .num 1048576, 0, 4294967295⟩
/-- 0x2600:02 EndpointsRegistered (Table 4.11, R89). -/
def Obj.endpointsRegistered : Row := ⟨0x2600, 1, 0, 0x02, 1, .uint 4, .ro, .none, .num 0, 0, 4294967295⟩
/-- 0x2600:03 ChannelCap (Table 4.11, R89). -/
def Obj.channelCap : Row := ⟨0x2600, 1, 0, 0x03, 1, .uint 4, .const, .none, .num 65536, 0, 4294967295⟩
/-- 0x2600:04 ChannelsActive (Table 4.11, R89). -/
def Obj.channelsActive : Row := ⟨0x2600, 1, 0, 0x04, 1, .uint 4, .ro, .none, .num 0, 0, 4294967295⟩
/-- 0x2600:05 GroupCapacity (Table 4.11, R89). -/
def Obj.groupCapacity : Row := ⟨0x2600, 1, 0, 0x05, 1, .uint 2, .const, .none, .num 8192, 0, 65535⟩
/-- 0x2600:06 GroupsActive (Table 4.11, R89). -/
def Obj.groupsActive : Row := ⟨0x2600, 1, 0, 0x06, 1, .uint 2, .ro, .none, .num 0, 0, 65535⟩
/-- 0x2600:07 EndpointTableBase (Table 4.11, R89). -/
def Obj.endpointTableBase : Row := ⟨0x2600, 1, 0, 0x07, 1, .uint 8, .const, .none, .num 1099511627776, 0, 18446744073709551615⟩
/-- 0x2600:08 ChannelStateBase (Table 4.11, R89). -/
def Obj.channelStateBase : Row := ⟨0x2600, 1, 0, 0x08, 1, .uint 8, .const, .none, .num 1100048498688, 0, 18446744073709551615⟩
/-- 0x2600:09 ChannelStateSize (Table 4.11, R89). -/
def Obj.channelStateSize : Row := ⟨0x2600, 1, 0, 0x09, 1, .uint 4, .const, .none, .num 49152, 0, 4294967295⟩
/-- 0x2601:01 SetupRecord (Table 4.11, R89). -/
def Obj.setupRecord : Row := ⟨0x2601, 1, 0, 0x01, 1, .domain, .wo, .onWrite, .num 0, 0, 0⟩
/-- 0x2601:02 SetupResults (Table 4.11, R89). -/
def Obj.setupResults : Row := ⟨0x2601, 1, 0, 0x02, 1, .domain, .ro, .none, .num 0, 0, 0⟩
/-- 0x2601:03 SetupNextSequence (Table 4.11, R89). -/
def Obj.setupNextSequence : Row := ⟨0x2601, 1, 0, 0x03, 1, .uint 4, .ro, .none, .num 1, 0, 4294967295⟩
/-- 0x2601:04 SetupPending (Table 4.11, R89). -/
def Obj.setupPending : Row := ⟨0x2601, 1, 0, 0x04, 1, .uint 2, .ro, .none, .num 0, 0, 65535⟩
/-- 0x2601:05 SetupStoreSize (Table 4.11, R89). -/
def Obj.setupStoreSize : Row := ⟨0x2601, 1, 0, 0x05, 1, .uint 2, .const, .none, .num 4096, 0, 65535⟩
/-- 0x2601:06 SetupLead (Table 4.11, R89). -/
def Obj.setupLead : Row := ⟨0x2601, 1, 0, 0x06, 1, .uint 1, .const, .none, .num 2, 0, 255⟩
/-- 0x2601:07 SetupPerTick (Table 4.11, R89). -/
def Obj.setupPerTick : Row := ⟨0x2601, 1, 0, 0x07, 1, .uint 1, .const, .none, .num 64, 0, 255⟩
/-- 0x2601:08 SetupAccepted (Table 4.11, R89). -/
def Obj.setupAccepted : Row := ⟨0x2601, 1, 0, 0x08, 1, .uint 8, .ro, .none, .num 0, 0, 18446744073709551615⟩
/-- 0x2601:09 SetupRefusedAtWrite (Table 4.11, R89). -/
def Obj.setupRefusedAtWrite : Row := ⟨0x2601, 1, 0, 0x09, 1, .uint 8, .ro, .none, .num 0, 0, 18446744073709551615⟩
/-- 0x2601:0A SetupApplied (Table 4.11, R89). -/
def Obj.setupApplied : Row := ⟨0x2601, 1, 0, 0x0A, 1, .uint 8, .ro, .none, .num 0, 0, 18446744073709551615⟩
/-- 0x2601:0B SetupRefusedAtTick (Table 4.11, R89). -/
def Obj.setupRefusedAtTick : Row := ⟨0x2601, 1, 0, 0x0B, 1, .uint 8, .ro, .none, .num 0, 0, 18446744073709551615⟩
/-- 0x2601:0C ResultsHeld (Table 4.11, R89). -/
def Obj.resultsHeld : Row := ⟨0x2601, 1, 0, 0x0C, 1, .uint 2, .ro, .none, .num 0, 0, 65535⟩
/-- 0x2602:01 KeyTransportKey (Table 4.11, R89). -/
def Obj.keyTransportKey : Row := ⟨0x2602, 1, 0, 0x01, 1, .octets 40, .wo, .onWrite, .num 0, 0, 2135987035920910082395021706169552114602704522356652769947041607822219725780640550022962086936575⟩
/-- 0x2602:02 KeyTransportKeyId (Table 4.11, R89). -/
def Obj.keyTransportKeyId : Row := ⟨0x2602, 1, 0, 0x02, 1, .uint 4, .ro, .none, .num 0, 0, 4294967295⟩
/-- 0x2602:03 KeyUnwrapFailures (Table 4.11, R89). -/
def Obj.keyUnwrapFailures : Row := ⟨0x2602, 1, 0, 0x03, 1, .uint 4, .ro, .none, .num 0, 0, 4294967295⟩
/-- 0x2603:01 to :05 AdmissionRefused (Table 4.11, R89). -/
def Obj.admissionRefused : Row := ⟨0x2603, 1, 0, 0x01, 5, .uint 8, .ro, .none, .num 0, 0, 18446744073709551615⟩
/-- 0x2603:06 CipherCommitted (Table 4.11, R89). -/
def Obj.cipherCommitted : Row := ⟨0x2603, 1, 0, 0x06, 1, .uint 4, .ro, .none, .num 0, 0, 4294967295⟩
/-- 0x2603:07 RateConversionCost (Table 4.11, R89). -/
def Obj.rateConversionCost : Row := ⟨0x2603, 1, 0, 0x07, 1, .uint 2, .const, .none, .num 5, 0, 65535⟩
/-- 0x2604:01 JitterMinDefault (Table 4.11, R89). -/
def Obj.jitterMinDefault : Row := ⟨0x2604, 1, 0, 0x01, 1, .uint 2, .rws, .epoch, .num 20, 20, 500⟩
/-- 0x2604:02 JitterMaxDefault (Table 4.11, R89). -/
def Obj.jitterMaxDefault : Row := ⟨0x2604, 1, 0, 0x02, 1, .uint 2, .rws, .epoch, .num 500, 20, 500⟩
/-- 0x2604:03 JitterInitialDefault (Table 4.11, R89). -/
def Obj.jitterInitialDefault : Row := ⟨0x2604, 1, 0, 0x03, 1, .uint 2, .rws, .epoch, .num 60, 20, 500⟩
/-- 0x2604:04 AdaptWindow (Table 4.11, R89). -/
def Obj.adaptWindow : Row := ⟨0x2604, 1, 0, 0x04, 1, .uint 2, .rws, .epoch, .num 200, 16, 1024⟩
/-- 0x2604:05 AdaptPercentile (Table 4.11, R89). -/
def Obj.adaptPercentile : Row := ⟨0x2604, 1, 0, 0x05, 1, .uint 1, .rws, .epoch, .num 95, 50, 99⟩
/-- 0x2604:06 AdaptMargin (Table 4.11, R89). -/
def Obj.adaptMargin : Row := ⟨0x2604, 1, 0, 0x06, 1, .uint 2, .rws, .epoch, .num 10, 0, 100⟩
/-- 0x2604:07 AdaptHold (Table 4.11, R89). -/
def Obj.adaptHold : Row := ⟨0x2604, 1, 0, 0x07, 1, .uint 2, .rws, .epoch, .num 2000, 100, 60000⟩
/-- 0x2604:08 EarlyResyncCount (Table 4.11, R89). -/
def Obj.earlyResyncCount : Row := ⟨0x2604, 1, 0, 0x08, 1, .uint 1, .rws, .epoch, .num 8, 2, 64⟩
/-- 0x2604:09 PlayoutMargin (Table 4.11, R89). -/
def Obj.playoutMargin : Row := ⟨0x2604, 1, 0, 0x09, 1, .uint 4, .const, .none, .num 5000, 0, 4294967295⟩
/-- 0x2604:0A ConcealFadeFrames (Table 4.11, R89). -/
def Obj.concealFadeFrames : Row := ⟨0x2604, 1, 0, 0x0A, 1, .uint 1, .rws, .epoch, .num 8, 1, 50⟩
/-- 0x2605:01 to :09 EncodeCost (Table 4.11, R89). -/
def Obj.encodeCost : Row := ⟨0x2605, 1, 0, 0x01, 9, .uint 4, .const, .none, .bySub [0, 2000, 2000, 24000, 30000, 32000, 52000, 90000, 70000], 0, 4294967295⟩
/-- 0x2606:01 to :09 DecodeCost (Table 4.11, R89). -/
def Obj.decodeCost : Row := ⟨0x2606, 1, 0, 0x01, 9, .uint 4, .const, .none, .bySub [0, 2000, 2000, 20000, 8000, 9000, 14000, 24000, 18000], 0, 4294967295⟩
/-- 0x2608:01 EpochCommit (Table 4.11, R89). -/
def Obj.epochCommit : Row := ⟨0x2608, 1, 0, 0x01, 1, .octets 12, .wo, .onWrite, .num 0, 0, 79228162514264337593543950335⟩
/-- 0x2608:02 CurrentEpoch (Table 4.11, R89). -/
def Obj.currentEpoch : Row := ⟨0x2608, 1, 0, 0x02, 1, .uint 4, .ro, .none, .num 0, 0, 4294967295⟩
/-- 0x2608:03 PendingEpoch (Table 4.11, R89). -/
def Obj.pendingEpoch : Row := ⟨0x2608, 1, 0, 0x03, 1, .uint 4, .ro, .none, .num 0, 0, 4294967295⟩
/-- 0x2608:04 PendingTick (Table 4.11, R89). -/
def Obj.pendingTick : Row := ⟨0x2608, 1, 0, 0x04, 1, .uint 8, .ro, .none, .num 0, 0, 18446744073709551615⟩
/-- 0x2608:05 EpochAbort (Table 4.11, R89). -/
def Obj.epochAbort : Row := ⟨0x2608, 1, 0, 0x05, 1, .bool, .wo, .onWrite, .num 0, 0, 1⟩
/-- 0x2608:06 EpochLead (Table 4.11, R89). -/
def Obj.epochLead : Row := ⟨0x2608, 1, 0, 0x06, 1, .uint 1, .const, .none, .num 4, 0, 255⟩
/-- 0x2608:07 StagedObjects (Table 4.11, R89). -/
def Obj.stagedObjects : Row := ⟨0x2608, 1, 0, 0x07, 1, .uint 4, .ro, .none, .num 0, 0, 4294967295⟩
/-- 0x2608:08 UnitsBehind (Table 4.11, R89). -/
def Obj.unitsBehind : Row := ⟨0x2608, 1, 0, 0x08, 1, .uint 1, .ro, .none, .num 0, 0, 255⟩
/-- 0x2608:09 EpochsCommitted (Table 4.11, R89). -/
def Obj.epochsCommitted : Row := ⟨0x2608, 1, 0, 0x09, 1, .uint 4, .ro, .none, .num 0, 0, 4294967295⟩
/-- 0x2608:0A CommitsRefused (Table 4.11, R89). -/
def Obj.commitsRefused : Row := ⟨0x2608, 1, 0, 0x0A, 1, .uint 4, .ro, .none, .num 0, 0, 4294967295⟩
/-- 0x2609:01 UnitSelect (Table 4.11, R89). -/
def Obj.unitSelect : Row := ⟨0x2609, 256, 0, 0x01, 1, .uint 1, .rw, .onWrite, .num 0, 0, 255⟩
/-- 0x2609:02 UnitEpochTag (Table 4.11, R89). -/
def Obj.unitEpochTag : Row := ⟨0x2609, 256, 0, 0x02, 1, .uint 4, .ro, .none, .num 0, 0, 4294967295⟩
/-- 0x2609:03 UnitEpochMisses (Table 4.11, R89). -/
def Obj.unitEpochMisses : Row := ⟨0x2609, 256, 0, 0x03, 1, .uint 4, .ro, .none, .num 0, 0, 4294967295⟩
/-- 0x2609:04 UnitState (Table 4.11, R89). -/
def Obj.epochUnitState : Row := ⟨0x2609, 256, 0, 0x04, 1, .uint 1, .ro, .none, .num 0, 0, 255⟩
/-- 0x2620:01 EndpointSelect (Table 4.11, R89). -/
def Obj.endpointSelect : Row := ⟨0x2620, 1048576, 0, 0x01, 1, .uint 4, .rw, .onWrite, .num 0, 0, 1048575⟩
/-- 0x2620:02 Context (Table 4.11, R89). -/
def Obj.endpointContext : Row := ⟨0x2620, 1048576, 0, 0x02, 1, .domain, .ro, .none, .num 0, 0, 0⟩
/-- 0x2620:03 EndpointState (Table 4.11, R89). -/
def Obj.endpointState : Row := ⟨0x2620, 1048576, 0, 0x03, 1, .uint 1, .ro, .none, .num 0, 0, 255⟩
/-- 0x2620:04 BoundChannel (Table 4.11, R89). -/
def Obj.endpointBoundChannel : Row := ⟨0x2620, 1048576, 0, 0x04, 1, .uint 4, .ro, .none, .num 4294967295, 0, 4294967295⟩
/-- 0x2620:05 to :0B EndpointCounters (Table 4.11, R89). -/
def Obj.endpointCounters : Row := ⟨0x2620, 1048576, 0, 0x05, 7, .uint 8, .ro, .none, .num 0, 0, 18446744073709551615⟩
/-- 0x2630:01 ChannelSelect (Table 4.11, R89). -/
def Obj.channelSelect : Row := ⟨0x2630, 65536, 0, 0x01, 1, .uint 4, .rw, .onWrite, .num 0, 0, 65535⟩
/-- 0x2630:02 ChannelState (Table 4.11, R89). -/
def Obj.channelState : Row := ⟨0x2630, 65536, 0, 0x02, 1, .uint 1, .ro, .none, .num 0, 0, 255⟩
/-- 0x2630:03 Endpoint (Table 4.11, R89). -/
def Obj.channelEndpoint : Row := ⟨0x2630, 65536, 0, 0x03, 1, .uint 4, .ro, .none, .num 0, 0, 4294967295⟩
/-- 0x2630:04 OutputEndpoint (Table 4.11, R89). -/
def Obj.channelOutputEndpoint : Row := ⟨0x2630, 65536, 0, 0x04, 1, .uint 4, .ro, .none, .num 4294967295, 0, 4294967295⟩
/-- 0x2630:05 Group (Table 4.11, R89). -/
def Obj.channelGroup : Row := ⟨0x2630, 65536, 0, 0x05, 1, .uint 2, .ro, .none, .num 65535, 0, 65535⟩
/-- 0x2630:06 MemberIndex (Table 4.11, R89). -/
def Obj.memberIndex : Row := ⟨0x2630, 65536, 0, 0x06, 1, .uint 1, .ro, .none, .num 255, 0, 255⟩
/-- 0x2630:07 Engine (Table 4.11, R89). -/
def Obj.channelEngine : Row := ⟨0x2630, 65536, 0, 0x07, 1, .uint 1, .ro, .none, .num 255, 0, 255⟩
/-- 0x2630:08 Thread (Table 4.11, R89). -/
def Obj.channelThread : Row := ⟨0x2630, 65536, 0, 0x08, 1, .uint 4, .ro, .none, .num 0, 0, 4294967295⟩
/-- 0x2630:09 FramePhase (Table 4.11, R89). -/
def Obj.framePhase : Row := ⟨0x2630, 65536, 0, 0x09, 1, .uint 1, .ro, .none, .num 0, 0, 255⟩
/-- 0x2630:0A FrameTicks (Table 4.11, R89). -/
def Obj.frameTicks : Row := ⟨0x2630, 65536, 0, 0x0A, 1, .uint 1, .ro, .none, .num 8, 0, 255⟩
/-- 0x2630:0B Cost (Table 4.11, R89). -/
def Obj.channelCost : Row := ⟨0x2630, 65536, 0, 0x0B, 1, .uint 4, .ro, .none, .num 0, 0, 4294967295⟩
/-- 0x2630:0C TraceClass (Table 4.11, R89). -/
def Obj.channelTraceClass : Row := ⟨0x2630, 65536, 0, 0x0C, 1, .bool, .ro, .none, .num 0, 0, 1⟩
/-- 0x2630:0D ChannelEpochTag (Table 4.11, R89). -/
def Obj.channelEpochTag : Row := ⟨0x2630, 65536, 0, 0x0D, 1, .uint 4, .ro, .none, .num 0, 0, 4294967295⟩
/-- 0x2630:0E JitterDepth (Table 4.11, R89). -/
def Obj.jitterDepth : Row := ⟨0x2630, 65536, 0, 0x0E, 1, .uint 2, .ro, .none, .num 0, 0, 65535⟩
/-- 0x2630:0F JitterTarget (Table 4.11, R89). -/
def Obj.jitterTarget : Row := ⟨0x2630, 65536, 0, 0x0F, 1, .uint 2, .ro, .none, .num 0, 0, 65535⟩
/-- 0x2630:10 JitterMin (Table 4.11, R89). -/
def Obj.jitterMin : Row := ⟨0x2630, 65536, 0, 0x10, 1, .uint 2, .ro, .none, .num 20, 0, 65535⟩
/-- 0x2630:11 JitterMax (Table 4.11, R89). -/
def Obj.jitterMax : Row := ⟨0x2630, 65536, 0, 0x11, 1, .uint 2, .ro, .none, .num 500, 0, 65535⟩
/-- 0x2630:12 OpenTick (Table 4.11, R89). -/
def Obj.channelOpenTick : Row := ⟨0x2630, 65536, 0, 0x12, 1, .uint 8, .ro, .none, .num 0, 0, 18446744073709551615⟩
/-- 0x2630:13 to :16 TickCounters (Table 4.11, R89). -/
def Obj.tickCounters : Row := ⟨0x2630, 65536, 0, 0x13, 4, .uint 8, .ro, .none, .num 0, 0, 18446744073709551615⟩
/-- 0x2630:17 to :1C FrameCounters (Table 4.11, R89). -/
def Obj.frameCounters : Row := ⟨0x2630, 65536, 0, 0x17, 6, .uint 8, .ro, .none, .num 0, 0, 18446744073709551615⟩
/-- 0x2630:1D to :24 PacketCounters (Table 4.11, R89). -/
def Obj.packetCounters : Row := ⟨0x2630, 65536, 0, 0x1D, 8, .uint 8, .ro, .none, .num 0, 0, 18446744073709551615⟩
/-- 0x2630:25 DepthIncreases (Table 4.11, R89). -/
def Obj.depthIncreases : Row := ⟨0x2630, 65536, 0, 0x25, 1, .uint 4, .ro, .none, .num 0, 0, 4294967295⟩
/-- 0x2630:26 DepthDecreases (Table 4.11, R89). -/
def Obj.depthDecreases : Row := ⟨0x2630, 65536, 0, 0x26, 1, .uint 4, .ro, .none, .num 0, 0, 4294967295⟩
/-- 0x2630:27 EvidenceStream (Table 4.11, R89). -/
def Obj.evidenceStream : Row := ⟨0x2630, 65536, 0, 0x27, 1, .uint 4, .ro, .none, .num 0, 0, 4294967295⟩
/-- 0x2640:01 GroupSelect (Table 4.11, R89). -/
def Obj.groupSelect : Row := ⟨0x2640, 8192, 0, 0x01, 1, .uint 2, .rw, .onWrite, .num 0, 0, 8191⟩
/-- 0x2640:02 GroupState (Table 4.11, R89). -/
def Obj.groupState : Row := ⟨0x2640, 8192, 0, 0x02, 1, .uint 1, .ro, .none, .num 0, 0, 255⟩
/-- 0x2640:03 Members (Table 4.11, R89). -/
def Obj.groupMembers : Row := ⟨0x2640, 8192, 0, 0x03, 1, .uint 2, .ro, .none, .num 0, 0, 65535⟩
/-- 0x2640:04 TalkerLimit (Table 4.11, R89). -/
def Obj.groupTalkerLimit : Row := ⟨0x2640, 8192, 0, 0x04, 1, .uint 1, .ro, .none, .num 4, 0, 255⟩
/-- 0x2640:05 ActiveTalkers (Table 4.11, R89). -/
def Obj.activeTalkers : Row := ⟨0x2640, 8192, 0, 0x05, 1, .uint 1, .ro, .none, .num 0, 0, 255⟩
/-- 0x2640:06 MemberChannels (Table 4.11, R89). -/
def Obj.memberChannels : Row := ⟨0x2640, 8192, 0, 0x06, 1, .domain, .ro, .none, .num 0, 0, 0⟩
/-- 0x2700:01 ProfileCount (Table 5.8, R112). -/
def Obj.profileCount : Row := ⟨0x2700, 1, 0, 0x01, 1, .uint 1, .const, .none, .num 64, 0, 255⟩
/-- 0x2700:02 ToneSetCount (Table 5.8, R112). -/
def Obj.toneSetCount : Row := ⟨0x2700, 1, 0, 0x02, 1, .uint 1, .const, .none, .num 16, 0, 255⟩
/-- 0x2700:03 TonesPerSet (Table 5.8, R112). -/
def Obj.tonesPerSet : Row := ⟨0x2700, 1, 0, 0x03, 1, .uint 1, .const, .none, .num 16, 0, 255⟩
/-- 0x2700:04 ToneEventQueue (Table 5.8, R112). -/
def Obj.toneEventQueue : Row := ⟨0x2700, 1, 0, 0x04, 1, .uint 4, .rws, .epoch, .num 4294967295, 0, 4294967295⟩
/-- 0x2700:05 ToneEventsDetected (Table 5.8, R112). -/
def Obj.toneEventsDetected : Row := ⟨0x2700, 1, 0, 0x05, 1, .uint 8, .ro, .none, .num 0, 0, 18446744073709551615⟩
/-- 0x2700:06 ToneEventsPushed (Table 5.8, R112). -/
def Obj.toneEventsPushed : Row := ⟨0x2700, 1, 0, 0x06, 1, .uint 8, .ro, .none, .num 0, 0, 18446744073709551615⟩
/-- 0x2700:07 ToneEventsRefused (Table 5.8, R112). -/
def Obj.toneEventsRefused : Row := ⟨0x2700, 1, 0, 0x07, 1, .uint 8, .ro, .none, .num 0, 0, 18446744073709551615⟩
/-- 0x2701:01 to :09 TreatmentCosts (Table 5.8, R112). -/
def Obj.treatmentCosts : Row := ⟨0x2701, 1, 0, 0x01, 9, .uint 2, .const, .none, .bySub [80, 90, 20, 5, 15, 20, 30, 20, 20], 0, 65535⟩
/-- 0x2702:01 PriorityMemberCount (Table 5.8, R112). -/
def Obj.priorityMemberCount : Row := ⟨0x2702, 1, 0, 0x01, 1, .uint 1, .rws, .epoch, .num 1, 0, 4⟩
/-- 0x2702:02 TalkerHangover (Table 5.8, R112). -/
def Obj.talkerHangover : Row := ⟨0x2702, 1, 0, 0x02, 1, .uint 2, .rws, .epoch, .num 32, 0, 400⟩
/-- 0x2702:03 MixShift (Table 5.8, R112). -/
def Obj.mixShift : Row := ⟨0x2702, 1, 0, 0x03, 1, .uint 1, .rws, .epoch, .num 0, 0, 2⟩
/-- 0x2702:04 MixLateEntries (Table 5.8, R112). -/
def Obj.mixLateEntries : Row := ⟨0x2702, 1, 0, 0x04, 1, .uint 8, .ro, .none, .num 0, 0, 18446744073709551615⟩
/-- 0x2702:05 MixLateDiscarded (Table 5.8, R112). -/
def Obj.mixLateDiscarded : Row := ⟨0x2702, 1, 0, 0x05, 1, .uint 8, .ro, .none, .num 0, 0, 18446744073709551615⟩
/-- 0x2702:06 MixSaturations (Table 5.8, R112). -/
def Obj.mixSaturations : Row := ⟨0x2702, 1, 0, 0x06, 1, .uint 8, .ro, .none, .num 0, 0, 18446744073709551615⟩
/-- 0x2710:01 ProfileSelect (Table 5.8, R112). -/
def Obj.profileSelect : Row := ⟨0x2710, 64, 0, 0x01, 1, .uint 1, .rw, .onWrite, .num 0, 0, 63⟩
/-- 0x2710:02 EchoEnable (Table 5.8, R112). -/
def Obj.echoEnable : Row := ⟨0x2710, 64, 0, 0x02, 1, .bool, .rws, .epoch, .num 1, 0, 1⟩
/-- 0x2710:03 TailWideband (Table 5.8, R112). -/
def Obj.tailWideband : Row := ⟨0x2710, 64, 0, 0x03, 1, .uint 1, .rws, .epoch, .num 128, 16, 128⟩
/-- 0x2710:04 TailNarrowband (Table 5.8, R112). -/
def Obj.tailNarrowband : Row := ⟨0x2710, 64, 0, 0x04, 1, .uint 1, .rws, .epoch, .num 64, 16, 128⟩
/-- 0x2710:05 BulkDelayMax (Table 5.8, R112). -/
def Obj.bulkDelayMax : Row := ⟨0x2710, 64, 0, 0x05, 1, .uint 2, .rws, .epoch, .num 256, 20, 384⟩
/-- 0x2710:06 FadeLength (Table 5.8, R112). -/
def Obj.fadeLength : Row := ⟨0x2710, 64, 0, 0x06, 1, .uint 1, .rws, .epoch, .num 32, 8, 64⟩
/-- 0x2710:07 SwapMargin (Table 5.8, R112). -/
def Obj.swapMargin : Row := ⟨0x2710, 64, 0, 0x07, 1, .uint 1, .rws, .epoch, .num 3, 1, 12⟩
/-- 0x2710:08 SwapHold (Table 5.8, R112). -/
def Obj.swapHold : Row := ⟨0x2710, 64, 0, 0x08, 1, .uint 1, .rws, .epoch, .num 25, 1, 250⟩
/-- 0x2710:09 NlpMode (Table 5.8, R112). -/
def Obj.nlpMode : Row := ⟨0x2710, 64, 0, 0x09, 1, .uint 1, .rws, .epoch, .num 2, 0, 2⟩
/-- 0x2710:0A NlpThreshold (Table 5.8, R112). -/
def Obj.nlpThreshold : Row := ⟨0x2710, 64, 0, 0x0A, 1, .uint 1, .rws, .epoch, .num 12, 3, 30⟩
/-- 0x2710:0B ComfortNoiseLimit (Table 5.8, R112). -/
def Obj.comfortNoiseLimit : Row := ⟨0x2710, 64, 0, 0x0B, 1, .int 1, .rws, .epoch, .num (-50), (-70), -30⟩
/-- 0x2710:0C ToneSet (Table 5.8, R112). -/
def Obj.toneSet : Row := ⟨0x2710, 64, 0, 0x0C, 1, .uint 1, .rws, .epoch, .num 0, 0, 255⟩
/-- 0x2710:0D DtmfDetect (Table 5.8, R112). -/
def Obj.dtmfDetect : Row := ⟨0x2710, 64, 0, 0x0D, 1, .bool, .rws, .epoch, .num 1, 0, 1⟩
/-- 0x2710:0E DtmfSuppress (Table 5.8, R112). -/
def Obj.dtmfSuppress : Row := ⟨0x2710, 64, 0, 0x0E, 1, .bool, .rws, .epoch, .num 0, 0, 1⟩
/-- 0x2710:0F CallProgress (Table 5.8, R112). -/
def Obj.callProgress : Row := ⟨0x2710, 64, 0, 0x0F, 1, .bool, .rws, .epoch, .num 1, 0, 1⟩
/-- 0x2710:10 AnswerToneDisable (Table 5.8, R112). -/
def Obj.answerToneDisable : Row := ⟨0x2710, 64, 0, 0x10, 1, .bool, .rws, .epoch, .num 1, 0, 1⟩
/-- 0x2710:11 NoiseReduction (Table 5.8, R112). -/
def Obj.noiseReduction : Row := ⟨0x2710, 64, 0, 0x11, 1, .bool, .rws, .epoch, .num 1, 0, 1⟩
/-- 0x2710:12 NoiseReductionMax (Table 5.8, R112). -/
def Obj.noiseReductionMax : Row := ⟨0x2710, 64, 0, 0x12, 1, .uint 1, .rws, .epoch, .num 12, 0, 18⟩
/-- 0x2710:13 LevelControl (Table 5.8, R112). -/
def Obj.levelControl : Row := ⟨0x2710, 64, 0, 0x13, 1, .bool, .rws, .epoch, .num 1, 0, 1⟩
/-- 0x2710:14 LevelTarget (Table 5.8, R112). -/
def Obj.levelTarget : Row := ⟨0x2710, 64, 0, 0x14, 1, .int 1, .rws, .epoch, .num (-18), (-30), -6⟩
/-- 0x2710:15 GainMax (Table 5.8, R112). -/
def Obj.gainMax : Row := ⟨0x2710, 64, 0, 0x15, 1, .int 1, .rws, .epoch, .num 12, 0, 18⟩
/-- 0x2710:16 GainMin (Table 5.8, R112). -/
def Obj.gainMin : Row := ⟨0x2710, 64, 0, 0x16, 1, .int 1, .rws, .epoch, .num (-12), (-18), 0⟩
/-- 0x2710:17 GainSlewUp (Table 5.8, R112). -/
def Obj.gainSlewUp : Row := ⟨0x2710, 64, 0, 0x17, 1, .uint 1, .rws, .epoch, .num 6, 1, 60⟩
/-- 0x2710:18 GainSlewDown (Table 5.8, R112). -/
def Obj.gainSlewDown : Row := ⟨0x2710, 64, 0, 0x18, 1, .uint 1, .rws, .epoch, .num 30, 1, 60⟩
/-- 0x2710:19 FixedGain (Table 5.8, R112). -/
def Obj.fixedGain : Row := ⟨0x2710, 64, 0, 0x19, 1, .int 1, .rws, .epoch, .num 0, (-48), 48⟩
/-- 0x2710:1A ProfileCostWideband (Table 5.8, R112). -/
def Obj.profileCostWideband : Row := ⟨0x2710, 64, 0, 0x1A, 1, .uint 2, .ro, .none, .num 350, 0, 65535⟩
/-- 0x2710:1B ProfileCostNarrowband (Table 5.8, R112). -/
def Obj.profileCostNarrowband : Row := ⟨0x2710, 64, 0, 0x1B, 1, .uint 2, .ro, .none, .num 280, 0, 65535⟩
/-- 0x2710:1C ChannelsUsing (Table 5.8, R112). -/
def Obj.channelsUsing : Row := ⟨0x2710, 64, 0, 0x1C, 1, .uint 4, .ro, .none, .num 0, 0, 4294967295⟩
/-- 0x2740:01 ToneSetSelect (Table 5.8, R112). -/
def Obj.toneSetSelect : Row := ⟨0x2740, 256, 0, 0x01, 1, .uint 1, .rw, .onWrite, .num 0, 0, 15⟩
/-- 0x2740:02 ToneSelect (Table 5.8, R112). -/
def Obj.toneSelect : Row := ⟨0x2740, 256, 0, 0x02, 1, .uint 1, .rw, .onWrite, .num 0, 0, 15⟩
/-- 0x2740:03 Enable (Table 5.8, R112). -/
def Obj.toneEnable : Row := ⟨0x2740, 256, 0, 0x03, 1, .bool, .rws, .epoch, .num 0, 0, 1⟩
/-- 0x2740:04 Frequency1 (Table 5.8, R112). -/
def Obj.toneFrequency1 : Row := ⟨0x2740, 256, 0, 0x04, 1, .uint 2, .rws, .epoch, .num 1000, 200, 7400⟩
/-- 0x2740:05 Frequency2 (Table 5.8, R112). -/
def Obj.toneFrequency2 : Row := ⟨0x2740, 256, 0, 0x05, 1, .uint 2, .rws, .epoch, .num 0, 0, 65535⟩
/-- 0x2740:06 FrequencyTolerance (Table 5.8, R112). -/
def Obj.frequencyTolerance : Row := ⟨0x2740, 256, 0, 0x06, 1, .uint 1, .rws, .epoch, .num 20, 5, 50⟩
/-- 0x2740:07 MinLevel (Table 5.8, R112). -/
def Obj.minLevel : Row := ⟨0x2740, 256, 0, 0x07, 1, .int 1, .rws, .epoch, .num (-36), (-50), 0⟩
/-- 0x2740:08 MaxTwist (Table 5.8, R112). -/
def Obj.maxTwist : Row := ⟨0x2740, 256, 0, 0x08, 1, .uint 1, .rws, .epoch, .num 6, 0, 20⟩
/-- 0x2740:09 OnMin (Table 5.8, R112). -/
def Obj.toneOnMin : Row := ⟨0x2740, 256, 0, 0x09, 1, .uint 2, .rws, .epoch, .num 200, 20, 10000⟩
/-- 0x2740:0A OnMax (Table 5.8, R112). -/
def Obj.toneOnMax : Row := ⟨0x2740, 256, 0, 0x0A, 1, .uint 2, .rws, .epoch, .num 0, 0, 65535⟩
/-- 0x2740:0B OffMin (Table 5.8, R112). -/
def Obj.toneOffMin : Row := ⟨0x2740, 256, 0, 0x0B, 1, .uint 2, .rws, .epoch, .num 0, 0, 65535⟩
/-- 0x2740:0C OffMax (Table 5.8, R112). -/
def Obj.toneOffMax : Row := ⟨0x2740, 256, 0, 0x0C, 1, .uint 2, .rws, .epoch, .num 0, 0, 65535⟩
/-- 0x2740:0D Cycles (Table 5.8, R112). -/
def Obj.toneCycles : Row := ⟨0x2740, 256, 0, 0x0D, 1, .uint 1, .rws, .epoch, .num 1, 1, 15⟩
/-- 0x2740:0E Action (Table 5.8, R112). -/
def Obj.toneAction : Row := ⟨0x2740, 256, 0, 0x0E, 1, .uint 1, .rws, .epoch, .num 1, 0, 3⟩
/-- 0x2760:01 ChannelSelect (Table 5.8, R112). -/
def Obj.treatChannelSelect : Row := ⟨0x2760, 65536, 0, 0x01, 1, .uint 4, .rw, .onWrite, .num 0, 0, 65535⟩
/-- 0x2760:02 CancellerState (Table 5.8, R112). -/
def Obj.cancellerState : Row := ⟨0x2760, 65536, 0, 0x02, 1, .uint 1, .ro, .none, .num 0, 0, 255⟩
/-- 0x2760:03 BulkDelay (Table 5.8, R112). -/
def Obj.bulkDelay : Row := ⟨0x2760, 65536, 0, 0x03, 1, .uint 2, .ro, .none, .num 0, 0, 65535⟩
/-- 0x2760:04 Erle (Table 5.8, R112). -/
def Obj.erle : Row := ⟨0x2760, 65536, 0, 0x04, 1, .int 2, .ro, .none, .num 0, (-32768), 32767⟩
/-- 0x2760:05 SwapRequests (Table 5.8, R112). -/
def Obj.swapRequests : Row := ⟨0x2760, 65536, 0, 0x05, 1, .uint 4, .ro, .none, .num 0, 0, 4294967295⟩
/-- 0x2760:06 SwapsApplied (Table 5.8, R112). -/
def Obj.swapsApplied : Row := ⟨0x2760, 65536, 0, 0x06, 1, .uint 4, .ro, .none, .num 0, 0, 4294967295⟩
/-- 0x2760:07 SwapsSuperseded (Table 5.8, R112). -/
def Obj.swapsSuperseded : Row := ⟨0x2760, 65536, 0, 0x07, 1, .uint 4, .ro, .none, .num 0, 0, 4294967295⟩
/-- 0x2760:08 SwapsDiscarded (Table 5.8, R112). -/
def Obj.swapsDiscarded : Row := ⟨0x2760, 65536, 0, 0x08, 1, .uint 4, .ro, .none, .num 0, 0, 4294967295⟩
/-- 0x2760:09 SwapPending (Table 5.8, R112). -/
def Obj.swapPending : Row := ⟨0x2760, 65536, 0, 0x09, 1, .bool, .ro, .none, .num 0, 0, 1⟩
/-- 0x2760:0A AnswerToneBypasses (Table 5.8, R112). -/
def Obj.answerToneBypasses : Row := ⟨0x2760, 65536, 0, 0x0A, 1, .uint 4, .ro, .none, .num 0, 0, 4294967295⟩
/-- 0x2760:0B CurrentGain (Table 5.8, R112). -/
def Obj.currentGain : Row := ⟨0x2760, 65536, 0, 0x0B, 1, .int 2, .ro, .none, .num 0, (-32768), 32767⟩
/-- 0x2760:0C NoiseFloor (Table 5.8, R112). -/
def Obj.noiseFloor : Row := ⟨0x2760, 65536, 0, 0x0C, 1, .int 2, .ro, .none, .num 0, (-32768), 32767⟩
/-- 0x2760:0D ToneEvents (Table 5.8, R112). -/
def Obj.toneEvents : Row := ⟨0x2760, 65536, 0, 0x0D, 1, .uint 4, .ro, .none, .num 0, 0, 4294967295⟩
/-- 0x2760:0E TalkerTicks (Table 5.8, R112). -/
def Obj.talkerTicks : Row := ⟨0x2760, 65536, 0, 0x0E, 1, .uint 8, .ro, .none, .num 0, 0, 18446744073709551615⟩
/-- 0x2760:0F MixTicks (Table 5.8, R112). -/
def Obj.mixTicks : Row := ⟨0x2760, 65536, 0, 0x0F, 1, .uint 8, .ro, .none, .num 0, 0, 18446744073709551615⟩
/-- 0x2770:01 GroupSelect (Table 5.8, R112). -/
def Obj.mixGroupSelect : Row := ⟨0x2770, 8192, 0, 0x01, 1, .uint 2, .rw, .onWrite, .num 0, 0, 8191⟩
/-- 0x2770:02 TalkerLimit (Table 5.8, R112). -/
def Obj.mixTalkerLimit : Row := ⟨0x2770, 8192, 0, 0x02, 1, .uint 1, .rws, .epoch, .num 4, 1, 4⟩
/-- 0x2770:03 TicksMixed (Table 5.8, R112). -/
def Obj.ticksMixed : Row := ⟨0x2770, 8192, 0, 0x03, 1, .uint 8, .ro, .none, .num 0, 0, 18446744073709551615⟩
/-- 0x2770:04 TicksClosedLate (Table 5.8, R112). -/
def Obj.ticksClosedLate : Row := ⟨0x2770, 8192, 0, 0x04, 1, .uint 8, .ro, .none, .num 0, 0, 18446744073709551615⟩
/-- 0x2770:05 TalkerSelections (Table 5.8, R112). -/
def Obj.talkerSelections : Row := ⟨0x2770, 8192, 0, 0x05, 1, .uint 8, .ro, .none, .num 0, 0, 18446744073709551615⟩
/-- 0x2770:06 ClaimsNotSelected (Table 5.8, R112). -/
def Obj.claimsNotSelected : Row := ⟨0x2770, 8192, 0, 0x06, 1, .uint 8, .ro, .none, .num 0, 0, 18446744073709551615⟩
/-- 0x2300:01 GaugePeriod (Table 8.11, R187). -/
def Obj.gaugePeriod : Row := ⟨0x2300, 1, 0, 0x01, 1, .uint 4, .const, .none, .num 100, 0, 4294967295⟩
/-- 0x2300:02 ReserveFraction (Table 8.11, R187). -/
def Obj.reserveFraction : Row := ⟨0x2300, 1, 0, 0x02, 1, .uint 2, .const, .none, .num 150, 0, 65535⟩
/-- 0x2300:03 UnitsAllocatedTotal (Table 8.11, R187). -/
def Obj.unitsAllocatedTotal : Row := ⟨0x2300, 1, 0, 0x03, 1, .uint 8, .ro, .none, .num 0, 0, 18446744073709551615⟩
/-- 0x2300:04 UnitsCommittedTotal (Table 8.11, R187). -/
def Obj.unitsCommittedTotal : Row := ⟨0x2300, 1, 0, 0x04, 1, .uint 8, .ro, .none, .num 0, 0, 18446744073709551615⟩
/-- 0x2300:05 EnginesInDeficit (Table 8.11, R187). -/
def Obj.enginesInDeficit : Row := ⟨0x2300, 1, 0, 0x05, 1, .uint 1, .ro, .none, .num 0, 0, 255⟩
/-- 0x2300:06 DeficitAlarmTime (Table 8.11, R187). -/
def Obj.deficitAlarmTime : Row := ⟨0x2300, 1, 0, 0x06, 1, .uint 4, .rws, .epoch, .num 1000, 10, 60000⟩
/-- 0x2300:07 SlowCornerRate (Table 8.11, R187). -/
def Obj.slowCornerRate : Row := ⟨0x2300, 1, 0, 0x07, 1, .uint 4, .const, .none, .num 1250, 0, 4294967295⟩
/-- 0x2301:01 AvsRaiseRatio (Table 8.11, R187). -/
def Obj.avsRaiseRatio : Row := ⟨0x2301, 1, 0, 0x01, 1, .uint 2, .rws, .epoch, .num 9700, 0, 65535⟩
/-- 0x2301:02 AvsLowerRatio (Table 8.11, R187). -/
def Obj.avsLowerRatio : Row := ⟨0x2301, 1, 0, 0x02, 1, .uint 2, .rws, .epoch, .num 9000, 0, 65535⟩
/-- 0x2301:03 AvsStep (Table 8.11, R187). -/
def Obj.avsStep : Row := ⟨0x2301, 1, 0, 0x03, 1, .uint 1, .rws, .epoch, .num 5, 1, 10⟩
/-- 0x2301:04 AvsInterval (Table 8.11, R187). -/
def Obj.avsInterval : Row := ⟨0x2301, 1, 0, 0x04, 1, .uint 2, .rws, .epoch, .num 10, 2, 1000⟩
/-- 0x2301:05 AvsLowerHold (Table 8.11, R187). -/
def Obj.avsLowerHold : Row := ⟨0x2301, 1, 0, 0x05, 1, .uint 4, .rws, .epoch, .num 10000, 1000, 600000⟩
/-- 0x2301:06 AvsMax (Table 8.11, R187). -/
def Obj.avsMax : Row := ⟨0x2301, 1, 0, 0x06, 1, .uint 2, .rws, .epoch, .num 850, 720, 850⟩
/-- 0x2301:07 AvsSettle (Table 8.11, R187). -/
def Obj.avsSettle : Row := ⟨0x2301, 1, 0, 0x07, 1, .uint 2, .const, .none, .num 1000, 0, 65535⟩
/-- 0x2301:08 VddCoreCommand (Table 8.11, R187). -/
def Obj.vddCoreCommand : Row := ⟨0x2301, 1, 0, 0x08, 1, .uint 2, .ro, .none, .num 780, 0, 65535⟩
/-- 0x2301:09 VddCoreFloor (Table 8.11, R187). -/
def Obj.vddCoreFloor : Row := ⟨0x2301, 1, 0, 0x09, 1, .uint 2, .ro, .none, .num 600, 0, 65535⟩
/-- 0x2301:0A AvsRaises (Table 8.11, R187). -/
def Obj.avsRaises : Row := ⟨0x2301, 1, 0, 0x0A, 1, .uint 4, .ro, .none, .num 0, 0, 4294967295⟩
/-- 0x2301:0B AvsLowers (Table 8.11, R187). -/
def Obj.avsLowers : Row := ⟨0x2301, 1, 0, 0x0B, 1, .uint 4, .ro, .none, .num 0, 0, 4294967295⟩
/-- 0x2301:0C AvsFailures (Table 8.11, R187). -/
def Obj.avsFailures : Row := ⟨0x2301, 1, 0, 0x0C, 1, .uint 4, .ro, .none, .num 0, 0, 4294967295⟩
/-- 0x2301:0D MostLoadedHearth (Table 8.11, R187). -/
def Obj.mostLoadedHearth : Row := ⟨0x2301, 1, 0, 0x0D, 1, .uint 1, .ro, .none, .num 0, 0, 255⟩
/-- 0x2301:0E HearthLoadRatio (Table 8.11, R187). -/
def Obj.hearthLoadRatio : Row := ⟨0x2301, 1, 0, 0x0E, 1, .uint 2, .ro, .none, .num 0, 0, 65535⟩
/-- 0x2320:01 EngineSelect (Table 8.11, R187). -/
def Obj.engineSelect : Row := ⟨0x2320, 192, 0, 0x01, 1, .uint 1, .rw, .onWrite, .num 0, 0, 191⟩
/-- 0x2320:02 Capacity (Table 8.11, R187). -/
def Obj.engineCapacity : Row := ⟨0x2320, 192, 0, 0x02, 1, .uint 4, .ro, .none, .num 0, 0, 4294967295⟩
/-- 0x2320:03 Allocated (Table 8.11, R187). -/
def Obj.engineAllocated : Row := ⟨0x2320, 192, 0, 0x03, 1, .uint 4, .ro, .none, .num 0, 0, 4294967295⟩
/-- 0x2320:04 Free (Table 8.11, R187). -/
def Obj.engineFree : Row := ⟨0x2320, 192, 0, 0x04, 1, .uint 4, .ro, .none, .num 0, 0, 4294967295⟩
/-- 0x2320:05 Deficit (Table 8.11, R187). -/
def Obj.engineDeficit : Row := ⟨0x2320, 192, 0, 0x05, 1, .uint 4, .ro, .none, .num 0, 0, 4294967295⟩
/-- 0x2320:06 DeficitEvents (Table 8.11, R187). -/
def Obj.deficitEvents : Row := ⟨0x2320, 192, 0, 0x06, 1, .uint 4, .ro, .none, .num 0, 0, 4294967295⟩
/-- 0x2320:07 DeficitMax (Table 8.11, R187). -/
def Obj.deficitMax : Row := ⟨0x2320, 192, 0, 0x07, 1, .uint 4, .ro, .none, .num 0, 0, 4294967295⟩
/-- 0x2320:08 DeficitTime (Table 8.11, R187). -/
def Obj.deficitTime : Row := ⟨0x2320, 192, 0, 0x08, 1, .uint 8, .ro, .none, .num 0, 0, 18446744073709551615⟩
/-- 0x2320:09 ThreadsBound (Table 8.11, R187). -/
def Obj.threadsBound : Row := ⟨0x2320, 192, 0, 0x09, 1, .uint 2, .ro, .none, .num 0, 0, 65535⟩
/-- 0x2320:0A ReadyDepth (Table 8.11, R187). -/
def Obj.readyDepth : Row := ⟨0x2320, 192, 0, 0x0A, 1, .uint 2, .ro, .none, .num 0, 0, 65535⟩
/-- 0x2320:0B ReadyDepthMax (Table 8.11, R187). -/
def Obj.readyDepthMax : Row := ⟨0x2320, 192, 0, 0x0B, 1, .uint 2, .ro, .none, .num 0, 0, 65535⟩
/-- 0x2320:0C WaitMin (Table 8.11, R187). -/
def Obj.waitMin : Row := ⟨0x2320, 192, 0, 0x0C, 1, .uint 4, .ro, .none, .num 0, 0, 4294967295⟩
/-- 0x2320:0D WaitMean (Table 8.11, R187). -/
def Obj.waitMean : Row := ⟨0x2320, 192, 0, 0x0D, 1, .uint 4, .ro, .none, .num 0, 0, 4294967295⟩
/-- 0x2320:0E WaitMax (Table 8.11, R187). -/
def Obj.waitMax : Row := ⟨0x2320, 192, 0, 0x0E, 1, .uint 4, .ro, .none, .num 0, 0, 4294967295⟩
/-- 0x2320:0F WaitHistogram (Table 8.11, R187). -/
def Obj.waitHistogram : Row := ⟨0x2320, 192, 0, 0x0F, 1, .domain, .ro, .none, .num 0, 0, 0⟩
/-- 0x2320:10 Load (Table 8.11, R187). -/
def Obj.engineLoad : Row := ⟨0x2320, 192, 0, 0x10, 1, .uint 2, .ro, .none, .num 0, 0, 65535⟩
/-- 0x2320:11 Runnable (Table 8.11, R187). -/
def Obj.runnable : Row := ⟨0x2320, 192, 0, 0x11, 1, .uint 2, .ro, .none, .num 0, 0, 65535⟩
/-- 0x2320:12 Dispatches (Table 8.11, R187). -/
def Obj.dispatches : Row := ⟨0x2320, 192, 0, 0x12, 1, .uint 8, .ro, .none, .num 0, 0, 18446744073709551615⟩
/-- 0x2320:13 Preemptions (Table 8.11, R187). -/
def Obj.preemptions : Row := ⟨0x2320, 192, 0, 0x13, 1, .uint 8, .ro, .none, .num 0, 0, 18446744073709551615⟩
/-- 0x2320:14 DeadlineMisses (Table 8.11, R187). -/
def Obj.deadlineMisses : Row := ⟨0x2320, 192, 0, 0x14, 1, .uint 8, .ro, .none, .num 0, 0, 18446744073709551615⟩
/-- 0x2320:15 BankSwaps (Table 8.11, R187). -/
def Obj.bankSwaps : Row := ⟨0x2320, 192, 0, 0x15, 1, .uint 8, .ro, .none, .num 0, 0, 18446744073709551615⟩
/-- 0x2320:16 SwapWaits (Table 8.11, R187). -/
def Obj.swapWaits : Row := ⟨0x2320, 192, 0, 0x16, 1, .uint 8, .ro, .none, .num 0, 0, 18446744073709551615⟩
/-- 0x2320:17 StolenCycles (Table 8.11, R187). -/
def Obj.stolenCycles : Row := ⟨0x2320, 192, 0, 0x17, 1, .uint 8, .ro, .none, .num 0, 0, 18446744073709551615⟩
/-- 0x2320:18 LmParityErrors (Table 8.11, R187). -/
def Obj.lmParityErrors : Row := ⟨0x2320, 192, 0, 0x18, 1, .uint 4, .ro, .none, .num 0, 0, 4294967295⟩
/-- 0x2320:19 PoisonRefusals (Table 8.11, R187). -/
def Obj.poisonRefusals : Row := ⟨0x2320, 192, 0, 0x19, 1, .uint 8, .ro, .none, .num 0, 0, 18446744073709551615⟩
/-- 0x2320:1A ExceptionsTaken (Table 8.11, R187). -/
def Obj.exceptionsTaken : Row := ⟨0x2320, 192, 0, 0x1A, 1, .uint 4, .ro, .none, .num 0, 0, 4294967295⟩
/-- 0x2400:01 TcbCapacity (Table 8.12, R188). -/
def Obj.tcbCapacity : Row := ⟨0x2400, 1, 0, 0x01, 1, .uint 4, .const, .none, .num 131072, 0, 4294967295⟩
/-- 0x2400:02 TcbsInUse (Table 8.12, R188). -/
def Obj.tcbsInUse : Row := ⟨0x2400, 1, 0, 0x02, 1, .uint 4, .ro, .none, .num 0, 0, 4294967295⟩
/-- 0x2400:03 ReadyStoreSize (Table 8.12, R188). -/
def Obj.readyStoreSize : Row := ⟨0x2400, 1, 0, 0x03, 1, .uint 2, .const, .none, .num 8192, 0, 65535⟩
/-- 0x2400:04 PostLimit (Table 8.12, R188). -/
def Obj.postLimit : Row := ⟨0x2400, 1, 0, 0x04, 1, .uint 2, .const, .none, .num 8176, 0, 65535⟩
/-- 0x2400:05 RunnableLimit (Table 8.12, R188). -/
def Obj.runnableLimit : Row := ⟨0x2400, 1, 0, 0x05, 1, .uint 2, .const, .none, .num 512, 0, 65535⟩
/-- 0x2400:06 DispatchBound (Table 8.12, R188). -/
def Obj.dispatchBound : Row := ⟨0x2400, 1, 0, 0x06, 1, .uint 2, .const, .none, .num 120, 0, 65535⟩
/-- 0x2400:07 GuardPoint (Table 8.12, R188). -/
def Obj.guardPoint : Row := ⟨0x2400, 1, 0, 0x07, 1, .uint 4, .const, .none, .num 250000, 0, 4294967295⟩
/-- 0x2400:08 MissEscalation (Table 8.12, R188). -/
def Obj.missEscalation : Row := ⟨0x2400, 1, 0, 0x08, 1, .uint 1, .const, .none, .num 8, 0, 255⟩
/-- 0x2400:09 to :0C TraceQueue (Table 8.12, R188). -/
def Obj.traceQueue : Row := ⟨0x2400, 1, 0, 0x09, 4, .uint 4, .rws, .epoch, .num 4294967295, 0, 4294967295⟩
/-- 0x2400:0D TraceDecisions (Table 8.12, R188). -/
def Obj.traceDecisions : Row := ⟨0x2400, 1, 0, 0x0D, 1, .uint 8, .ro, .none, .num 0, 0, 18446744073709551615⟩
/-- 0x2400:0E TraceWritten (Table 8.12, R188). -/
def Obj.traceWritten : Row := ⟨0x2400, 1, 0, 0x0E, 1, .uint 8, .ro, .none, .num 0, 0, 18446744073709551615⟩
/-- 0x2400:0F TraceRefused (Table 8.12, R188). -/
def Obj.traceRefused : Row := ⟨0x2400, 1, 0, 0x0F, 1, .uint 8, .ro, .none, .num 0, 0, 18446744073709551615⟩
/-- 0x2400:10 StokerCommand (Table 8.12, R188). -/
def Obj.stokerCommand : Row := ⟨0x2400, 1, 0, 0x10, 1, .octets 32, .wo, .onWrite, .num 0, 0, 115792089237316195423570985008687907853269984665640564039457584007913129639935⟩
/-- 0x2400:11 CommandResult (Table 8.12, R188). -/
def Obj.commandResult : Row := ⟨0x2400, 1, 0, 0x11, 1, .uint 8, .ro, .none, .num 0, 0, 18446744073709551615⟩
/-- 0x2440:01 ThreadSelect (Table 8.12, R188). -/
def Obj.threadSelect : Row := ⟨0x2440, 131072, 0, 0x01, 1, .uint 4, .rw, .onWrite, .num 0, 0, 131071⟩
/-- 0x2440:02 Tcb (Table 8.12, R188). -/
def Obj.tcbRecord : Row := ⟨0x2440, 131072, 0, 0x02, 1, .domain, .ro, .none, .num 0, 0, 0⟩
/-- 0x2440:03 ThreadState (Table 8.12, R188). -/
def Obj.threadState : Row := ⟨0x2440, 131072, 0, 0x03, 1, .uint 1, .ro, .none, .num 0, 0, 255⟩
/-- 0x2440:04 ThreadHearth (Table 8.12, R188). -/
def Obj.threadHearth : Row := ⟨0x2440, 131072, 0, 0x04, 1, .uint 1, .ro, .none, .num 0, 0, 255⟩
/-- base+0x00:01 GaugeReading (Table 8.13, R189). -/
def Obj.gaugeReading : Row := ⟨0x4000, 12, 64, 0x01, 1, .uint 2, .ro, .none, .num 0, 0, 65535⟩
/-- base+0x00:02 GaugeMin (Table 8.13, R189). -/
def Obj.gaugeMin : Row := ⟨0x4000, 12, 64, 0x02, 1, .uint 2, .ro, .none, .num 0, 0, 65535⟩
/-- base+0x00:03 HearthAllocated (Table 8.13, R189). -/
def Obj.hearthAllocated : Row := ⟨0x4000, 12, 64, 0x03, 1, .uint 4, .ro, .none, .num 0, 0, 4294967295⟩
/-- base+0x00:04 HearthCapacity (Table 8.13, R189). -/
def Obj.hearthCapacity : Row := ⟨0x4000, 12, 64, 0x04, 1, .uint 4, .ro, .none, .num 0, 0, 4294967295⟩
/-- base+0x00:05 ReadyEntries (Table 8.13, R189). -/
def Obj.readyEntries : Row := ⟨0x4000, 12, 64, 0x05, 1, .uint 2, .ro, .none, .num 0, 0, 65535⟩
/-- base+0x00:06 ReadyEntriesMax (Table 8.13, R189). -/
def Obj.readyEntriesMax : Row := ⟨0x4000, 12, 64, 0x06, 1, .uint 2, .ro, .none, .num 0, 0, 65535⟩
/-- base+0x00:07 PostsRefused (Table 8.13, R189). -/
def Obj.postsRefused : Row := ⟨0x4000, 12, 64, 0x07, 1, .uint 8, .ro, .none, .num 0, 0, 18446744073709551615⟩
/-- base+0x00:08 HardwareRefusals (Table 8.13, R189). -/
def Obj.hardwareRefusals : Row := ⟨0x4000, 12, 64, 0x08, 1, .uint 8, .ro, .none, .num 0, 0, 18446744073709551615⟩
/-- base+0x00:09 LatchRetries (Table 8.13, R189). -/
def Obj.latchRetries : Row := ⟨0x4000, 12, 64, 0x09, 1, .uint 8, .ro, .none, .num 0, 0, 18446744073709551615⟩
/-- base+0x00:0A ExceptionQueue (Table 8.13, R189). -/
def Obj.exceptionQueue : Row := ⟨0x4000, 12, 64, 0x0A, 1, .uint 4, .rws, .epoch, .num 4294967295, 0, 4294967295⟩
/-- base+0x00:0B ExceptionRecordsRefused (Table 8.13, R189). -/
def Obj.exceptionRecordsRefused : Row := ⟨0x4000, 12, 64, 0x0B, 1, .uint 4, .ro, .none, .num 0, 0, 4294967295⟩
/-- base+0x00:0C TickPostTime (Table 8.13, R189). -/
def Obj.tickPostTime : Row := ⟨0x4000, 12, 64, 0x0C, 1, .uint 4, .ro, .none, .num 0, 0, 4294967295⟩
/-- base+0x00:0D TickEntriesSkipped (Table 8.13, R189). -/
def Obj.tickEntriesSkipped : Row := ⟨0x4000, 12, 64, 0x0D, 1, .uint 8, .ro, .none, .num 0, 0, 18446744073709551615⟩
/-- base+0x01:01 to :10 EngineFree (Table 8.13, R189). -/
def Obj.hearthEngineFree : Row := ⟨0x4001, 12, 64, 0x01, 16, .uint 4, .ro, .none, .num 0, 0, 4294967295⟩
/-- 0x2500:01 QueueCount (Table 9.8, R207). -/
def Obj.queueCount : Row := ⟨0x2500, 1, 0, 0x01, 1, .uint 4, .const, .none, .num 262144, 0, 4294967295⟩
/-- 0x2500:02 CellCount (Table 9.8, R207). -/
def Obj.cellCount : Row := ⟨0x2500, 1, 0, 0x02, 1, .uint 4, .const, .none, .num 1048576, 0, 4294967295⟩
/-- 0x2500:03 CellBytes (Table 9.8, R207). -/
def Obj.cellBytes : Row := ⟨0x2500, 1, 0, 0x03, 1, .uint 1, .const, .none, .num 128, 0, 255⟩
/-- 0x2500:04 FreeCells (Table 9.8, R207). -/
def Obj.freeCells : Row := ⟨0x2500, 1, 0, 0x04, 1, .uint 4, .ro, .none, .num 393216, 0, 4294967295⟩
/-- 0x2500:05 HeldCells (Table 9.8, R207). -/
def Obj.heldCells : Row := ⟨0x2500, 1, 0, 0x05, 1, .uint 4, .ro, .none, .num 655360, 0, 4294967295⟩
/-- 0x2500:06 InFlightCells (Table 9.8, R207). -/
def Obj.inFlightCells : Row := ⟨0x2500, 1, 0, 0x06, 1, .uint 4, .ro, .none, .num 0, 0, 4294967295⟩
/-- 0x2500:07 BankRegionCells (Table 9.8, R207). -/
def Obj.bankRegionCells : Row := ⟨0x2500, 1, 0, 0x07, 1, .uint 4, .const, .none, .num 655360, 0, 4294967295⟩
/-- 0x2500:08 ClassAReserve (Table 9.8, R207). -/
def Obj.classAReserve : Row := ⟨0x2500, 1, 0, 0x08, 1, .uint 4, .rws, .epoch, .num 32768, 0, 131072⟩
/-- 0x2500:09 PoolRefusals (Table 9.8, R207). -/
def Obj.poolRefusals : Row := ⟨0x2500, 1, 0, 0x09, 1, .uint 8, .ro, .none, .num 0, 0, 18446744073709551615⟩
/-- 0x2500:0A ClassARefusals (Table 9.8, R207). -/
def Obj.classARefusals : Row := ⟨0x2500, 1, 0, 0x0A, 1, .uint 8, .ro, .none, .num 0, 0, 18446744073709551615⟩
/-- 0x2500:0B ParityErrors (Table 9.8, R207). -/
def Obj.cellParityErrors : Row := ⟨0x2500, 1, 0, 0x0B, 1, .uint 8, .ro, .none, .num 0, 0, 18446744073709551615⟩
/-- 0x2500:0C AuditMismatches (Table 9.8, R207). -/
def Obj.cellAuditMismatches : Row := ⟨0x2500, 1, 0, 0x0C, 1, .uint 4, .ro, .none, .num 0, 0, 4294967295⟩
/-- 0x2500:0D FreeCellsMin (Table 9.8, R207). -/
def Obj.freeCellsMin : Row := ⟨0x2500, 1, 0, 0x0D, 1, .uint 4, .ro, .none, .num 393216, 0, 4294967295⟩
/-- 0x2500:0E ThresholdPostsRefused (Table 9.8, R207). -/
def Obj.thresholdPostsRefused : Row := ⟨0x2500, 1, 0, 0x0E, 1, .uint 8, .ro, .none, .num 0, 0, 18446744073709551615⟩
/-- 0x2520:01 QueueSelect (Table 9.8, R207). -/
def Obj.queueSelect : Row := ⟨0x2520, 262144, 0, 0x01, 1, .uint 4, .rw, .onWrite, .num 0, 0, 262143⟩
/-- 0x2520:02 QueueKind (Table 9.8, R207). -/
def Obj.queueKind : Row := ⟨0x2520, 262144, 0, 0x02, 1, .uint 1, .ro, .none, .num 0, 0, 255⟩
/-- 0x2520:03 ItemMode (Table 9.8, R207). -/
def Obj.itemMode : Row := ⟨0x2520, 262144, 0, 0x03, 1, .uint 1, .rws, .epoch, .num 1, 0, 1⟩
/-- 0x2520:04 DepthLimit (Table 9.8, R207). -/
def Obj.queueDepthLimit : Row := ⟨0x2520, 262144, 0, 0x04, 1, .uint 4, .rws, .epoch, .depthLimit, 1, 262144⟩
/-- 0x2520:05 ClassA (Table 9.8, R207). -/
def Obj.queueClassA : Row := ⟨0x2520, 262144, 0, 0x05, 1, .bool, .rws, .epoch, .classA, 0, 1⟩
/-- 0x2520:06 GrantMask (Table 9.8, R207). -/
def Obj.queueGrantMask : Row := ⟨0x2520, 262144, 0, 0x06, 1, .uint 2, .rw, .onWrite, .num 0, 0, 65535⟩
/-- 0x2520:07 ThresholdDepth (Table 9.8, R207). -/
def Obj.thresholdDepth : Row := ⟨0x2520, 262144, 0, 0x07, 1, .uint 4, .rws, .epoch, .num 0, 0, 4294967295⟩
/-- 0x2520:08 ThresholdThread (Table 9.8, R207). -/
def Obj.thresholdThread : Row := ⟨0x2520, 262144, 0, 0x08, 1, .uint 4, .rws, .epoch, .num 0, 0, 131071⟩
/-- 0x2520:09 Depth (Table 9.8, R207). -/
def Obj.queueDepth : Row := ⟨0x2520, 262144, 0, 0x09, 1, .uint 4, .ro, .none, .num 0, 0, 4294967295⟩
/-- 0x2520:0A CellsHeld (Table 9.8, R207). -/
def Obj.queueCellsHeld : Row := ⟨0x2520, 262144, 0, 0x0A, 1, .uint 4, .ro, .none, .num 0, 0, 4294967295⟩
/-- 0x2520:0B MarkValid (Table 9.8, R207). -/
def Obj.queueMarkValid : Row := ⟨0x2520, 262144, 0, 0x0B, 1, .bool, .ro, .none, .num 0, 0, 1⟩
/-- 0x2520:0C Empty (Table 9.8, R207). -/
def Obj.queueEmpty : Row := ⟨0x2520, 262144, 0, 0x0C, 1, .bool, .ro, .none, .num 1, 0, 1⟩
/-- 0x2520:0D Pushes (Table 9.8, R207). -/
def Obj.queuePushes : Row := ⟨0x2520, 262144, 0, 0x0D, 1, .uint 8, .ro, .none, .num 0, 0, 18446744073709551615⟩
/-- 0x2520:0E PushesRefused (Table 9.8, R207). -/
def Obj.queuePushesRefused : Row := ⟨0x2520, 262144, 0, 0x0E, 1, .uint 8, .ro, .none, .num 0, 0, 18446744073709551615⟩
/-- 0x2520:0F Pops (Table 9.8, R207). -/
def Obj.queuePops : Row := ⟨0x2520, 262144, 0, 0x0F, 1, .uint 8, .ro, .none, .num 0, 0, 18446744073709551615⟩
/-- 0x2520:10 Underruns (Table 9.8, R207). -/
def Obj.queueUnderruns : Row := ⟨0x2520, 262144, 0, 0x10, 1, .uint 8, .ro, .none, .num 0, 0, 18446744073709551615⟩
/-- 0x2520:11 Releases (Table 9.8, R207). -/
def Obj.queueReleases : Row := ⟨0x2520, 262144, 0, 0x11, 1, .uint 8, .ro, .none, .num 0, 0, 18446744073709551615⟩
/-- 0x2520:12 QueueParityErrors (Table 9.8, R207). -/
def Obj.queueParityErrors : Row := ⟨0x2520, 262144, 0, 0x12, 1, .uint 4, .ro, .none, .num 0, 0, 4294967295⟩
/-- 0x2520:13 QueueState (Table 9.8, R207). -/
def Obj.queueState : Row := ⟨0x2520, 262144, 0, 0x13, 1, .uint 1, .ro, .none, .num 1, 0, 255⟩
/-- 0x2520:14 QueueReset (Table 9.8, R207). -/
def Obj.queueResetObj : Row := ⟨0x2520, 262144, 0, 0x14, 1, .bool, .wo, .onWrite, .num 0, 0, 1⟩
/-- 0x2520:15 LastValue (Table 9.8, R207). -/
def Obj.queueLastValue : Row := ⟨0x2520, 262144, 0, 0x15, 1, .octets 16, .ro, .none, .num 0, 0, 340282366920938463463374607431768211455⟩
/-- 0x2520:16 OaMode (Table 9.8, R207). -/
def Obj.oaMode : Row := ⟨0x2520, 262144, 0, 0x16, 1, .uint 1, .rws, .epochR162, .num 0, 0, 3⟩
/-- 0x2520:17 OaElementCount (Table 9.8, R207). -/
def Obj.oaElementCount : Row := ⟨0x2520, 262144, 0, 0x17, 1, .uint 1, .rws, .epochR162, .num 1, 0, 255⟩
/-- 0x2520:18 OaExpectedMask (Table 9.8, R207). -/
def Obj.oaExpectedMask : Row := ⟨0x2520, 262144, 0, 0x18, 1, .octets 32, .rws, .epochR162, .num 0, 0, 115792089237316195423570985008687907853269984665640564039457584007913129639935⟩
/-- 0x2520:19 OaCloseLag (Table 9.8, R207). -/
def Obj.oaCloseLag : Row := ⟨0x2520, 262144, 0, 0x19, 1, .uint 1, .rws, .epochR162, .num 1, 1, 8⟩
/-- 0x2520:1A OaEnable (Table 9.8, R207). -/
def Obj.oaEnable : Row := ⟨0x2520, 262144, 0, 0x1A, 1, .bool, .rws, .epochR162, .num 0, 0, 1⟩
/-- 0x2520:1B to :23 OaCounters (Table 9.8, R207). -/
def Obj.oaCounters : Row := ⟨0x2520, 262144, 0, 0x1B, 9, .uint 8, .ro, .none, .num 0, 0, 18446744073709551615⟩
/-- 0x2520:24 StrandedCells (Table 9.8, R207). -/
def Obj.strandedCells : Row := ⟨0x2520, 262144, 0, 0x24, 1, .uint 4, .ro, .none, .num 0, 0, 4294967295⟩
/-- 0x2540:01 ChannelSelect (Table 9.8, R207). -/
def Obj.bankChannelSelect : Row := ⟨0x2540, 65536, 0, 0x01, 1, .uint 4, .rw, .onWrite, .num 0, 0, 65535⟩
/-- 0x2540:02 BankCellsUsed (Table 9.8, R207). -/
def Obj.bankCellsUsed : Row := ⟨0x2540, 65536, 0, 0x02, 1, .uint 1, .ro, .none, .num 0, 0, 255⟩
/-- 0x2540:03 FillingFirstSlot (Table 9.8, R207). -/
def Obj.fillingFirstSlot : Row := ⟨0x2540, 65536, 0, 0x03, 1, .uint 8, .ro, .none, .num 0, 0, 18446744073709551615⟩
/-- 0x2540:04 DrainingFirstSlot (Table 9.8, R207). -/
def Obj.drainingFirstSlot : Row := ⟨0x2540, 65536, 0, 0x04, 1, .uint 8, .ro, .none, .num 0, 0, 18446744073709551615⟩
/-- 0x2540:05 BankSlotsOpen (Table 9.8, R207). -/
def Obj.bankSlotsOpen : Row := ⟨0x2540, 65536, 0, 0x05, 1, .uint 1, .ro, .none, .num 0, 0, 255⟩
/-- 0x2540:06 to :09 BankSlotCounters (Table 9.8, R207). -/
def Obj.bankSlotCounters : Row := ⟨0x2540, 65536, 0, 0x06, 4, .uint 8, .ro, .none, .num 0, 0, 18446744073709551615⟩
/-- 0x2540:0A BankPushesRefused (Table 9.8, R207). -/
def Obj.bankPushesRefused : Row := ⟨0x2540, 65536, 0, 0x0A, 1, .uint 4, .ro, .none, .num 0, 0, 4294967295⟩
/-- 0x2540:0B to :0D BankSlotsLate (Table 9.8, R207). -/
def Obj.bankSlotsLate : Row := ⟨0x2540, 65536, 0, 0x0B, 3, .uint 4, .ro, .none, .num 0, 0, 4294967295⟩
/-- 0x2540:0E EvidenceSlotsPushed (Table 9.8, R207). -/
def Obj.evidenceSlotsPushed : Row := ⟨0x2540, 65536, 0, 0x0E, 1, .uint 8, .ro, .none, .num 0, 0, 18446744073709551615⟩
/-- 0x2540:0F EvidenceSlotsRefused (Table 9.8, R207). -/
def Obj.evidenceSlotsRefused : Row := ⟨0x2540, 65536, 0, 0x0F, 1, .uint 8, .ro, .none, .num 0, 0, 18446744073709551615⟩
/-- 0x2540:10 SpeechBankSwaps (Table 9.8, R207). -/
def Obj.speechBankSwaps : Row := ⟨0x2540, 65536, 0, 0x10, 1, .uint 4, .ro, .none, .num 0, 0, 4294967295⟩
/-- 0x2800:01 TwinRole (Table 10.10, R221). -/
def Obj.twinRole : Row := ⟨0x2800, 1, 0, 0x01, 1, .uint 1, .ro, .none, .twinRole, 0, 255⟩
/-- 0x2800:02 TwinState (Table 10.10, R221). -/
def Obj.twinState : Row := ⟨0x2800, 1, 0, 0x02, 1, .uint 1, .ro, .none, .twinState, 0, 255⟩
/-- 0x2800:03 AdmissionLeader (Table 10.10, R221). -/
def Obj.admissionLeader : Row := ⟨0x2800, 1, 0, 0x03, 1, .uint 1, .ro, .none, .num 0, 0, 255⟩
/-- 0x2800:04 TwinLinkPort0 (Table 10.10, R221). -/
def Obj.twinLinkPort0 : Row := ⟨0x2800, 1, 0, 0x04, 1, .uint 1, .rw, .onWrite, .num 255, 0, 255⟩
/-- 0x2800:05 TwinLinkPort1 (Table 10.10, R221). -/
def Obj.twinLinkPort1 : Row := ⟨0x2800, 1, 0, 0x05, 1, .uint 1, .rw, .onWrite, .num 255, 0, 255⟩
/-- 0x2800:06 JoinEnable (Table 10.10, R221). -/
def Obj.joinEnable : Row := ⟨0x2800, 1, 0, 0x06, 1, .bool, .rws, .epoch, .num 1, 0, 1⟩
/-- 0x2800:07 TwinGuard (Table 10.10, R221). -/
def Obj.twinGuard : Row := ⟨0x2800, 1, 0, 0x07, 1, .uint 4, .const, .none, .num 1000000, 0, 4294967295⟩
/-- 0x2800:08 LinkLatencyLimit (Table 10.10, R221). -/
def Obj.linkLatencyLimit : Row := ⟨0x2800, 1, 0, 0x08, 1, .uint 4, .const, .none, .num 250000, 0, 4294967295⟩
/-- 0x2800:09 LinkLatency (Table 10.10, R221). -/
def Obj.linkLatency : Row := ⟨0x2800, 1, 0, 0x09, 1, .uint 4, .ro, .none, .num 0, 0, 4294967295⟩
/-- 0x2800:0A PartnerLossIntervals (Table 10.10, R221). -/
def Obj.partnerLossIntervals : Row := ⟨0x2800, 1, 0, 0x0A, 1, .uint 2, .rws, .epoch, .num 8, 2, 400⟩
/-- 0x2800:0B TickSkewLimit (Table 10.10, R221). -/
def Obj.tickSkewLimit : Row := ⟨0x2800, 1, 0, 0x0B, 1, .uint 4, .rws, .epoch, .num 100000, 1000, 1000000⟩
/-- 0x2800:0C TickSkew (Table 10.10, R221). -/
def Obj.tickSkew : Row := ⟨0x2800, 1, 0, 0x0C, 1, .int 4, .ro, .none, .num 0, (-2147483648), 2147483647⟩
/-- 0x2800:0D DivergenceLimit (Table 10.10, R221). -/
def Obj.divergenceLimit : Row := ⟨0x2800, 1, 0, 0x0D, 1, .uint 2, .rws, .epoch, .num 64, 1, 65535⟩
/-- 0x2800:0E TwinCommand (Table 10.10, R221). -/
def Obj.twinCommand : Row := ⟨0x2800, 1, 0, 0x0E, 1, .uint 1, .wo, .onWrite, .num 0, 1, 2⟩
/-- 0x2800:0F TwinLinkKey (Table 10.10, R221). -/
def Obj.twinLinkKey : Row := ⟨0x2800, 1, 0, 0x0F, 1, .octets 40, .wo, .onWrite, .num 0, 0, 2135987035920910082395021706169552114602704522356652769947041607822219725780640550022962086936575⟩
/-- 0x2800:10 TwinLinkKeyId (Table 10.10, R221). -/
def Obj.twinLinkKeyId : Row := ⟨0x2800, 1, 0, 0x10, 1, .uint 4, .ro, .none, .num 0, 0, 4294967295⟩
/-- 0x2800:11 JoinBoundary (Table 10.10, R221). -/
def Obj.joinBoundary : Row := ⟨0x2800, 1, 0, 0x11, 1, .uint 8, .ro, .none, .num 0, 0, 18446744073709551615⟩
/-- 0x2800:12 ConfigDigest (Table 10.10, R221). -/
def Obj.configDigest : Row := ⟨0x2800, 1, 0, 0x12, 1, .uint 4, .ro, .none, .num 0, 0, 4294967295⟩
/-- 0x2800:13 ConfigMismatches (Table 10.10, R221). -/
def Obj.configMismatches : Row := ⟨0x2800, 1, 0, 0x13, 1, .uint 4, .ro, .none, .num 0, 0, 4294967295⟩
/-- 0x2801:01 to :18 TwinCounters (Table 10.10, R221). -/
def Obj.twinCounters : Row := ⟨0x2801, 1, 0, 0x01, 24, .uint 8, .ro, .none, .num 0, 0, 18446744073709551615⟩
/-- 0x2820:01 ChannelSelect (Table 10.10, R221). -/
def Obj.twinChannelSelect : Row := ⟨0x2820, 65536, 0, 0x01, 1, .uint 4, .rw, .onWrite, .num 0, 0, 65535⟩
/-- 0x2820:02 TwinChannelState (Table 10.10, R221). -/
def Obj.twinChannelState : Row := ⟨0x2820, 65536, 0, 0x02, 1, .uint 1, .ro, .none, .num 0, 0, 255⟩
/-- 0x2820:03 DivergenceTick (Table 10.10, R221). -/
def Obj.divergenceTick : Row := ⟨0x2820, 65536, 0, 0x03, 1, .uint 8, .ro, .none, .num 0, 0, 18446744073709551615⟩
/-- 0x2820:04 DivergenceCause (Table 10.10, R221). -/
def Obj.divergenceCause : Row := ⟨0x2820, 65536, 0, 0x04, 1, .uint 1, .ro, .none, .num 0, 0, 255⟩
/-- 0x2820:05 LocalCause (Table 10.10, R221). -/
def Obj.twinLocalCause : Row := ⟨0x2820, 65536, 0, 0x05, 1, .uint 1, .ro, .none, .num 0, 0, 255⟩
/-- 0x2820:06 ChannelFetched (Table 10.10, R221). -/
def Obj.channelFetched : Row := ⟨0x2820, 65536, 0, 0x06, 1, .uint 4, .ro, .none, .num 0, 0, 4294967295⟩
/-- 0x2820:07 LastFrameTick (Table 10.10, R221). -/
def Obj.lastFrameTick : Row := ⟨0x2820, 65536, 0, 0x07, 1, .uint 8, .ro, .none, .num 0, 0, 18446744073709551615⟩
/-- 0x2820:08 LastLedgerDigest (Table 10.10, R221). -/
def Obj.lastLedgerDigest : Row := ⟨0x2820, 65536, 0, 0x08, 1, .uint 4, .ro, .none, .num 0, 0, 4294967295⟩
/-- 0x2820:09 LastOutputDigest (Table 10.10, R221). -/
def Obj.lastOutputDigest : Row := ⟨0x2820, 65536, 0, 0x09, 1, .uint 8, .ro, .none, .num 0, 0, 18446744073709551615⟩
/-- 0x2900:01 CompressorCount (Table 11.10, R238). -/
def Obj.compressorCount : Row := ⟨0x2900, 1, 0, 0x01, 1, .uint 1, .const, .none, .num 4, 0, 255⟩
/-- 0x2900:02 ContextCount (Table 11.10, R238). -/
def Obj.contextCount : Row := ⟨0x2900, 1, 0, 0x02, 1, .uint 4, .const, .none, .num 65536, 0, 4294967295⟩
/-- 0x2900:03 ContextBytes (Table 11.10, R238). -/
def Obj.contextBytes : Row := ⟨0x2900, 1, 0, 0x03, 1, .uint 4, .const, .none, .num 33792, 0, 4294967295⟩
/-- 0x2900:04 ContextBase (Table 11.10, R238). -/
def Obj.contextBase : Row := ⟨0x2900, 1, 0, 0x04, 1, .uint 8, .const, .none, .num 1103269724160, 0, 18446744073709551615⟩
/-- 0x2900:05 StagingBase (Table 11.10, R238). -/
def Obj.stagingBase : Row := ⟨0x2900, 1, 0, 0x05, 1, .uint 8, .const, .none, .num 1105484316672, 0, 18446744073709551615⟩
/-- 0x2900:06 StagingBytes (Table 11.10, R238). -/
def Obj.stagingBytes : Row := ⟨0x2900, 1, 0, 0x06, 1, .uint 8, .ro, .none, .num 0, 0, 18446744073709551615⟩
/-- 0x2900:07 BlockTicks (Table 11.10, R238). -/
def Obj.blockTicks : Row := ⟨0x2900, 1, 0, 0x07, 1, .uint 2, .rws, .epoch, .num 400, 40, 800⟩
/-- 0x2900:08 RestartBlocks (Table 11.10, R238). -/
def Obj.restartBlocks : Row := ⟨0x2900, 1, 0, 0x08, 1, .uint 2, .rws, .epoch, .num 60, 1, 3600⟩
/-- 0x2900:09 DefaultEffort (Table 11.10, R238). -/
def Obj.defaultEffort : Row := ⟨0x2900, 1, 0, 0x09, 1, .uint 1, .rws, .epoch, .num 1, 0, 3⟩
/-- 0x2900:0A DefaultTransform (Table 11.10, R238). -/
def Obj.defaultTransform : Row := ⟨0x2900, 1, 0, 0x0A, 1, .bool, .rws, .epoch, .num 1, 0, 1⟩
/-- 0x2900:0B StagingBlocks (Table 11.10, R238). -/
def Obj.stagingBlocks : Row := ⟨0x2900, 1, 0, 0x0B, 1, .uint 1, .rws, .epoch, .num 3, 2, 8⟩
/-- 0x2900:0C EventAreaBytes (Table 11.10, R238). -/
def Obj.eventAreaBytes : Row := ⟨0x2900, 1, 0, 0x0C, 1, .uint 2, .rws, .epoch, .num 4096, 1024, 16384⟩
/-- 0x2900:0D CaptureBlockLimit (Table 11.10, R238). -/
def Obj.captureBlockLimit : Row := ⟨0x2900, 1, 0, 0x0D, 1, .uint 4, .rws, .epoch, .num 262144, 65536, 1048576⟩
/-- 0x2900:0E StreamsOpen (Table 11.10, R238). -/
def Obj.streamsOpen : Row := ⟨0x2900, 1, 0, 0x0E, 1, .uint 4, .ro, .none, .num 0, 0, 4294967295⟩
/-- 0x2900:0F JobsQueued (Table 11.10, R238). -/
def Obj.jobsQueued : Row := ⟨0x2900, 1, 0, 0x0F, 1, .uint 4, .ro, .none, .num 0, 0, 4294967295⟩
/-- 0x2900:10 JobsCompleted (Table 11.10, R238). -/
def Obj.jobsCompleted : Row := ⟨0x2900, 1, 0, 0x10, 1, .uint 8, .ro, .none, .num 0, 0, 18446744073709551615⟩
/-- 0x2900:11 Suspensions (Table 11.10, R238). -/
def Obj.suspensions : Row := ⟨0x2900, 1, 0, 0x11, 1, .uint 8, .ro, .none, .num 0, 0, 18446744073709551615⟩
/-- 0x2900:12 Aborts (Table 11.10, R238). -/
def Obj.aborts : Row := ⟨0x2900, 1, 0, 0x12, 1, .uint 8, .ro, .none, .num 0, 0, 18446744073709551615⟩
/-- 0x2900:13 JobRestarts (Table 11.10, R238). -/
def Obj.jobRestarts : Row := ⟨0x2900, 1, 0, 0x13, 1, .uint 8, .ro, .none, .num 0, 0, 18446744073709551615⟩
/-- 0x2900:14 BlocksNotMade (Table 11.10, R238). -/
def Obj.blocksNotMade : Row := ⟨0x2900, 1, 0, 0x14, 1, .uint 8, .ro, .none, .num 0, 0, 18446744073709551615⟩
/-- 0x2910:01 UnitState (Table 11.10, R238). -/
def Obj.compUnitState : Row := ⟨0x2910, 4, 1, 0x01, 1, .uint 1, .ro, .none, .num 0, 0, 255⟩
/-- 0x2910:02 CurrentStream (Table 11.10, R238). -/
def Obj.compCurrentStream : Row := ⟨0x2910, 4, 1, 0x02, 1, .uint 4, .ro, .none, .num 4294967295, 0, 4294967295⟩
/-- 0x2910:03 UnitInputBytes (Table 11.10, R238). -/
def Obj.unitInputBytes : Row := ⟨0x2910, 4, 1, 0x03, 1, .uint 8, .ro, .none, .num 0, 0, 18446744073709551615⟩
/-- 0x2910:04 UnitOutputBytes (Table 11.10, R238). -/
def Obj.unitOutputBytes : Row := ⟨0x2910, 4, 1, 0x04, 1, .uint 8, .ro, .none, .num 0, 0, 18446744073709551615⟩
/-- 0x2910:05 UnitJobs (Table 11.10, R238). -/
def Obj.unitJobs : Row := ⟨0x2910, 4, 1, 0x05, 1, .uint 8, .ro, .none, .num 0, 0, 18446744073709551615⟩
/-- 0x2910:06 UnitBusy (Table 11.10, R238). -/
def Obj.unitBusy : Row := ⟨0x2910, 4, 1, 0x06, 1, .uint 2, .ro, .none, .num 0, 0, 65535⟩
/-- 0x2910:07 UnitCommand (Table 11.10, R238). -/
def Obj.compUnitCommand : Row := ⟨0x2910, 4, 1, 0x07, 1, .uint 1, .wo, .onWrite, .num 0, 1, 1⟩
/-- 0x2920:01 StreamSelect (Table 11.10, R238). -/
def Obj.streamSelect : Row := ⟨0x2920, 65536, 0, 0x01, 1, .uint 4, .rw, .onWrite, .num 0, 0, 65535⟩
/-- 0x2920:02 StreamKind (Table 11.10, R238). -/
def Obj.streamKind : Row := ⟨0x2920, 65536, 0, 0x02, 1, .uint 1, .rws, .epoch, .num 0, 0, 2⟩
/-- 0x2920:03 StreamState (Table 11.10, R238). -/
def Obj.streamState : Row := ⟨0x2920, 65536, 0, 0x03, 1, .uint 1, .ro, .none, .num 0, 0, 255⟩
/-- 0x2920:04 Effort (Table 11.10, R238). -/
def Obj.streamEffort : Row := ⟨0x2920, 65536, 0, 0x04, 1, .uint 1, .rws, .epoch, .num 1, 0, 3⟩
/-- 0x2920:05 Transform (Table 11.10, R238). -/
def Obj.streamTransform : Row := ⟨0x2920, 65536, 0, 0x05, 1, .bool, .rws, .epoch, .num 1, 0, 1⟩
/-- 0x2920:06 SourceNumber (Table 11.10, R238). -/
def Obj.streamSourceNumber : Row := ⟨0x2920, 65536, 0, 0x06, 1, .uint 4, .ro, .none, .num 0, 0, 4294967295⟩
/-- 0x2920:07 OpenTick (Table 11.10, R238). -/
def Obj.streamOpenTick : Row := ⟨0x2920, 65536, 0, 0x07, 1, .uint 8, .ro, .none, .num 0, 0, 18446744073709551615⟩
/-- 0x2920:08 NextBlockIndex (Table 11.10, R238). -/
def Obj.nextBlockIndex : Row := ⟨0x2920, 65536, 0, 0x08, 1, .uint 4, .ro, .none, .num 0, 0, 4294967295⟩
/-- 0x2920:09 StagedBlocks (Table 11.10, R238). -/
def Obj.stagedBlocks : Row := ⟨0x2920, 65536, 0, 0x09, 1, .uint 1, .ro, .none, .num 0, 0, 255⟩
/-- 0x2920:0A JobState (Table 11.10, R238). -/
def Obj.streamJobState : Row := ⟨0x2920, 65536, 0, 0x0A, 1, .uint 1, .ro, .none, .num 0, 0, 255⟩
/-- 0x2920:0B SlotsReceived (Table 11.10, R238). -/
def Obj.slotsReceived : Row := ⟨0x2920, 65536, 0, 0x0B, 1, .uint 8, .ro, .none, .num 0, 0, 18446744073709551615⟩
/-- 0x2920:0C SlotsRefused (Table 11.10, R238). -/
def Obj.slotsRefused : Row := ⟨0x2920, 65536, 0, 0x0C, 1, .uint 8, .ro, .none, .num 0, 0, 18446744073709551615⟩
/-- 0x2920:0D CaptureFrames (Table 11.10, R238). -/
def Obj.captureFrames : Row := ⟨0x2920, 65536, 0, 0x0D, 1, .uint 8, .ro, .none, .num 0, 0, 18446744073709551615⟩
/-- 0x2920:0E CaptureRefused (Table 11.10, R238). -/
def Obj.captureRefused : Row := ⟨0x2920, 65536, 0, 0x0E, 1, .uint 8, .ro, .none, .num 0, 0, 18446744073709551615⟩
/-- 0x2920:0F EventsOffered (Table 11.10, R238). -/
def Obj.eventsOffered : Row := ⟨0x2920, 65536, 0, 0x0F, 1, .uint 8, .ro, .none, .num 0, 0, 18446744073709551615⟩
/-- 0x2920:10 EventsRecorded (Table 11.10, R238). -/
def Obj.eventsRecorded : Row := ⟨0x2920, 65536, 0, 0x10, 1, .uint 8, .ro, .none, .num 0, 0, 18446744073709551615⟩
/-- 0x2920:11 EventsRefused (Table 11.10, R238). -/
def Obj.eventsRefused : Row := ⟨0x2920, 65536, 0, 0x11, 1, .uint 8, .ro, .none, .num 0, 0, 18446744073709551615⟩
/-- 0x2920:12 StreamInputBytes (Table 11.10, R238). -/
def Obj.streamInputBytes : Row := ⟨0x2920, 65536, 0, 0x12, 1, .uint 8, .ro, .none, .num 0, 0, 18446744073709551615⟩
/-- 0x2920:13 StreamOutputBytes (Table 11.10, R238). -/
def Obj.streamOutputBytes : Row := ⟨0x2920, 65536, 0, 0x13, 1, .uint 8, .ro, .none, .num 0, 0, 18446744073709551615⟩
/-- 0x2A00:01 CheckChannelCount (Table 12.13, R254). -/
def Obj.checkChannelCount : Row := ⟨0x2A00, 1, 0, 0x01, 1, .uint 1, .const, .none, .num 16, 0, 255⟩
/-- 0x2A00:02 CheckRateFloor (Table 12.13, R254). -/
def Obj.checkRateFloor : Row := ⟨0x2A00, 1, 0, 0x02, 1, .uint 4, .const, .none, .num 10000, 0, 4294967295⟩
/-- 0x2A00:03 StoreSealMask (Table 12.13, R254). -/
def Obj.storeSealMask : Row := ⟨0x2A00, 1, 0, 0x03, 1, .uint 2, .rws, .epoch, .num 65535, 0, 65535⟩
/-- 0x2A00:04 SegmentBytes (Table 12.13, R254). -/
def Obj.segmentBytes : Row := ⟨0x2A00, 1, 0, 0x04, 1, .uint 4, .const, .none, .num 4194304, 0, 4294967295⟩
/-- 0x2A00:05 StoreState (Table 12.13, R254). -/
def Obj.storeState : Row := ⟨0x2A00, 1, 0, 0x05, 1, .uint 1, .ro, .none, .num 0, 0, 255⟩
/-- 0x2A00:06 RingIdentity (Table 12.13, R254). -/
def Obj.ringIdentity : Row := ⟨0x2A00, 1, 0, 0x06, 1, .uint 4, .ro, .none, .num 0, 0, 4294967295⟩
/-- 0x2A00:07 TotalSlots (Table 12.13, R254). -/
def Obj.totalSlots : Row := ⟨0x2A00, 1, 0, 0x07, 1, .uint 4, .ro, .none, .num 0, 0, 4294967295⟩
/-- 0x2A00:08 WritePointSegment (Table 12.13, R254). -/
def Obj.writePointSegment : Row := ⟨0x2A00, 1, 0, 0x08, 1, .uint 8, .ro, .none, .num 0, 0, 18446744073709551615⟩
/-- 0x2A00:09 WritePointOffset (Table 12.13, R254). -/
def Obj.writePointOffset : Row := ⟨0x2A00, 1, 0, 0x09, 1, .uint 4, .ro, .none, .num 0, 0, 4294967295⟩
/-- 0x2A00:0A OldestSegment (Table 12.13, R254). -/
def Obj.oldestSegment : Row := ⟨0x2A00, 1, 0, 0x0A, 1, .uint 8, .ro, .none, .num 0, 0, 18446744073709551615⟩
/-- 0x2A00:0B HoldSegment (Table 12.13, R254). -/
def Obj.holdSegment : Row := ⟨0x2A00, 1, 0, 0x0B, 1, .uint 8, .rws, .epoch, .num 0, 0, 18446744073709551615⟩
/-- 0x2A00:0C SegmentCloseTime (Table 12.13, R254). -/
def Obj.segmentCloseTime : Row := ⟨0x2A00, 1, 0, 0x0C, 1, .uint 4, .rws, .epoch, .num 60000, 1000, 3600000⟩
/-- 0x2A00:0D OutputPoolPages (Table 12.13, R254). -/
def Obj.outputPoolPages : Row := ⟨0x2A00, 1, 0, 0x0D, 1, .uint 4, .rw, .nextStart, .num 32768, 4096, 262144⟩
/-- 0x2A00:0E OutputPagesFree (Table 12.13, R254). -/
def Obj.outputPagesFree : Row := ⟨0x2A00, 1, 0, 0x0E, 1, .uint 4, .ro, .none, .num 0, 0, 4294967295⟩
/-- 0x2A00:0F StoreWriteRate (Table 12.13, R254). -/
def Obj.storeWriteRate : Row := ⟨0x2A00, 1, 0, 0x0F, 1, .uint 4, .ro, .none, .num 0, 0, 4294967295⟩
/-- 0x2A00:10 RetentionEstimate (Table 12.13, R254). -/
def Obj.retentionEstimate : Row := ⟨0x2A00, 1, 0, 0x10, 1, .uint 8, .ro, .none, .num 0, 0, 18446744073709551615⟩
/-- 0x2A00:11 StoreCommand (Table 12.13, R254). -/
def Obj.storeCommand : Row := ⟨0x2A00, 1, 0, 0x11, 1, .uint 1, .wo, .onWrite, .num 0, 0, 255⟩
/-- 0x2A00:12 FormatIdentity (Table 12.13, R254). -/
def Obj.formatIdentity : Row := ⟨0x2A00, 1, 0, 0x12, 1, .uint 4, .wo, .onWrite, .num 0, 0, 4294967295⟩
/-- 0x2A00:13 LastScanMode (Table 12.13, R254). -/
def Obj.lastScanMode : Row := ⟨0x2A00, 1, 0, 0x13, 1, .uint 1, .ro, .none, .num 0, 0, 255⟩
/-- 0x2A00:14 LastScanTime (Table 12.13, R254). -/
def Obj.lastScanTime : Row := ⟨0x2A00, 1, 0, 0x14, 1, .uint 4, .ro, .none, .num 0, 0, 4294967295⟩
/-- 0x2A00:15 ChainBreaks (Table 12.13, R254). -/
def Obj.chainBreaks : Row := ⟨0x2A00, 1, 0, 0x15, 1, .uint 4, .ro, .none, .num 0, 0, 4294967295⟩
/-- 0x2A00:16 to :1E StoreCounters (Table 12.13, R254). -/
def Obj.storeCounters : Row := ⟨0x2A00, 1, 0, 0x16, 9, .uint 8, .ro, .none, .num 0, 0, 18446744073709551615⟩
/-- 0x2A00:1F LastTickStored (Table 12.13, R254). -/
def Obj.lastTickStored : Row := ⟨0x2A00, 1, 0, 0x1F, 1, .uint 8, .ro, .none, .num 0, 0, 18446744073709551615⟩
/-- 0x2A10:01 ChannelState (Table 12.13, R254). -/
def Obj.checkChannelState : Row := ⟨0x2A10, 16, 1, 0x01, 1, .uint 1, .ro, .none, .num 0, 0, 255⟩
/-- 0x2A10:02 JobQueue (Table 12.13, R254). -/
def Obj.jobQueue : Row := ⟨0x2A10, 16, 1, 0x02, 1, .uint 4, .const, .none, .jobQueue, 0, 4294967295⟩
/-- 0x2A10:03 JobsDone (Table 12.13, R254). -/
def Obj.jobsDone : Row := ⟨0x2A10, 16, 1, 0x03, 1, .uint 8, .ro, .none, .num 0, 0, 18446744073709551615⟩
/-- 0x2A10:04 JobsFailed (Table 12.13, R254). -/
def Obj.jobsFailed : Row := ⟨0x2A10, 16, 1, 0x04, 1, .uint 8, .ro, .none, .num 0, 0, 18446744073709551615⟩
/-- 0x2A10:05 BytesChecked (Table 12.13, R254). -/
def Obj.bytesChecked : Row := ⟨0x2A10, 16, 1, 0x05, 1, .uint 8, .ro, .none, .num 0, 0, 18446744073709551615⟩
/-- 0x2A10:06 SealJobs (Table 12.13, R254). -/
def Obj.sealJobs : Row := ⟨0x2A10, 16, 1, 0x06, 1, .uint 8, .ro, .none, .num 0, 0, 18446744073709551615⟩
/-- 0x2A10:07 FirmwareSuspensions (Table 12.13, R254). -/
def Obj.firmwareSuspensions : Row := ⟨0x2A10, 16, 1, 0x07, 1, .uint 8, .ro, .none, .num 0, 0, 18446744073709551615⟩
/-- 0x2A10:08 ResultsRefused (Table 12.13, R254). -/
def Obj.resultsRefused : Row := ⟨0x2A10, 16, 1, 0x08, 1, .uint 4, .ro, .none, .num 0, 0, 4294967295⟩
/-- 0x2A10:09 ChannelBusy (Table 12.13, R254). -/
def Obj.channelBusy : Row := ⟨0x2A10, 16, 1, 0x09, 1, .uint 2, .ro, .none, .num 0, 0, 65535⟩
/-- 0x2A30:01 LinkUp (Table 12.13, R254). -/
def Obj.pcieLinkUp : Row := ⟨0x2A30, 2, 1, 0x01, 1, .bool, .ro, .none, .num 0, 0, 1⟩
/-- 0x2A30:02 LinkSpeed (Table 12.13, R254). -/
def Obj.pcieLinkSpeed : Row := ⟨0x2A30, 2, 1, 0x02, 1, .uint 1, .ro, .none, .num 0, 0, 255⟩
/-- 0x2A30:03 LinkWidth (Table 12.13, R254). -/
def Obj.pcieLinkWidth : Row := ⟨0x2A30, 2, 1, 0x03, 1, .uint 1, .ro, .none, .num 0, 0, 255⟩
/-- 0x2A30:04 NamespaceId1 (Table 12.13, R254). -/
def Obj.namespaceId1 : Row := ⟨0x2A30, 2, 1, 0x04, 1, .uint 4, .rw, .onWrite, .num 1, 0, 4294967295⟩
/-- 0x2A30:05 NamespaceId2 (Table 12.13, R254). -/
def Obj.namespaceId2 : Row := ⟨0x2A30, 2, 1, 0x05, 1, .uint 4, .rw, .onWrite, .num 0, 0, 4294967295⟩
/-- 0x2A30:06 NamespaceState1 (Table 12.13, R254). -/
def Obj.namespaceState1 : Row := ⟨0x2A30, 2, 1, 0x06, 1, .uint 1, .ro, .none, .num 0, 0, 255⟩
/-- 0x2A30:07 NamespaceState2 (Table 12.13, R254). -/
def Obj.namespaceState2 : Row := ⟨0x2A30, 2, 1, 0x07, 1, .uint 1, .ro, .none, .num 0, 0, 255⟩
/-- 0x2A30:08 Capacity1 (Table 12.13, R254). -/
def Obj.nsCapacity1 : Row := ⟨0x2A30, 2, 1, 0x08, 1, .uint 8, .ro, .none, .num 0, 0, 18446744073709551615⟩
/-- 0x2A30:09 Capacity2 (Table 12.13, R254). -/
def Obj.nsCapacity2 : Row := ⟨0x2A30, 2, 1, 0x09, 1, .uint 8, .ro, .none, .num 0, 0, 18446744073709551615⟩
/-- 0x2A30:0A LbaBytes (Table 12.13, R254). -/
def Obj.lbaBytes : Row := ⟨0x2A30, 2, 1, 0x0A, 1, .uint 4, .ro, .none, .num 0, 0, 4294967295⟩
/-- 0x2A30:0B WriteCommands (Table 12.13, R254). -/
def Obj.writeCommands : Row := ⟨0x2A30, 2, 1, 0x0B, 1, .uint 8, .ro, .none, .num 0, 0, 18446744073709551615⟩
/-- 0x2A30:0C ReadCommands (Table 12.13, R254). -/
def Obj.readCommands : Row := ⟨0x2A30, 2, 1, 0x0C, 1, .uint 8, .ro, .none, .num 0, 0, 18446744073709551615⟩
/-- 0x2A30:0D CommandErrors (Table 12.13, R254). -/
def Obj.commandErrors : Row := ⟨0x2A30, 2, 1, 0x0D, 1, .uint 4, .ro, .none, .num 0, 0, 4294967295⟩
/-- 0x2A30:0E PortRetries (Table 12.13, R254). -/
def Obj.portRetries : Row := ⟨0x2A30, 2, 1, 0x0E, 1, .uint 4, .ro, .none, .num 0, 0, 4294967295⟩
/-- 0x2A30:0F VolatileCache (Table 12.13, R254). -/
def Obj.volatileCache : Row := ⟨0x2A30, 2, 1, 0x0F, 1, .bool, .ro, .none, .num 0, 0, 1⟩
/-- 0x2A60:01 SegmentSelect (Table 12.13, R254). -/
def Obj.segmentSelect : Row := ⟨0x2A60, 18446744073709551616, 0, 0x01, 1, .uint 8, .rw, .onWrite, .num 0, 0, 18446744073709551615⟩
/-- 0x2A60:02 SegmentHeader (Table 12.13, R254). -/
def Obj.segmentHeader : Row := ⟨0x2A60, 18446744073709551616, 0, 0x02, 1, .domain, .ro, .none, .num 0, 0, 0⟩
/-- 0x2A60:03 SegmentData (Table 12.13, R254). -/
def Obj.segmentData : Row := ⟨0x2A60, 18446744073709551616, 0, 0x03, 1, .domain, .ro, .none, .num 0, 0, 0⟩
/-- 0x2A60:04 SegmentStatus (Table 12.13, R254). -/
def Obj.segmentStatus : Row := ⟨0x2A60, 18446744073709551616, 0, 0x04, 1, .uint 1, .ro, .none, .num 0, 0, 255⟩
/-- 0x2B00:01 LineShellEnable (Table 13.6, R271). -/
def Obj.lineShellEnable : Row := ⟨0x2B00, 1, 0, 0x01, 1, .bool, .rw, .onWrite, .lineShell, 0, 1⟩
/-- 0x2B00:02 PortsPowered (Table 13.6, R271). -/
def Obj.portsPowered : Row := ⟨0x2B00, 1, 0, 0x02, 1, .uint 1, .ro, .none, .portsPowered, 0, 255⟩
/-- 0x2B00:03 ModulatorRate (Table 13.6, R271). -/
def Obj.modulatorRate : Row := ⟨0x2B00, 1, 0, 0x03, 1, .uint 4, .const, .none, .num 6144000, 0, 4294967295⟩
/-- 0x2B00:04 PllState (Table 13.6, R271). -/
def Obj.pllState : Row := ⟨0x2B00, 1, 0, 0x04, 1, .uint 1, .ro, .none, .num 0, 0, 255⟩
/-- 0x2B00:05 PllUnlocks (Table 13.6, R271). -/
def Obj.pllUnlocks : Row := ⟨0x2B00, 1, 0, 0x05, 1, .uint 4, .ro, .none, .num 0, 0, 4294967295⟩
/-- 0x2B00:06 DefaultPreset (Table 13.6, R271). -/
def Obj.defaultPreset : Row := ⟨0x2B00, 1, 0, 0x06, 1, .uint 1, .ro, .none, .linePreset, 0, 255⟩
/-- 0x2B00:07 CalibrationState (Table 13.6, R271). -/
def Obj.calibrationState : Row := ⟨0x2B00, 1, 0, 0x07, 1, .uint 1, .ro, .none, .num 0, 0, 255⟩
/-- 0x2B00:08 CalibrationTemperature (Table 13.6, R271). -/
def Obj.calibrationTemperature : Row := ⟨0x2B00, 1, 0, 0x08, 1, .int 2, .ro, .none, .calibrated 2, (-32768), 32767⟩
/-- 0x2B00:09 LineDieTemperature (Table 13.6, R271). -/
def Obj.lineDieTemperature : Row := ⟨0x2B00, 1, 0, 0x09, 1, .int 2, .ro, .none, .num 0, (-32768), 32767⟩
/-- 0x2B00:0A CalDriftLimit (Table 13.6, R271). -/
def Obj.calDriftLimit : Row := ⟨0x2B00, 1, 0, 0x0A, 1, .uint 2, .const, .none, .num 100, 0, 65535⟩
/-- 0x2B00:0B SyncPinMask (Table 13.6, R271). -/
def Obj.syncPinMask : Row := ⟨0x2B00, 1, 0, 0x0B, 1, .uint 8, .rws, .epoch, .num 18446744073709551615, 0, 18446744073709551615⟩
/-- 0x2B00:0C SyncPinEdge (Table 13.6, R271). -/
def Obj.syncPinEdge : Row := ⟨0x2B00, 1, 0, 0x0C, 1, .uint 1, .rws, .epoch, .num 1, 0, 2⟩
/-- 0x2B00:0D SyncCommand (Table 13.6, R271). -/
def Obj.syncCommand : Row := ⟨0x2B00, 1, 0, 0x0D, 1, .octets 16, .wo, .onWrite, .num 0, 0, 340282366920938463463374607431768211455⟩
/-- 0x2B00:0E SyncEvents (Table 13.6, R271). -/
def Obj.syncEvents : Row := ⟨0x2B00, 1, 0, 0x0E, 1, .uint 4, .ro, .none, .num 0, 0, 4294967295⟩
/-- 0x2B00:0F LastSyncSource (Table 13.6, R271). -/
def Obj.lastSyncSource : Row := ⟨0x2B00, 1, 0, 0x0F, 1, .uint 1, .ro, .none, .num 0, 0, 255⟩
/-- 0x2B00:10 LastSyncTick (Table 13.6, R271). -/
def Obj.lastSyncTick : Row := ⟨0x2B00, 1, 0, 0x10, 1, .uint 8, .ro, .none, .num 0, 0, 18446744073709551615⟩
/-- base:01 PortEnable (Table 13.6, R271). -/
def Obj.portEnable : Row := ⟨0x2B40, 64, 1, 0x01, 1, .bool, .rws, .epoch, .lineShell, 0, 1⟩
/-- base:02 LineMode (Table 13.6, R271). -/
def Obj.lineMode : Row := ⟨0x2B40, 64, 1, 0x02, 1, .uint 1, .rws, .epoch, .num 0, 0, 3⟩
/-- base:03 Preset (Table 13.6, R271). -/
def Obj.preset : Row := ⟨0x2B40, 64, 1, 0x03, 1, .uint 1, .rws, .epoch, .linePreset, 0, 4⟩
/-- base:04 CicLength (Table 13.6, R271). -/
def Obj.cicLength : Row := ⟨0x2B40, 64, 1, 0x04, 1, .uint 2, .rws, .epoch, .cicLength, 4, 256⟩
/-- base:05 CicOrder (Table 13.6, R271). -/
def Obj.cicOrder : Row := ⟨0x2B40, 64, 1, 0x05, 1, .uint 1, .rws, .epoch, .cicOrder, 1, 4⟩
/-- base:06 FirDecimation (Table 13.6, R271). -/
def Obj.firDecimation : Row := ⟨0x2B40, 64, 1, 0x06, 1, .uint 1, .rws, .epoch, .firDecimation, 1, 8⟩
/-- base:07 RxGain (Table 13.6, R271). -/
def Obj.rxGain : Row := ⟨0x2B40, 64, 1, 0x07, 1, .int 2, .rws, .epoch, .num 0, (-120), 120⟩
/-- base:08 TxGain (Table 13.6, R271). -/
def Obj.txGain : Row := ⟨0x2B40, 64, 1, 0x08, 1, .int 2, .rws, .epoch, .num 0, (-120), 120⟩
/-- base:09 Balance (Table 13.6, R271). -/
def Obj.balance : Row := ⟨0x2B40, 64, 1, 0x09, 1, .uint 1, .rws, .epoch, .num 2, 0, 255⟩
/-- base:0A DcShift (Table 13.6, R271). -/
def Obj.dcShift : Row := ⟨0x2B40, 64, 1, 0x0A, 1, .uint 1, .rws, .epoch, .num 10, 6, 16⟩
/-- base:0B DcFreeze (Table 13.6, R271). -/
def Obj.dcFreeze : Row := ⟨0x2B40, 64, 1, 0x0B, 1, .bool, .rw, .onWrite, .num 0, 0, 1⟩
/-- base:0C DcEstimate (Table 13.6, R271). -/
def Obj.dcEstimate : Row := ⟨0x2B40, 64, 1, 0x0C, 1, .int 4, .ro, .none, .num 0, (-2147483648), 2147483647⟩
/-- base:0D TxSource (Table 13.6, R271). -/
def Obj.txSource : Row := ⟨0x2B40, 64, 1, 0x0D, 1, .uint 1, .rws, .epoch, .num 0, 0, 2⟩
/-- base:0E MonitorQueue (Table 13.6, R271). -/
def Obj.monitorQueue : Row := ⟨0x2B40, 64, 1, 0x0E, 1, .uint 4, .rws, .epoch, .num 4294967295, 0, 4294967295⟩
/-- base:0F TxQueue (Table 13.6, R271). -/
def Obj.txQueue : Row := ⟨0x2B40, 64, 1, 0x0F, 1, .uint 4, .rws, .epoch, .num 4294967295, 0, 4294967295⟩
/-- base:10 OutputRate (Table 13.6, R271). -/
def Obj.outputRate : Row := ⟨0x2B40, 64, 1, 0x10, 1, .uint 4, .ro, .none, .outputRate, 0, 4294967295⟩
/-- base:11 GroupDelay (Table 13.6, R271). -/
def Obj.groupDelay : Row := ⟨0x2B40, 64, 1, 0x11, 1, .uint 4, .ro, .none, .groupDelay, 0, 4294967295⟩
/-- base:12 SettlingCount (Table 13.6, R271). -/
def Obj.settlingCount : Row := ⟨0x2B40, 64, 1, 0x12, 1, .uint 1, .ro, .none, .settlingCount, 0, 255⟩
/-- base:13 BoundChannel (Table 13.6, R271). -/
def Obj.lineBoundChannel : Row := ⟨0x2B40, 64, 1, 0x13, 1, .uint 4, .ro, .none, .num 4294967295, 0, 4294967295⟩
/-- base:14 UnsettledRemaining (Table 13.6, R271). -/
def Obj.unsettledRemaining : Row := ⟨0x2B40, 64, 1, 0x14, 1, .uint 1, .ro, .none, .num 0, 0, 255⟩
/-- base:15 to :1C LineCounters (Table 13.6, R271). -/
def Obj.lineCounters : Row := ⟨0x2B40, 64, 1, 0x15, 8, .uint 8, .ro, .none, .num 0, 0, 18446744073709551615⟩
/-- base:1D PortSyncResets (Table 13.6, R271). -/
def Obj.portSyncResets : Row := ⟨0x2B40, 64, 1, 0x1D, 1, .uint 4, .ro, .none, .num 0, 0, 4294967295⟩
/-- base:1E CalOffsetRx (Table 13.6, R271). -/
def Obj.calOffsetRx : Row := ⟨0x2B40, 64, 1, 0x1E, 1, .int 4, .ro, .none, .calibrated 3, (-2147483648), 2147483647⟩
/-- base:1F CalGainRx (Table 13.6, R271). -/
def Obj.calGainRx : Row := ⟨0x2B40, 64, 1, 0x1F, 1, .int 4, .ro, .none, .calibrated 4, (-2147483648), 2147483647⟩
/-- base:20 CalOffsetTx (Table 13.6, R271). -/
def Obj.calOffsetTx : Row := ⟨0x2B40, 64, 1, 0x20, 1, .int 4, .ro, .none, .calibrated 5, (-2147483648), 2147483647⟩
/-- base:21 CalGainTx (Table 13.6, R271). -/
def Obj.calGainTx : Row := ⟨0x2B40, 64, 1, 0x21, 1, .int 4, .ro, .none, .calibrated 6, (-2147483648), 2147483647⟩
/-- base:22 RecalibrateNow (Table 13.6, R271). -/
def Obj.recalibrateNow : Row := ⟨0x2B40, 64, 1, 0x22, 1, .bool, .wo, .onWrite, .num 0, 0, 1⟩
/-- 0x1000:00 DeviceType (Table 14.10, R293). -/
def Obj.deviceType : Row := ⟨0x1000, 1, 0, 0x00, 1, .uint 4, .const, .none, .num 1677721600, 0, 4294967295⟩
/-- 0x1001:00 ErrorRegister (Table 14.10, R293). -/
def Obj.errorRegister : Row := ⟨0x1001, 1, 0, 0x00, 1, .uint 1, .ro, .none, .num 0, 0, 255⟩
/-- 0x1003:00 ErrorCount (Table 14.10, R293). -/
def Obj.errorCount : Row := ⟨0x1003, 1, 0, 0x00, 1, .uint 1, .rw, .onWrite, .num 0, 0, 0⟩
/-- 0x1003:01 to :08 PreDefinedErrorField (Table 14.10, R293). -/
def Obj.preDefinedErrorField : Row := ⟨0x1003, 1, 0, 0x01, 8, .uint 4, .ro, .none, .num 0, 0, 4294967295⟩
/-- 0x1005:00 CobIdSync (Table 14.10, R293). -/
def Obj.cobIdSync : Row := ⟨0x1005, 1, 0, 0x00, 1, .uint 4, .rw, .onWrite, .num 128, 0, 4294967295⟩
/-- 0x1008:00 DeviceName (Table 14.10, R293). -/
def Obj.deviceName : Row := ⟨0x1008, 1, 0, 0x00, 1, .visible 8, .const, .none, .num 52983592539729, 0, 18446744073709551615⟩
/-- 0x1009:00 HardwareVersion (Table 14.10, R293). -/
def Obj.hardwareVersion : Row := ⟨0x1009, 1, 0, 0x00, 1, .visible 4, .const, .none, .num 66, 0, 4294967295⟩
/-- 0x100A:00 SoftwareVersion (Table 14.10, R293). -/
def Obj.softwareVersion : Row := ⟨0x100A, 1, 0, 0x00, 1, .visible 16, .ro, .none, .fused 0, 0, 340282366920938463463374607431768211455⟩
/-- 0x1014:00 CobIdEmcy (Table 14.10, R293). -/
def Obj.cobIdEmcy : Row := ⟨0x1014, 1, 0, 0x00, 1, .uint 4, .rw, .onWrite, .nodePlus 128, 0, 4294967295⟩
/-- 0x1015:00 InhibitTimeEmcy (Table 14.10, R293). -/
def Obj.inhibitTimeEmcy : Row := ⟨0x1015, 1, 0, 0x00, 1, .uint 2, .rw, .onWrite, .num 100, 0, 65535⟩
/-- 0x1016:01, :02 ConsumerHeartbeatTime (Table 14.10, R293). -/
def Obj.consumerHeartbeatTime : Row := ⟨0x1016, 1, 0, 0x01, 2, .uint 4, .rw, .onWrite, .num 0, 0, 4294967295⟩
/-- 0x1017:00 ProducerHeartbeatTime (Table 14.10, R293). -/
def Obj.producerHeartbeatTime : Row := ⟨0x1017, 1, 0, 0x00, 1, .uint 2, .rw, .onWrite, .num 1000, 0, 65535⟩
/-- 0x1018:01 VendorId (Table 14.10, R293). -/
def Obj.vendorId : Row := ⟨0x1018, 1, 0, 0x01, 1, .uint 4, .const, .none, .num 2940, 0, 4294967295⟩
/-- 0x1018:02 ProductCode (Table 14.10, R293). -/
def Obj.productCode : Row := ⟨0x1018, 1, 0, 0x02, 1, .uint 4, .const, .none, .num 409600, 0, 4294967295⟩
/-- 0x1018:03 RevisionNumber (Table 14.10, R293). -/
def Obj.revisionNumber : Row := ⟨0x1018, 1, 0, 0x03, 1, .uint 4, .ro, .none, .fused 1, 0, 4294967295⟩
/-- 0x1018:04 SerialNumber (Table 14.10, R293). -/
def Obj.serialNumber : Row := ⟨0x1018, 1, 0, 0x04, 1, .uint 4, .const, .none, .fused 2, 0, 4294967295⟩
/-- 0x2000:01 Tier (Table 14.11, R294). -/
def Obj.tierObj : Row := ⟨0x2000, 1, 0, 0x01, 1, .uint 1, .ro, .none, .tier, 0, 255⟩
/-- 0x2000:02 StrapWord (Table 14.11, R294). -/
def Obj.strapWord : Row := ⟨0x2000, 1, 0, 0x02, 1, .uint 2, .ro, .none, .strapWord, 0, 65535⟩
/-- 0x2000:03 Stepping (Table 14.11, R294). -/
def Obj.stepping : Row := ⟨0x2000, 1, 0, 0x03, 1, .uint 1, .const, .none, .num 2, 0, 255⟩
/-- 0x2000:04 TemperatureGrade (Table 14.11, R294). -/
def Obj.temperatureGrade : Row := ⟨0x2000, 1, 0, 0x04, 1, .uint 1, .const, .none, .fused 3, 0, 255⟩
/-- 0x2000:05 DeviceSerial (Table 14.11, R294). -/
def Obj.deviceSerial : Row := ⟨0x2000, 1, 0, 0x05, 1, .uint 8, .const, .none, .fused 4, 0, 18446744073709551615⟩
/-- 0x2000:06 FirmwareVersion (Table 14.11, R294). -/
def Obj.firmwareVersion : Row := ⟨0x2000, 1, 0, 0x06, 1, .uint 4, .ro, .none, .fused 5, 0, 4294967295⟩
/-- 0x2000:07 FirmwareImage (Table 14.11, R294). -/
def Obj.firmwareImage : Row := ⟨0x2000, 1, 0, 0x07, 1, .uint 1, .ro, .none, .num 0, 0, 255⟩
/-- 0x2000:08 PoweredHearths (Table 14.11, R294). -/
def Obj.poweredHearths : Row := ⟨0x2000, 1, 0, 0x08, 1, .uint 2, .ro, .none, .poweredHearths, 0, 65535⟩
/-- 0x2000:09 PoweredLanes (Table 14.11, R294). -/
def Obj.poweredLanes : Row := ⟨0x2000, 1, 0, 0x09, 1, .uint 4, .ro, .none, .poweredLanes, 0, 4294967295⟩
/-- 0x2000:0A PoweredDdr (Table 14.11, R294). -/
def Obj.poweredDdr : Row := ⟨0x2000, 1, 0, 0x0A, 1, .uint 1, .ro, .none, .poweredDdr, 0, 255⟩
/-- 0x2000:0B PoweredPcie (Table 14.11, R294). -/
def Obj.poweredPcie : Row := ⟨0x2000, 1, 0, 0x0B, 1, .uint 1, .ro, .none, .poweredPcie, 0, 255⟩
/-- 0x2000:0C PoweredCompressors (Table 14.11, R294). -/
def Obj.poweredCompressors : Row := ⟨0x2000, 1, 0, 0x0C, 1, .uint 1, .ro, .none, .poweredCompressors, 0, 255⟩
/-- 0x2000:0D PoweredCheckChannels (Table 14.11, R294). -/
def Obj.poweredCheckChannels : Row := ⟨0x2000, 1, 0, 0x0D, 1, .uint 2, .ro, .none, .poweredChecks, 0, 65535⟩
/-- 0x2000:0E PoweredLinePorts (Table 14.11, R294). -/
def Obj.poweredLinePorts : Row := ⟨0x2000, 1, 0, 0x0E, 1, .uint 8, .ro, .none, .poweredLines, 0, 18446744073709551615⟩
/-- 0x2000:0F NodeId (Table 14.11, R294). -/
def Obj.nodeId : Row := ⟨0x2000, 1, 0, 0x0F, 1, .uint 1, .ro, .none, .node, 0, 255⟩
/-- 0x2010:01 MgmtIpv4Address (Table 14.11, R294). -/
def Obj.mgmtIpv4Address : Row := ⟨0x2010, 1, 0, 0x01, 1, .uint 4, .rw, .onWrite, .nodePlus 2852021248, 0, 4294967295⟩
/-- 0x2010:02 MgmtIpv4Prefix (Table 14.11, R294). -/
def Obj.mgmtIpv4Prefix : Row := ⟨0x2010, 1, 0, 0x02, 1, .uint 1, .rw, .onWrite, .num 16, 0, 32⟩
/-- 0x2010:03 MgmtIpv4Gateway (Table 14.11, R294). -/
def Obj.mgmtIpv4Gateway : Row := ⟨0x2010, 1, 0, 0x03, 1, .uint 4, .rw, .onWrite, .num 0, 0, 4294967295⟩
/-- 0x2010:04 MgmtIpv6Address (Table 14.11, R294). -/
def Obj.mgmtIpv6Address : Row := ⟨0x2010, 1, 0, 0x04, 1, .octets 16, .rw, .onWrite, .num 0, 0, 340282366920938463463374607431768211455⟩
/-- 0x2010:05 MgmtMacAddress (Table 14.11, R294). -/
def Obj.mgmtMacAddress : Row := ⟨0x2010, 1, 0, 0x05, 1, .octets 6, .const, .none, .fused 6, 0, 281474976710655⟩
/-- 0x2010:06 MgmtLinkSpeed (Table 14.11, R294). -/
def Obj.mgmtLinkSpeed : Row := ⟨0x2010, 1, 0, 0x06, 1, .uint 1, .ro, .none, .num 0, 0, 255⟩
/-- 0x2010:07, :08 GoaKey0, GoaKey1 (Table 14.11, R294). -/
def Obj.goaKey : Row := ⟨0x2010, 1, 0, 0x07, 2, .octets 40, .wo, .onWrite, .num 0, 0, 2135987035920910082395021706169552114602704522356652769947041607822219725780640550022962086936575⟩
/-- 0x2010:09, :0A GoaKeyId0, GoaKeyId1 (Table 14.11, R294). -/
def Obj.goaKeyId : Row := ⟨0x2010, 1, 0, 0x09, 2, .uint 4, .ro, .none, .num 0, 0, 4294967295⟩
/-- 0x2010:0B SessionIdleTime (Table 14.11, R294). -/
def Obj.sessionIdleTime : Row := ⟨0x2010, 1, 0, 0x0B, 1, .uint 2, .rw, .onWrite, .num 60, 5, 3600⟩
/-- 0x2010:0C SessionsOpen (Table 14.11, R294). -/
def Obj.sessionsOpen : Row := ⟨0x2010, 1, 0, 0x0C, 1, .uint 1, .ro, .none, .num 0, 0, 255⟩
/-- 0x2010:0D to :12 GoaCounters (Table 14.11, R294). -/
def Obj.goaCounters : Row := ⟨0x2010, 1, 0, 0x0D, 6, .uint 8, .ro, .none, .num 0, 0, 18446744073709551615⟩
/-- 0x2011:01 CanNominalRate (Table 14.11, R294). -/
def Obj.canNominalRate : Row := ⟨0x2011, 1, 0, 0x01, 1, .uint 1, .rw, .nmtReset, .num 2, 0, 3⟩
/-- 0x2011:02 CanDataRate (Table 14.11, R294). -/
def Obj.canDataRate : Row := ⟨0x2011, 1, 0, 0x02, 1, .uint 1, .rw, .nmtReset, .num 1, 0, 2⟩
/-- 0x2011:03 CanEnable (Table 14.11, R294). -/
def Obj.canEnable : Row := ⟨0x2011, 1, 0, 0x03, 1, .uint 1, .rw, .onWrite, .canEnable, 0, 3⟩
/-- 0x2011:04, :05 BusState0, BusState1 (Table 14.11, R294). -/
def Obj.busState : Row := ⟨0x2011, 1, 0, 0x04, 2, .uint 1, .ro, .none, .num 0, 0, 255⟩
/-- 0x2011:06, :07 BusOffCount0, BusOffCount1 (Table 14.11, R294). -/
def Obj.busOffCount : Row := ⟨0x2011, 1, 0, 0x06, 2, .uint 4, .ro, .none, .num 0, 0, 4294967295⟩
/-- 0x2011:08 EmcySent (Table 14.11, R294). -/
def Obj.emcySent : Row := ⟨0x2011, 1, 0, 0x08, 1, .uint 4, .ro, .none, .num 0, 0, 4294967295⟩
/-- 0x2011:09 EmcyInhibited (Table 14.11, R294). -/
def Obj.emcyInhibited : Row := ⟨0x2011, 1, 0, 0x09, 1, .uint 4, .ro, .none, .num 0, 0, 4294967295⟩
/-- 0x2C00:01 LogEntries (Table 15.9, R310). -/
def Obj.logEntries : Row := ⟨0x2C00, 1, 0, 0x01, 1, .uint 2, .const, .none, .num 1024, 0, 65535⟩
/-- 0x2C00:02 LogReserved (Table 15.9, R310). -/
def Obj.logReserved : Row := ⟨0x2C00, 1, 0, 0x02, 1, .uint 1, .const, .none, .num 64, 0, 255⟩
/-- 0x2C00:03 RingEntries (Table 15.9, R310). -/
def Obj.ringEntries : Row := ⟨0x2C00, 1, 0, 0x03, 1, .uint 4, .const, .none, .num 65536, 0, 4294967295⟩
/-- 0x2C00:04 FaultRingBase (Table 15.9, R310). -/
def Obj.faultRingBase : Row := ⟨0x2C00, 1, 0, 0x04, 1, .uint 8, .ro, .none, .calibrated 7, 0, 18446744073709551615⟩
/-- 0x2C00:05 OldestSequence (Table 15.9, R310). -/
def Obj.oldestSequence : Row := ⟨0x2C00, 1, 0, 0x05, 1, .uint 8, .ro, .none, .num 0, 0, 18446744073709551615⟩
/-- 0x2C00:06 NewestSequence (Table 15.9, R310). -/
def Obj.newestSequence : Row := ⟨0x2C00, 1, 0, 0x06, 1, .uint 8, .ro, .none, .num 0, 0, 18446744073709551615⟩
/-- 0x2C00:07 LogEntriesOpen (Table 15.9, R310). -/
def Obj.logEntriesOpen : Row := ⟨0x2C00, 1, 0, 0x07, 1, .uint 2, .ro, .none, .num 0, 0, 65535⟩
/-- 0x2C00:08 RingOverwritten (Table 15.9, R310). -/
def Obj.ringOverwritten : Row := ⟨0x2C00, 1, 0, 0x08, 1, .uint 8, .ro, .none, .num 0, 0, 18446744073709551615⟩
/-- 0x2C00:09 CoalesceWindow (Table 15.9, R310). -/
def Obj.coalesceWindow : Row := ⟨0x2C00, 1, 0, 0x09, 1, .uint 2, .rws, .epoch, .num 10, 1, 1000⟩
/-- 0x2C00:0A SettleTime (Table 15.9, R310). -/
def Obj.settleTime : Row := ⟨0x2C00, 1, 0, 0x0A, 1, .uint 2, .rws, .epoch, .num 50, 10, 1000⟩
/-- 0x2C00:0B EscalationResets (Table 15.9, R310). -/
def Obj.escalationResets : Row := ⟨0x2C00, 1, 0, 0x0B, 1, .uint 1, .const, .none, .num 3, 0, 255⟩
/-- 0x2C00:0C EscalationWindow (Table 15.9, R310). -/
def Obj.escalationWindow : Row := ⟨0x2C00, 1, 0, 0x0C, 1, .uint 2, .const, .none, .num 10000, 0, 65535⟩
/-- 0x2C00:0D BlocksStanding (Table 15.9, R310). -/
def Obj.blocksStanding : Row := ⟨0x2C00, 1, 0, 0x0D, 1, .uint 1, .ro, .none, .num 0, 0, 255⟩
/-- 0x2C00:0E QuenchCode (Table 15.9, R310). -/
def Obj.quenchCode : Row := ⟨0x2C00, 1, 0, 0x0E, 1, .uint 2, .ro, .none, .num 0, 0, 65535⟩
/-- 0x2C00:0F FaultNState (Table 15.9, R310). -/
def Obj.faultNState : Row := ⟨0x2C00, 1, 0, 0x0F, 1, .bool, .ro, .none, .num 0, 0, 1⟩
/-- 0x2C00:10 PilotState (Table 15.9, R310). -/
def Obj.pilotState : Row := ⟨0x2C00, 1, 0, 0x10, 1, .uint 1, .ro, .none, .num 0, 0, 255⟩
/-- 0x2C00:11 HeartbeatTimeout (Table 15.9, R310). -/
def Obj.heartbeatTimeout : Row := ⟨0x2C00, 1, 0, 0x11, 1, .uint 2, .rws, .epoch, .num 100, 10, 10000⟩
/-- 0x2C00:12 WatchdogGrace (Table 15.9, R310). -/
def Obj.watchdogGrace : Row := ⟨0x2C00, 1, 0, 0x12, 1, .uint 2, .rws, .epoch, .num 400, 0, 10000⟩
/-- 0x2C00:13 HeartbeatCount (Table 15.9, R310). -/
def Obj.heartbeatCount : Row := ⟨0x2C00, 1, 0, 0x13, 1, .uint 8, .ro, .none, .num 0, 0, 18446744073709551615⟩
/-- 0x2C00:14 HeartbeatBadValue (Table 15.9, R310). -/
def Obj.heartbeatBadValue : Row := ⟨0x2C00, 1, 0, 0x14, 1, .uint 4, .ro, .none, .num 0, 0, 4294967295⟩
/-- 0x2C00:15 ReportsMalformed (Table 15.9, R310). -/
def Obj.reportsMalformed : Row := ⟨0x2C00, 1, 0, 0x15, 1, .uint 4, .ro, .none, .num 0, 0, 4294967295⟩
/-- 0x2C00:16 EntriesLostInReset (Table 15.9, R310). -/
def Obj.entriesLostInReset : Row := ⟨0x2C00, 1, 0, 0x16, 1, .uint 8, .ro, .none, .num 0, 0, 18446744073709551615⟩
/-- 0x2C01:01 to :05 Detected (Table 15.9, R310). -/
def Obj.faultDetected : Row := ⟨0x2C01, 1, 0, 0x01, 5, .uint 8, .ro, .none, .num 0, 0, 18446744073709551615⟩
/-- 0x2C01:06 to :0A Logged (Table 15.9, R310). -/
def Obj.faultLogged : Row := ⟨0x2C01, 1, 0, 0x06, 5, .uint 8, .ro, .none, .num 0, 0, 18446744073709551615⟩
/-- 0x2C01:0B to :0F Coalesced (Table 15.9, R310). -/
def Obj.faultCoalesced : Row := ⟨0x2C01, 1, 0, 0x0B, 5, .uint 8, .ro, .none, .num 0, 0, 18446744073709551615⟩
/-- 0x2C01:10 to :14 Lost (Table 15.9, R310). -/
def Obj.faultLost : Row := ⟨0x2C01, 1, 0, 0x10, 5, .uint 8, .ro, .none, .num 0, 0, 18446744073709551615⟩
/-- 0x2C01:15 to :19 Consequential (Table 15.9, R310). -/
def Obj.faultConsequential : Row := ⟨0x2C01, 1, 0, 0x15, 5, .uint 8, .ro, .none, .num 0, 0, 18446744073709551615⟩
/-- 0x2C20:01 LogSelect (Table 15.9, R310). -/
def Obj.logSelect : Row := ⟨0x2C20, 18446744073709551616, 0, 0x01, 1, .uint 8, .rw, .onWrite, .num 0, 0, 18446744073709551615⟩
/-- 0x2C20:02 LogEntry (Table 15.9, R310). -/
def Obj.logEntry : Row := ⟨0x2C20, 18446744073709551616, 0, 0x02, 1, .domain, .ro, .none, .num 0, 0, 0⟩
/-- 0x2C20:03 EntryState (Table 15.9, R310). -/
def Obj.logEntryState : Row := ⟨0x2C20, 18446744073709551616, 0, 0x03, 1, .uint 1, .ro, .none, .num 0, 0, 255⟩
/-- 0x2C40:01 BlockSelect (Table 15.9, R310). -/
def Obj.blockSelect : Row := ⟨0x2C40, 65536, 0, 0x01, 1, .uint 2, .rw, .onWrite, .num 2048, 0, 65535⟩
/-- 0x2C40:02 BlockState (Table 15.9, R310). -/
def Obj.blockState : Row := ⟨0x2C40, 65536, 0, 0x02, 1, .uint 1, .ro, .none, .num 0, 0, 255⟩
/-- 0x2C40:03 BlockResets (Table 15.9, R310). -/
def Obj.blockResets : Row := ⟨0x2C40, 65536, 0, 0x03, 1, .uint 4, .ro, .none, .num 0, 0, 4294967295⟩
/-- 0x2C40:04 ResetsInWindow (Table 15.9, R310). -/
def Obj.resetsInWindow : Row := ⟨0x2C40, 65536, 0, 0x04, 1, .uint 1, .ro, .none, .num 0, 0, 255⟩
/-- 0x2C40:05 LastResetTick (Table 15.9, R310). -/
def Obj.lastResetTick : Row := ⟨0x2C40, 65536, 0, 0x05, 1, .uint 8, .ro, .none, .num 0, 0, 18446744073709551615⟩
/-- 0x2C40:06 LastCauseSequence (Table 15.9, R310). -/
def Obj.lastCauseSequence : Row := ⟨0x2C40, 65536, 0, 0x06, 1, .uint 8, .ro, .none, .num 0, 0, 18446744073709551615⟩
/-- 0x2C40:07 ConsequentialReports (Table 15.9, R310). -/
def Obj.consequentialReports : Row := ⟨0x2C40, 65536, 0, 0x07, 1, .uint 8, .ro, .none, .num 0, 0, 18446744073709551615⟩
/-- 0x2D00:01 RailCount (Table 16.11, R326). -/
def Obj.railCount : Row := ⟨0x2D00, 1, 0, 0x01, 1, .uint 1, .const, .none, .num 10, 0, 255⟩
/-- 0x2D01:01 to :0A RailVoltage (Table 16.11, R326). -/
def Obj.railVoltage : Row := ⟨0x2D01, 1, 0, 0x01, 10, .uint 2, .ro, .none, .num 0, 0, 65535⟩
/-- 0x2D02:01 to :0A RailMin (Table 16.11, R326). -/
def Obj.railMin : Row := ⟨0x2D02, 1, 0, 0x01, 10, .uint 2, .ro, .none, .num 0, 0, 65535⟩
/-- 0x2D03:01 to :0A RailMax (Table 16.11, R326). -/
def Obj.railMax : Row := ⟨0x2D03, 1, 0, 0x01, 10, .uint 2, .ro, .none, .num 0, 0, 65535⟩
/-- 0x2D04:01 to :06 SensorTemperature (Table 16.11, R326). -/
def Obj.sensorTemperature : Row := ⟨0x2D04, 1, 0, 0x01, 6, .int 2, .ro, .none, .num 0, (-32768), 32767⟩
/-- 0x2D04:07 TjMax (Table 16.11, R326). -/
def Obj.tjMax : Row := ⟨0x2D04, 1, 0, 0x07, 1, .int 2, .ro, .none, .num 0, (-32768), 32767⟩
/-- 0x2D04:08 ThermalWarning (Table 16.11, R326). -/
def Obj.thermalWarning : Row := ⟨0x2D04, 1, 0, 0x08, 1, .int 2, .rws, .epoch, .thermalWarning, (-32768), 32767⟩
/-- 0x2D04:09 OverTemperatureLimit (Table 16.11, R326). -/
def Obj.overTemperatureLimit : Row := ⟨0x2D04, 1, 0, 0x09, 1, .int 2, .const, .none, .overTemperature, (-32768), 32767⟩
/-- 0x2D04:0A ThermalWarnings (Table 16.11, R326). -/
def Obj.thermalWarnings : Row := ⟨0x2D04, 1, 0, 0x0A, 1, .uint 4, .ro, .none, .num 0, 0, 4294967295⟩
/-- 0x2D10:01 StartCommand (Table 16.11, R326). -/
def Obj.startCommand : Row := ⟨0x2D10, 1, 0, 0x01, 1, .uint 1, .wo, .onWrite, .num 0, 1, 6⟩
/-- 0x2D10:02 StartState (Table 16.11, R326). -/
def Obj.startState : Row := ⟨0x2D10, 1, 0, 0x02, 1, .uint 1, .ro, .none, .num 0, 0, 255⟩
/-- 0x2D10:03 StartStep (Table 16.11, R326). -/
def Obj.startStep : Row := ⟨0x2D10, 1, 0, 0x03, 1, .uint 1, .ro, .none, .num 0, 0, 255⟩
/-- 0x2D10:04 LastStartKind (Table 16.11, R326). -/
def Obj.lastStartKind : Row := ⟨0x2D10, 1, 0, 0x04, 1, .uint 1, .ro, .none, .num 0, 0, 255⟩
/-- 0x2D10:05 LastStartTime (Table 16.11, R326). -/
def Obj.lastStartTime : Row := ⟨0x2D10, 1, 0, 0x05, 1, .uint 4, .ro, .none, .num 0, 0, 4294967295⟩
/-- 0x2D10:06 LastFailedStep (Table 16.11, R326). -/
def Obj.lastFailedStep : Row := ⟨0x2D10, 1, 0, 0x06, 1, .uint 1, .ro, .none, .num 0, 0, 255⟩
/-- 0x2D10:07 LastFailReason (Table 16.11, R326). -/
def Obj.lastFailReason : Row := ⟨0x2D10, 1, 0, 0x07, 1, .uint 1, .ro, .none, .num 0, 0, 255⟩
/-- 0x2D10:08 FailedWarmStarts (Table 16.11, R326). -/
def Obj.failedWarmStarts : Row := ⟨0x2D10, 1, 0, 0x08, 1, .uint 1, .ro, .none, .num 0, 0, 255⟩
/-- 0x2D10:09 FailedColdStarts (Table 16.11, R326). -/
def Obj.failedColdStarts : Row := ⟨0x2D10, 1, 0, 0x09, 1, .uint 1, .ro, .none, .num 0, 0, 255⟩
/-- 0x2D10:0A ColdStarts (Table 16.11, R326). -/
def Obj.coldStarts : Row := ⟨0x2D10, 1, 0, 0x0A, 1, .uint 4, .ro, .none, .num 0, 0, 4294967295⟩
/-- 0x2D10:0B WarmStarts (Table 16.11, R326). -/
def Obj.warmStarts : Row := ⟨0x2D10, 1, 0, 0x0B, 1, .uint 4, .ro, .none, .num 0, 0, 4294967295⟩
/-- 0x2D10:0C BankedReason (Table 16.11, R326). -/
def Obj.bankedReason : Row := ⟨0x2D10, 1, 0, 0x0C, 1, .uint 1, .ro, .none, .num 0, 0, 255⟩
/-- 0x2D10:0D WarmSelfTest (Table 16.11, R326). -/
def Obj.warmSelfTest : Row := ⟨0x2D10, 1, 0, 0x0D, 1, .bool, .rw, .onWrite, .num 0, 0, 1⟩
/-- 0x2D10:0E PtpAcquireTimeout (Table 16.11, R326). -/
def Obj.ptpAcquireTimeout : Row := ⟨0x2D10, 1, 0, 0x0E, 1, .uint 4, .rw, .onWrite, .num 30000, 0, 600000⟩
/-- 0x2D10:0F DdrRetrainDelta (Table 16.11, R326). -/
def Obj.ddrRetrainDelta : Row := ⟨0x2D10, 1, 0, 0x0F, 1, .uint 2, .const, .none, .num 200, 0, 65535⟩
/-- 0x2D10:10 DdrTrainTemperature (Table 16.11, R326). -/
def Obj.ddrTrainTemperature : Row := ⟨0x2D10, 1, 0, 0x10, 1, .int 2, .ro, .none, .calibrated 8, (-32768), 32767⟩
/-- 0x2D10:11 ImageReloads (Table 16.11, R326). -/
def Obj.imageReloads : Row := ⟨0x2D10, 1, 0, 0x11, 1, .uint 4, .ro, .none, .num 0, 0, 4294967295⟩
/-- 0x2D20:01 MainImageVersion (Table 16.11, R326). -/
def Obj.mainImageVersion : Row := ⟨0x2D20, 1, 0, 0x01, 1, .uint 4, .ro, .none, .num 0, 0, 4294967295⟩
/-- 0x2D20:02 RecoveryImageVersion (Table 16.11, R326). -/
def Obj.recoveryImageVersion : Row := ⟨0x2D20, 1, 0, 0x02, 1, .uint 4, .ro, .none, .num 0, 0, 4294967295⟩
/-- 0x2D20:03 RunningRollbackIndex (Table 16.11, R326). -/
def Obj.runningRollbackIndex : Row := ⟨0x2D20, 1, 0, 0x03, 1, .uint 2, .ro, .none, .num 0, 0, 65535⟩
/-- 0x2D20:04 FusedRollbackIndex (Table 16.11, R326). -/
def Obj.fusedRollbackIndex : Row := ⟨0x2D20, 1, 0, 0x04, 1, .uint 2, .ro, .none, .fused 7, 0, 65535⟩
/-- 0x2D20:05 FlashBytes (Table 16.11, R326). -/
def Obj.flashBytes : Row := ⟨0x2D20, 1, 0, 0x05, 1, .uint 4, .ro, .none, .num 0, 0, 4294967295⟩
/-- 0x2D20:06 FirmwareLoadTarget (Table 16.11, R326). -/
def Obj.firmwareLoadTarget : Row := ⟨0x2D20, 1, 0, 0x06, 1, .uint 1, .rw, .onWrite, .num 0, 0, 2⟩
/-- 0x2D20:07 FirmwareLoadOffset (Table 16.11, R326). -/
def Obj.firmwareLoadOffset : Row := ⟨0x2D20, 1, 0, 0x07, 1, .uint 4, .rw, .onWrite, .num 0, 0, 4294967295⟩
/-- 0x2D20:08 FirmwareLoadData (Table 16.11, R326). -/
def Obj.firmwareLoadData : Row := ⟨0x2D20, 1, 0, 0x08, 1, .domain, .wo, .onWrite, .num 0, 0, 0⟩
/-- 0x2D20:09 FirmwareLoadCommand (Table 16.11, R326). -/
def Obj.firmwareLoadCommand : Row := ⟨0x2D20, 1, 0, 0x09, 1, .uint 1, .wo, .onWrite, .num 0, 1, 3⟩
/-- 0x2D20:0A FirmwareLoadStatus (Table 16.11, R326). -/
def Obj.firmwareLoadStatus : Row := ⟨0x2D20, 1, 0, 0x0A, 1, .uint 1, .ro, .none, .num 0, 0, 255⟩
/-- 0x2D20:0B FirmwareLoadTimeout (Table 16.11, R326). -/
def Obj.firmwareLoadTimeout : Row := ⟨0x2D20, 1, 0, 0x0B, 1, .uint 4, .const, .none, .num 600000, 0, 4294967295⟩
/-- 0x2D20:0C SignatureFailures (Table 16.11, R326). -/
def Obj.signatureFailures : Row := ⟨0x2D20, 1, 0, 0x0C, 1, .uint 4, .ro, .none, .num 0, 0, 4294967295⟩
/-- 0x2D20:0D RetainedImageDigest (Table 16.11, R326). -/
def Obj.retainedImageDigest : Row := ⟨0x2D20, 1, 0, 0x0D, 1, .octets 48, .ro, .none, .num 0, 0, 39402006196394479212279040100143613805079739270465446667948293404245721771497210611414266254884915640806627990306815⟩
/-- 0x1400 + n:01 COB-ID of RPDO n + 1 (CiA 301, R293). -/
def Obj.rpdoCobId : Row := ⟨0x1400, 4, 1, 0x01, 1, .uint 4, .rw, .onWrite, .rpdoCobId, 0, 4294967295⟩
/-- 0x1400 + n:02 transmission type of RPDO n + 1 (CiA 301, R278). -/
def Obj.rpdoTransmissionType : Row := ⟨0x1400, 4, 1, 0x02, 1, .uint 1, .rw, .onWrite, .num 254, 0, 255⟩
/-- 0x1400 + n:05 event timer of RPDO n + 1 (CiA 301, R278). -/
def Obj.rpdoEventTimer : Row := ⟨0x1400, 4, 1, 0x05, 1, .uint 2, .rw, .onWrite, .num 0, 0, 65535⟩
/-- 0x1600 + n:00 mapped objects of RPDO n + 1 (CiA 301, R278). -/
def Obj.rpdoMappedCount : Row := ⟨0x1600, 4, 1, 0x00, 1, .uint 1, .rw, .onWrite, .num 0, 0, 64⟩
/-- 0x1600 + n:01 to :40 mapping of RPDO n + 1 (CiA 301, R278). -/
def Obj.rpdoMapping : Row := ⟨0x1600, 4, 1, 0x01, 64, .uint 4, .rw, .onWrite, .num 0, 0, 4294967295⟩
/-- 0x1800 + n:01 COB-ID of TPDO n + 1 (CiA 301, R293). -/
def Obj.tpdoCobId : Row := ⟨0x1800, 4, 1, 0x01, 1, .uint 4, .rw, .onWrite, .tpdoCobId, 0, 4294967295⟩
/-- 0x1800 + n:02 transmission type of TPDO n + 1 (CiA 301, R278). -/
def Obj.tpdoTransmissionType : Row := ⟨0x1800, 4, 1, 0x02, 1, .uint 1, .rw, .onWrite, .num 254, 0, 255⟩
/-- 0x1800 + n:03 inhibit time of TPDO n + 1 (CiA 301). -/
def Obj.tpdoInhibitTime : Row := ⟨0x1800, 4, 1, 0x03, 1, .uint 2, .rw, .onWrite, .num 0, 0, 65535⟩
/-- 0x1800 + n:05 event timer of TPDO n + 1 (CiA 301, R278). -/
def Obj.tpdoEventTimer : Row := ⟨0x1800, 4, 1, 0x05, 1, .uint 2, .rw, .onWrite, .num 0, 0, 65535⟩
/-- 0x1A00 + n:00 mapped objects of TPDO n + 1 (CiA 301, R278). -/
def Obj.tpdoMappedCount : Row := ⟨0x1A00, 4, 1, 0x00, 1, .uint 1, .rw, .onWrite, .num 0, 0, 64⟩
/-- 0x1A00 + n:01 to :40 mapping of TPDO n + 1 (CiA 301, R278). -/
def Obj.tpdoMapping : Row := ⟨0x1A00, 4, 1, 0x01, 64, .uint 4, .rw, .onWrite, .num 0, 0, 4294967295⟩

/-- Rows of chapter 02, part 0. -/
def objRows02a : List Row :=
  [Obj.networkTimeState, Obj.selectedDomain, Obj.timeGeneration, Obj.currentTick, Obj.mediaOffset,
   Obj.tickOffset, Obj.discontinuityCount, Obj.frequencyCorrection, Obj.mediaState, Obj.slotEnable,
   Obj.slotProfile, Obj.domainNumber, Obj.portMask, Obj.transport, Obj.logSyncInterval,
   Obj.logDelayReqInterval, Obj.vlanId, Obj.slotState, Obj.slotOffset, Obj.meanPathDelay,
   Obj.grandmasterIdentity, Obj.pendingCandidates, Obj.stepsAccepted, Obj.stepsRejected]
/-- Rows of chapter 02, part 1. -/
def objRows02b : List Row :=
  [Obj.reroutesDetected, Obj.managementIgnored, Obj.preferredDomain, Obj.stepThreshold, Obj.stepConfirmCount,
   Obj.stepConsistency, Obj.domainSlewLimit, Obj.seamlessLimit, Obj.rerouteThreshold, Obj.suspectClearTime,
   Obj.holdoverAverage, Obj.domainSwitchCommand, Obj.mediaSlewRate, Obj.reanchorThreshold, Obj.ref10mEnable,
   Obj.holdDacCode, Obj.holdDacSlope, Obj.ppsOutWidth, Obj.ppsOutMode, Obj.trigMode,
   Obj.trigTimeBase, Obj.trigStartSeconds, Obj.trigStartNanoseconds, Obj.trigPeriod]
/-- Rows of chapter 02, part 2. -/
def objRows02c : List Row :=
  [Obj.trigWidth, Obj.trigTarget, Obj.trigOutPin, Obj.trigPolarity, Obj.trigThreadNumber,
   Obj.trigConverterMask, Obj.trigFired, Obj.trigLate, Obj.trigSkipped, Obj.trigUnitState,
   Obj.portIngressLatency, Obj.portEgressLatency, Obj.portAsymmetry, Obj.timeOutLatency, Obj.timeInLatency,
   Obj.capEdge, Obj.fifoDepth, Obj.capCaptured, Obj.capLost, Obj.capHeld,
   Obj.capRecords]
/-- The rows that chapter 02 gives. -/
def objRows02 : List Row := objRows02a ++ objRows02b ++ objRows02c
/-- Rows of chapter 03, part 0. -/
def objRows03a : List Row :=
  [Obj.laneGroupMode, Obj.voicePriorityMask, Obj.flowEntries, Obj.flowStaged, Obj.flowPlacementLimit,
   Obj.flowCapacity, Obj.flowMissFrames, Obj.mediaMiss, Obj.damperIgnoreTime, Obj.cipherCapacity,
   Obj.cipherLoad, Obj.cipherOverflow, Obj.authFailures, Obj.replayDrops, Obj.replayWindow,
   Obj.lifeCheckInterval, Obj.entryForgetTime, Obj.nodeForgetTime, Obj.nodeTableSize, Obj.nodesKnown,
   Obj.duplicatesDiscarded, Obj.nodeTableFull, Obj.prpPair, Obj.mediaAddress]
/-- Rows of chapter 03, part 1. -/
def objRows03b : List Row :=
  [Obj.fieldMask, Obj.srcPrefix, Obj.dstPrefix, Obj.profEnable, Obj.flowSelect,
   Obj.flowProfile, Obj.flowKey, Obj.flowAction, Obj.flowEgressPort, Obj.flowEgressPriority,
   Obj.flowOrdered, Obj.flowEdit, Obj.editData, Obj.flowCapture, Obj.captureStream,
   Obj.targetQueue, Obj.flowValid, Obj.flowEntryState, Obj.flowFrames, Obj.flowOctets,
   Obj.captureGaps, Obj.flueStopSelect, Obj.linkSelect, Obj.flueChannelSelect]
/-- Rows of chapter 03, part 2. -/
def objRows03c : List Row :=
  [Obj.flueBufferDepth, Obj.creditsHeld, Obj.inFlight, Obj.occupied, Obj.returning,
   Obj.flueAuditMismatches, Obj.adminUp, Obj.portRate, Obj.fecMode, Obj.autoNeg,
   Obj.maxFrameSize, Obj.deliverBad, Obj.diagnosticQueue, Obj.controlQueue, Obj.macAddress,
   Obj.missAction, Obj.missPort, Obj.portLinkUp, Obj.actualRate, Obj.fecCorrected,
   Obj.fecUncorrected, Obj.linkDownCount, Obj.rxCounters, Obj.txCounters]
/-- Rows of chapter 03, part 3. -/
def objRows03d : List Row :=
  [Obj.pauseMode, Obj.pauseTxVoice, Obj.pauseTxQuanta, Obj.xoffCells, Obj.xonCells,
   Obj.pauseWatchdogLimit, Obj.damperAgeLimit, Obj.damperBreaks, Obj.damperDiscards, Obj.pauseIgnored,
   Obj.rxPfcFrames, Obj.strictMask, Obj.drrWeight]
/-- The rows that chapter 03 gives. -/
def objRows03 : List Row := objRows03a ++ objRows03b ++ objRows03c ++ objRows03d
/-- Rows of chapter 04, part 0. -/
def objRows04a : List Row :=
  [Obj.endpointCapacity, Obj.endpointsRegistered, Obj.channelCap, Obj.channelsActive, Obj.groupCapacity,
   Obj.groupsActive, Obj.endpointTableBase, Obj.channelStateBase, Obj.channelStateSize, Obj.setupRecord,
   Obj.setupResults, Obj.setupNextSequence, Obj.setupPending, Obj.setupStoreSize, Obj.setupLead,
   Obj.setupPerTick, Obj.setupAccepted, Obj.setupRefusedAtWrite, Obj.setupApplied, Obj.setupRefusedAtTick,
   Obj.resultsHeld, Obj.keyTransportKey, Obj.keyTransportKeyId, Obj.keyUnwrapFailures]
/-- Rows of chapter 04, part 1. -/
def objRows04b : List Row :=
  [Obj.admissionRefused, Obj.cipherCommitted, Obj.rateConversionCost, Obj.jitterMinDefault, Obj.jitterMaxDefault,
   Obj.jitterInitialDefault, Obj.adaptWindow, Obj.adaptPercentile, Obj.adaptMargin, Obj.adaptHold,
   Obj.earlyResyncCount, Obj.playoutMargin, Obj.concealFadeFrames, Obj.encodeCost, Obj.decodeCost,
   Obj.epochCommit, Obj.currentEpoch, Obj.pendingEpoch, Obj.pendingTick, Obj.epochAbort,
   Obj.epochLead, Obj.stagedObjects, Obj.unitsBehind, Obj.epochsCommitted]
/-- Rows of chapter 04, part 2. -/
def objRows04c : List Row :=
  [Obj.commitsRefused, Obj.unitSelect, Obj.unitEpochTag, Obj.unitEpochMisses, Obj.epochUnitState,
   Obj.endpointSelect, Obj.endpointContext, Obj.endpointState, Obj.endpointBoundChannel, Obj.endpointCounters,
   Obj.channelSelect, Obj.channelState, Obj.channelEndpoint, Obj.channelOutputEndpoint, Obj.channelGroup,
   Obj.memberIndex, Obj.channelEngine, Obj.channelThread, Obj.framePhase, Obj.frameTicks,
   Obj.channelCost, Obj.channelTraceClass, Obj.channelEpochTag, Obj.jitterDepth]
/-- Rows of chapter 04, part 3. -/
def objRows04d : List Row :=
  [Obj.jitterTarget, Obj.jitterMin, Obj.jitterMax, Obj.channelOpenTick, Obj.tickCounters,
   Obj.frameCounters, Obj.packetCounters, Obj.depthIncreases, Obj.depthDecreases, Obj.evidenceStream,
   Obj.groupSelect, Obj.groupState, Obj.groupMembers, Obj.groupTalkerLimit, Obj.activeTalkers,
   Obj.memberChannels]
/-- The rows that chapter 04 gives. -/
def objRows04 : List Row := objRows04a ++ objRows04b ++ objRows04c ++ objRows04d
/-- Rows of chapter 05, part 0. -/
def objRows05a : List Row :=
  [Obj.profileCount, Obj.toneSetCount, Obj.tonesPerSet, Obj.toneEventQueue, Obj.toneEventsDetected,
   Obj.toneEventsPushed, Obj.toneEventsRefused, Obj.treatmentCosts, Obj.priorityMemberCount, Obj.talkerHangover,
   Obj.mixShift, Obj.mixLateEntries, Obj.mixLateDiscarded, Obj.mixSaturations, Obj.profileSelect,
   Obj.echoEnable, Obj.tailWideband, Obj.tailNarrowband, Obj.bulkDelayMax, Obj.fadeLength,
   Obj.swapMargin, Obj.swapHold, Obj.nlpMode, Obj.nlpThreshold]
/-- Rows of chapter 05, part 1. -/
def objRows05b : List Row :=
  [Obj.comfortNoiseLimit, Obj.toneSet, Obj.dtmfDetect, Obj.dtmfSuppress, Obj.callProgress,
   Obj.answerToneDisable, Obj.noiseReduction, Obj.noiseReductionMax, Obj.levelControl, Obj.levelTarget,
   Obj.gainMax, Obj.gainMin, Obj.gainSlewUp, Obj.gainSlewDown, Obj.fixedGain,
   Obj.profileCostWideband, Obj.profileCostNarrowband, Obj.channelsUsing, Obj.toneSetSelect, Obj.toneSelect,
   Obj.toneEnable, Obj.toneFrequency1, Obj.toneFrequency2, Obj.frequencyTolerance]
/-- Rows of chapter 05, part 2. -/
def objRows05c : List Row :=
  [Obj.minLevel, Obj.maxTwist, Obj.toneOnMin, Obj.toneOnMax, Obj.toneOffMin,
   Obj.toneOffMax, Obj.toneCycles, Obj.toneAction, Obj.treatChannelSelect, Obj.cancellerState,
   Obj.bulkDelay, Obj.erle, Obj.swapRequests, Obj.swapsApplied, Obj.swapsSuperseded,
   Obj.swapsDiscarded, Obj.swapPending, Obj.answerToneBypasses, Obj.currentGain, Obj.noiseFloor,
   Obj.toneEvents, Obj.talkerTicks, Obj.mixTicks, Obj.mixGroupSelect]
/-- Rows of chapter 05, part 3. -/
def objRows05d : List Row :=
  [Obj.mixTalkerLimit, Obj.ticksMixed, Obj.ticksClosedLate, Obj.talkerSelections, Obj.claimsNotSelected]
/-- The rows that chapter 05 gives. -/
def objRows05 : List Row := objRows05a ++ objRows05b ++ objRows05c ++ objRows05d
/-- Rows of chapter 08, part 0. -/
def objRows08a : List Row :=
  [Obj.gaugePeriod, Obj.reserveFraction, Obj.unitsAllocatedTotal, Obj.unitsCommittedTotal, Obj.enginesInDeficit,
   Obj.deficitAlarmTime, Obj.slowCornerRate, Obj.avsRaiseRatio, Obj.avsLowerRatio, Obj.avsStep,
   Obj.avsInterval, Obj.avsLowerHold, Obj.avsMax, Obj.avsSettle, Obj.vddCoreCommand,
   Obj.vddCoreFloor, Obj.avsRaises, Obj.avsLowers, Obj.avsFailures, Obj.mostLoadedHearth,
   Obj.hearthLoadRatio, Obj.engineSelect, Obj.engineCapacity, Obj.engineAllocated]
/-- Rows of chapter 08, part 1. -/
def objRows08b : List Row :=
  [Obj.engineFree, Obj.engineDeficit, Obj.deficitEvents, Obj.deficitMax, Obj.deficitTime,
   Obj.threadsBound, Obj.readyDepth, Obj.readyDepthMax, Obj.waitMin, Obj.waitMean,
   Obj.waitMax, Obj.waitHistogram, Obj.engineLoad, Obj.runnable, Obj.dispatches,
   Obj.preemptions, Obj.deadlineMisses, Obj.bankSwaps, Obj.swapWaits, Obj.stolenCycles,
   Obj.lmParityErrors, Obj.poisonRefusals, Obj.exceptionsTaken, Obj.tcbCapacity]
/-- Rows of chapter 08, part 2. -/
def objRows08c : List Row :=
  [Obj.tcbsInUse, Obj.readyStoreSize, Obj.postLimit, Obj.runnableLimit, Obj.dispatchBound,
   Obj.guardPoint, Obj.missEscalation, Obj.traceQueue, Obj.traceDecisions, Obj.traceWritten,
   Obj.traceRefused, Obj.stokerCommand, Obj.commandResult, Obj.threadSelect, Obj.tcbRecord,
   Obj.threadState, Obj.threadHearth, Obj.gaugeReading, Obj.gaugeMin, Obj.hearthAllocated,
   Obj.hearthCapacity, Obj.readyEntries, Obj.readyEntriesMax, Obj.postsRefused]
/-- Rows of chapter 08, part 3. -/
def objRows08d : List Row :=
  [Obj.hardwareRefusals, Obj.latchRetries, Obj.exceptionQueue, Obj.exceptionRecordsRefused, Obj.tickPostTime,
   Obj.tickEntriesSkipped, Obj.hearthEngineFree]
/-- The rows that chapter 08 gives. -/
def objRows08 : List Row := objRows08a ++ objRows08b ++ objRows08c ++ objRows08d
/-- Rows of chapter 09, part 0. -/
def objRows09a : List Row :=
  [Obj.queueCount, Obj.cellCount, Obj.cellBytes, Obj.freeCells, Obj.heldCells,
   Obj.inFlightCells, Obj.bankRegionCells, Obj.classAReserve, Obj.poolRefusals, Obj.classARefusals,
   Obj.cellParityErrors, Obj.cellAuditMismatches, Obj.freeCellsMin, Obj.thresholdPostsRefused, Obj.queueSelect,
   Obj.queueKind, Obj.itemMode, Obj.queueDepthLimit, Obj.queueClassA, Obj.queueGrantMask,
   Obj.thresholdDepth, Obj.thresholdThread, Obj.queueDepth, Obj.queueCellsHeld]
/-- Rows of chapter 09, part 1. -/
def objRows09b : List Row :=
  [Obj.queueMarkValid, Obj.queueEmpty, Obj.queuePushes, Obj.queuePushesRefused, Obj.queuePops,
   Obj.queueUnderruns, Obj.queueReleases, Obj.queueParityErrors, Obj.queueState, Obj.queueResetObj,
   Obj.queueLastValue, Obj.oaMode, Obj.oaElementCount, Obj.oaExpectedMask, Obj.oaCloseLag,
   Obj.oaEnable, Obj.oaCounters, Obj.strandedCells, Obj.bankChannelSelect, Obj.bankCellsUsed,
   Obj.fillingFirstSlot, Obj.drainingFirstSlot, Obj.bankSlotsOpen, Obj.bankSlotCounters]
/-- Rows of chapter 09, part 2. -/
def objRows09c : List Row :=
  [Obj.bankPushesRefused, Obj.bankSlotsLate, Obj.evidenceSlotsPushed, Obj.evidenceSlotsRefused, Obj.speechBankSwaps]
/-- The rows that chapter 09 gives. -/
def objRows09 : List Row := objRows09a ++ objRows09b ++ objRows09c
/-- Rows of chapter 10, part 0. -/
def objRows10a : List Row :=
  [Obj.twinRole, Obj.twinState, Obj.admissionLeader, Obj.twinLinkPort0, Obj.twinLinkPort1,
   Obj.joinEnable, Obj.twinGuard, Obj.linkLatencyLimit, Obj.linkLatency, Obj.partnerLossIntervals,
   Obj.tickSkewLimit, Obj.tickSkew, Obj.divergenceLimit, Obj.twinCommand, Obj.twinLinkKey,
   Obj.twinLinkKeyId, Obj.joinBoundary, Obj.configDigest, Obj.configMismatches, Obj.twinCounters,
   Obj.twinChannelSelect, Obj.twinChannelState, Obj.divergenceTick, Obj.divergenceCause]
/-- Rows of chapter 10, part 1. -/
def objRows10b : List Row :=
  [Obj.twinLocalCause, Obj.channelFetched, Obj.lastFrameTick, Obj.lastLedgerDigest, Obj.lastOutputDigest]
/-- The rows that chapter 10 gives. -/
def objRows10 : List Row := objRows10a ++ objRows10b
/-- Rows of chapter 11, part 0. -/
def objRows11a : List Row :=
  [Obj.compressorCount, Obj.contextCount, Obj.contextBytes, Obj.contextBase, Obj.stagingBase,
   Obj.stagingBytes, Obj.blockTicks, Obj.restartBlocks, Obj.defaultEffort, Obj.defaultTransform,
   Obj.stagingBlocks, Obj.eventAreaBytes, Obj.captureBlockLimit, Obj.streamsOpen, Obj.jobsQueued,
   Obj.jobsCompleted, Obj.suspensions, Obj.aborts, Obj.jobRestarts, Obj.blocksNotMade,
   Obj.compUnitState, Obj.compCurrentStream, Obj.unitInputBytes, Obj.unitOutputBytes]
/-- Rows of chapter 11, part 1. -/
def objRows11b : List Row :=
  [Obj.unitJobs, Obj.unitBusy, Obj.compUnitCommand, Obj.streamSelect, Obj.streamKind,
   Obj.streamState, Obj.streamEffort, Obj.streamTransform, Obj.streamSourceNumber, Obj.streamOpenTick,
   Obj.nextBlockIndex, Obj.stagedBlocks, Obj.streamJobState, Obj.slotsReceived, Obj.slotsRefused,
   Obj.captureFrames, Obj.captureRefused, Obj.eventsOffered, Obj.eventsRecorded, Obj.eventsRefused,
   Obj.streamInputBytes, Obj.streamOutputBytes]
/-- The rows that chapter 11 gives. -/
def objRows11 : List Row := objRows11a ++ objRows11b
/-- Rows of chapter 12, part 0. -/
def objRows12a : List Row :=
  [Obj.checkChannelCount, Obj.checkRateFloor, Obj.storeSealMask, Obj.segmentBytes, Obj.storeState,
   Obj.ringIdentity, Obj.totalSlots, Obj.writePointSegment, Obj.writePointOffset, Obj.oldestSegment,
   Obj.holdSegment, Obj.segmentCloseTime, Obj.outputPoolPages, Obj.outputPagesFree, Obj.storeWriteRate,
   Obj.retentionEstimate, Obj.storeCommand, Obj.formatIdentity, Obj.lastScanMode, Obj.lastScanTime,
   Obj.chainBreaks, Obj.storeCounters, Obj.lastTickStored, Obj.checkChannelState]
/-- Rows of chapter 12, part 1. -/
def objRows12b : List Row :=
  [Obj.jobQueue, Obj.jobsDone, Obj.jobsFailed, Obj.bytesChecked, Obj.sealJobs,
   Obj.firmwareSuspensions, Obj.resultsRefused, Obj.channelBusy, Obj.pcieLinkUp, Obj.pcieLinkSpeed,
   Obj.pcieLinkWidth, Obj.namespaceId1, Obj.namespaceId2, Obj.namespaceState1, Obj.namespaceState2,
   Obj.nsCapacity1, Obj.nsCapacity2, Obj.lbaBytes, Obj.writeCommands, Obj.readCommands,
   Obj.commandErrors, Obj.portRetries, Obj.volatileCache, Obj.segmentSelect]
/-- Rows of chapter 12, part 2. -/
def objRows12c : List Row :=
  [Obj.segmentHeader, Obj.segmentData, Obj.segmentStatus]
/-- The rows that chapter 12 gives. -/
def objRows12 : List Row := objRows12a ++ objRows12b ++ objRows12c
/-- Rows of chapter 13, part 0. -/
def objRows13a : List Row :=
  [Obj.lineShellEnable, Obj.portsPowered, Obj.modulatorRate, Obj.pllState, Obj.pllUnlocks,
   Obj.defaultPreset, Obj.calibrationState, Obj.calibrationTemperature, Obj.lineDieTemperature, Obj.calDriftLimit,
   Obj.syncPinMask, Obj.syncPinEdge, Obj.syncCommand, Obj.syncEvents, Obj.lastSyncSource,
   Obj.lastSyncTick, Obj.portEnable, Obj.lineMode, Obj.preset, Obj.cicLength,
   Obj.cicOrder, Obj.firDecimation, Obj.rxGain, Obj.txGain]
/-- Rows of chapter 13, part 1. -/
def objRows13b : List Row :=
  [Obj.balance, Obj.dcShift, Obj.dcFreeze, Obj.dcEstimate, Obj.txSource,
   Obj.monitorQueue, Obj.txQueue, Obj.outputRate, Obj.groupDelay, Obj.settlingCount,
   Obj.lineBoundChannel, Obj.unsettledRemaining, Obj.lineCounters, Obj.portSyncResets, Obj.calOffsetRx,
   Obj.calGainRx, Obj.calOffsetTx, Obj.calGainTx, Obj.recalibrateNow]
/-- The rows that chapter 13 gives. -/
def objRows13 : List Row := objRows13a ++ objRows13b
/-- Rows of chapter 14, part 0. -/
def objRows14a : List Row :=
  [Obj.deviceType, Obj.errorRegister, Obj.errorCount, Obj.preDefinedErrorField, Obj.cobIdSync,
   Obj.deviceName, Obj.hardwareVersion, Obj.softwareVersion, Obj.cobIdEmcy, Obj.inhibitTimeEmcy,
   Obj.consumerHeartbeatTime, Obj.producerHeartbeatTime, Obj.vendorId, Obj.productCode, Obj.revisionNumber,
   Obj.serialNumber, Obj.tierObj, Obj.strapWord, Obj.stepping, Obj.temperatureGrade,
   Obj.deviceSerial, Obj.firmwareVersion, Obj.firmwareImage, Obj.poweredHearths]
/-- Rows of chapter 14, part 1. -/
def objRows14b : List Row :=
  [Obj.poweredLanes, Obj.poweredDdr, Obj.poweredPcie, Obj.poweredCompressors, Obj.poweredCheckChannels,
   Obj.poweredLinePorts, Obj.nodeId, Obj.mgmtIpv4Address, Obj.mgmtIpv4Prefix, Obj.mgmtIpv4Gateway,
   Obj.mgmtIpv6Address, Obj.mgmtMacAddress, Obj.mgmtLinkSpeed, Obj.goaKey, Obj.goaKeyId,
   Obj.sessionIdleTime, Obj.sessionsOpen, Obj.goaCounters, Obj.canNominalRate, Obj.canDataRate,
   Obj.canEnable, Obj.busState, Obj.busOffCount, Obj.emcySent]
/-- Rows of chapter 14, part 2. -/
def objRows14c : List Row :=
  [Obj.emcyInhibited]
/-- The rows that chapter 14 gives. -/
def objRows14 : List Row := objRows14a ++ objRows14b ++ objRows14c
/-- Rows of chapter 15, part 0. -/
def objRows15a : List Row :=
  [Obj.logEntries, Obj.logReserved, Obj.ringEntries, Obj.faultRingBase, Obj.oldestSequence,
   Obj.newestSequence, Obj.logEntriesOpen, Obj.ringOverwritten, Obj.coalesceWindow, Obj.settleTime,
   Obj.escalationResets, Obj.escalationWindow, Obj.blocksStanding, Obj.quenchCode, Obj.faultNState,
   Obj.pilotState, Obj.heartbeatTimeout, Obj.watchdogGrace, Obj.heartbeatCount, Obj.heartbeatBadValue,
   Obj.reportsMalformed, Obj.entriesLostInReset, Obj.faultDetected, Obj.faultLogged]
/-- Rows of chapter 15, part 1. -/
def objRows15b : List Row :=
  [Obj.faultCoalesced, Obj.faultLost, Obj.faultConsequential, Obj.logSelect, Obj.logEntry,
   Obj.logEntryState, Obj.blockSelect, Obj.blockState, Obj.blockResets, Obj.resetsInWindow,
   Obj.lastResetTick, Obj.lastCauseSequence, Obj.consequentialReports]
/-- The rows that chapter 15 gives. -/
def objRows15 : List Row := objRows15a ++ objRows15b
/-- Rows of chapter 16, part 0. -/
def objRows16a : List Row :=
  [Obj.railCount, Obj.railVoltage, Obj.railMin, Obj.railMax, Obj.sensorTemperature,
   Obj.tjMax, Obj.thermalWarning, Obj.overTemperatureLimit, Obj.thermalWarnings, Obj.startCommand,
   Obj.startState, Obj.startStep, Obj.lastStartKind, Obj.lastStartTime, Obj.lastFailedStep,
   Obj.lastFailReason, Obj.failedWarmStarts, Obj.failedColdStarts, Obj.coldStarts, Obj.warmStarts,
   Obj.bankedReason, Obj.warmSelfTest, Obj.ptpAcquireTimeout, Obj.ddrRetrainDelta]
/-- Rows of chapter 16, part 1. -/
def objRows16b : List Row :=
  [Obj.ddrTrainTemperature, Obj.imageReloads, Obj.mainImageVersion, Obj.recoveryImageVersion, Obj.runningRollbackIndex,
   Obj.fusedRollbackIndex, Obj.flashBytes, Obj.firmwareLoadTarget, Obj.firmwareLoadOffset, Obj.firmwareLoadData,
   Obj.firmwareLoadCommand, Obj.firmwareLoadStatus, Obj.firmwareLoadTimeout, Obj.signatureFailures, Obj.retainedImageDigest]
/-- The rows that chapter 16 gives. -/
def objRows16 : List Row := objRows16a ++ objRows16b
/-- Rows of chapter pdo, part 0. -/
def objRowsPdoa : List Row :=
  [Obj.rpdoCobId, Obj.rpdoTransmissionType, Obj.rpdoEventTimer, Obj.rpdoMappedCount, Obj.rpdoMapping,
   Obj.tpdoCobId, Obj.tpdoTransmissionType, Obj.tpdoInhibitTime, Obj.tpdoEventTimer, Obj.tpdoMappedCount,
   Obj.tpdoMapping]
/-- The rows that chapter pdo gives. -/
def objRowsPdo : List Row := objRowsPdoa

/-- Every row of the dictionary, in the order of the index ranges of Table 14.6. -/
def objRows : List Row :=
  objRows14 ++ objRowsPdo ++ objRows02 ++ objRows03 ++ objRows04 ++ objRows05 ++ objRows08 ++ objRows09 ++ objRows10 ++ objRows11 ++ objRows12 ++ objRows13 ++ objRows15 ++ objRows16

end Sys2Proof.Machine
end

