-- ==== Sys2Proof/Machine/Ops.lean ====
section
/-! DEFINITION. The operations that every block shares: what the tier powers (R15), the dictionary's values and defaults
(R279, R283), the clocks (R21, R25, R29, R30), emissions, and the fault collector's log (R295 to R305), error register
and quench (R277, R307 to R309). -/
namespace Sys2Proof.Machine

/-! ### Tiers and instances -/

/-- One of four numbers, by the strapped tier. -/
def byTier (d : Dev) (full half track onboard : Nat) : Nat :=
  match d.start.straps.tier with
  | 0 => full
  | 1 => half
  | 2 => track
  | _ => onboard

/-- The number of hearths that the tier powers (Table 1.5). -/
def hearthsOf (d : Dev) : Nat := byTier d 12 6 2 2
/-- Engines powered. -/
def enginesOf (d : Dev) : Nat := byTier d 192 96 32 32
/-- SerDes lanes powered. -/
def lanesOf (d : Dev) : Nat := byTier d 32 16 4 2
/-- DDR5 controllers powered. -/
def ddrOf (d : Dev) : Nat := byTier d 4 2 1 1
/-- PCIe root ports powered. -/
def pcieOf (d : Dev) : Nat := byTier d 2 2 1 1
/-- Compressors powered. -/
def compressorsOf (d : Dev) : Nat := byTier d 4 2 1 1
/-- Check-value channels powered. -/
def checksOf (d : Dev) : Nat := byTier d 16 8 4 4
/-- Line ports that the tier has, awake or not. -/
def linesOf (d : Dev) : Nat := byTier d 64 64 64 16
/-- Line ports powered at present: none while the line shell sleeps or wakes (R255). -/
def linesPowered (d : Dev) : Nat := if d.line.awake = 2 then linesOf d else 0

/-- The reset, running (1) or other state in which the data plane runs. -/
def isReady (d : Dev) : Bool := d.start.ready

/-! ### Objects: defaults, values, counters -/

/-- The kind of a queue (Table 9.2, 9.8): 0 jitter, 1 control, 2 bank, 3 egress, 4 device block, 5 general, 6 group
accumulate, 7 firmware accumulate. -/
def queueKind (q : Nat) : Nat :=
  if q < 65536 then 0
  else if q < 131072 then 1
  else if q < 196608 then 2
  else if q < 196864 then 3
  else if q < 197632 then 4
  else if q < 253440 then 5
  else if q < 261632 then 6
  else 7

/-- Whether a queue is one of the reserved device block queues (Table 9.2). -/
def queueReserved (q : Nat) : Bool := decide (196880 ≤ q) && decide (q < 197632)

/-- The value held for element j of instance i of an object, or none where it still has its default. -/
def ofind (d : Dev) (r : Row) (i j : Nat) : Option Int := sfind d.dict.obj (r.key i j)

/-- The layout of lane group g (Table 3.1): the value held, or mode 4. -/
def groupMode (d : Dev) (g : Nat) : Nat := ((ofind d Obj.laneGroupMode 0 g).getD 4).toNat

/-- The lanes of port p under its group's layout: 4, 2, 1, or 0 where the layout does not create the port. -/
def portLanes (d : Dev) (p : Nat) : Nat :=
  if lanesOf d ≤ p then 0
  else
    match groupMode d (p / 4), p % 4 with
    | 0, 0 => 4
    | 1, 0 => 2
    | 1, 2 => 2
    | 2, 0 => 2
    | 2, 2 => 1
    | 2, 3 => 1
    | 3, 0 => 1
    | 3, 1 => 1
    | 3, 2 => 2
    | 4, _ => 1
    | _, _ => 0

/-- Whether port p exists: its layout creates it on powered lanes (R15, R41). -/
def portExists (d : Dev) (p : Nat) : Bool := decide (0 < portLanes d p) && decide (p + portLanes d p ≤ lanesOf d)

/-- The rate of port p as ActualRate codes it: 1 10G to 6 400G (R41). -/
def rateCode (d : Dev) (p : Nat) : Nat :=
  match portLanes d p with
  | 4 => 6
  | 2 => 5
  | _ => 4 - ((ofind d Obj.portRate p 0).getD 0).toNat % 4

/-- Table 2.1, PortIngressLatency in ps by rate code. -/
def ingressLatency : Nat → Int
  | 6 => 48750
  | 5 => 57500
  | 4 => 71250
  | 3 => 96000
  | 2 => 131000
  | _ => 212750

/-- Table 2.1, PortEgressLatency in ps by rate code. -/
def egressLatency : Nat → Int
  | 6 => 41250
  | 5 => 46000
  | 4 => 55000
  | 3 => 72500
  | 2 => 98500
  | _ => 165250

/-- L of preset c (Table 13.2). -/
def presetL : Nat → Nat
  | 0 => 192
  | 1 => 96
  | 2 => 64
  | _ => 32
/-- K of preset c. -/
def presetK : Nat → Nat
  | 0 => 4
  | 1 => 4
  | 2 => 3
  | _ => 2
/-- M of preset c. -/
def presetM : Nat → Nat
  | 0 => 4
  | 1 => 4
  | _ => 2

/-- The output rate for L and M, Hz (R258). -/
def rateOfLM (l m : Nat) : Nat := 6144000 / (l * m)
/-- The group delay, ns (R259): (K(L − 1)/2 + (16M − 1) L) T + 2,000 ns, rounded to the nearest ns. -/
def groupDelayOf (l k m : Nat) : Nat :=
  let halves := k * (l - 1) + 2 * (16 * m - 1) * l
  (halves * 1000000000 + 6144000) / (2 * 6144000) + 2000
/-- The settling count N, output samples (R259). -/
def settlingOf (l k m : Nat) : Nat := ceilDiv (k * (l - 1) + (32 * m - 2) * l) (l * m) + 1

/-- The strap word (Table 16.4). -/
def strapWordOf (s : Straps) : Nat := s.node % 128 + s.tier % 4 * 128 + s.boot % 4 * 512 + s.twin % 4 * 2048 + s.line % 4 * 8192

/-- The default of element j of instance i of an object (R283). -/
def dfltOf (d : Dev) (r : Row) (i j : Nat) : Int :=
  let s := d.start.straps
  match r.dflt with
  | .num v => v
  | .byInst l => l.getD i 0
  | .bySub l => l.getD j 0
  | .calibrated k => Config.fixedValue 0 k i j
  | .fused k => Config.fixedValue 1 k i j
  | .portIngress => ingressLatency (rateCode d j)
  | .portEgress => egressLatency (rateCode d j)
  | .depthLimit =>
    match queueKind i with
    | 0 => 0
    | 1 => 64
    | 2 => 10
    | 3 => 16384
    | 4 => if queueReserved i then 0 else 256
    | 5 => 1024
    | _ => 3840
  | .classA =>
    match queueKind i with
    | 3 => b2n (bitSet ((ofind d Obj.voicePriorityMask 0 0).getD 0x60).toNat (i % 8))
    | 0 => b2n (((sfind d.chans i).map Channel.traceA).getD false)
    | 1 => b2n (((sfind d.chans (i - 65536)).map Channel.traceA).getD false)
    | _ => 0
  | .twinRole => s.twin % 4
  | .twinState => d.twin.state
  | .rpdoCobId => ((0x80000000 + 0x200 + 0x100 * i + s.node : Nat) : Int)
  | .tpdoCobId => ((0x80000000 + 0x180 + 0x100 * i + s.node : Nat) : Int)
  | .jobQueue => ((196864 + i : Nat) : Int)
  | .lineShell => if s.tier < 2 then 0 else 1
  | .portsPowered => linesPowered d
  | .linePreset => s.line % 4
  | .cicLength => presetL (s.line % 4)
  | .cicOrder => presetK (s.line % 4)
  | .firDecimation => presetM (s.line % 4)
  | .outputRate => rateOfLM (presetL (s.line % 4)) (presetM (s.line % 4))
  | .groupDelay => groupDelayOf (presetL (s.line % 4)) (presetK (s.line % 4)) (presetM (s.line % 4))
  | .settlingCount => settlingOf (presetL (s.line % 4)) (presetK (s.line % 4)) (presetM (s.line % 4))
  | .tier => s.tier % 4
  | .strapWord => strapWordOf s
  | .node => s.node % 128
  | .nodePlus n => ((n + s.node % 128 : Nat) : Int)
  | .canEnable => if s.node % 128 = 0 then 0 else 3
  | .poweredHearths => ((2 ^ hearthsOf d - 1 : Nat) : Int)
  | .poweredLanes => ((2 ^ lanesOf d - 1 : Nat) : Int)
  | .poweredDdr => ((2 ^ ddrOf d - 1 : Nat) : Int)
  | .poweredPcie => ((2 ^ pcieOf d - 1 : Nat) : Int)
  | .poweredCompressors => ((2 ^ compressorsOf d - 1 : Nat) : Int)
  | .poweredChecks => ((2 ^ checksOf d - 1 : Nat) : Int)
  | .poweredLines => ((2 ^ linesPowered d - 1 : Nat) : Int)
  | .thermalWarning => if Config.fixedValue 1 3 0 0 = 0 then 1050 else 1000
  | .overTemperature => if Config.fixedValue 1 3 0 0 = 0 then 1200 else 1150

/-- The value that element j of instance i of an object holds. -/
def oget (d : Dev) (r : Row) (i j : Nat) : Int := (ofind d r i j).getD (dfltOf d r i j)
/-- The same as a number. -/
def ogetN (d : Dev) (r : Row) (i j : Nat) : Nat := (oget d r i j).toNat
/-- Whether a BOOLEAN object holds 1. -/
def ogetB (d : Dev) (r : Row) (i j : Nat) : Bool := oget d r i j != 0

/-- The value in force in an epoch unit: the old one where the unit has yet to apply the epoch that changed it (R87). -/
def ogetU (d : Dev) (u : Nat) (r : Row) (i j : Nat) : Int :=
  match (sfind d.dict.units u).bind (fun x => sfind x.kept (r.key i j)) with
  | some v => v.getD (dfltOf d r i j)
  | none => oget d r i j

/-- The value in force at a close of tick t: an epoch's value takes effect from the first tick closed after its target tick (R111). -/
def ogetPast (d : Dev) (t : Nat) (r : Row) (i j : Nat) : Int :=
  match ((sget d.dict.past (r.key i j) []).filter (fun x => decide (t ≤ x.1))).getLast? with
  | some x => x.2.getD (dfltOf d r i j)
  | none => oget d r i j

/-- Element j of instance i of an object takes the value v. -/
def oset (d : Dev) (r : Row) (i j : Nat) (v : Int) : Dev :=
  { d with dict := { d.dict with obj := sput d.dict.obj (r.key i j) v } }

/-- A counter rises by n. -/
def bumpBy (d : Dev) (r : Row) (i j : Nat) (n : Int) : Dev := oset d r i j (oget d r i j + n)
/-- A counter rises by one. -/
def bump (d : Dev) (r : Row) (i j : Nat) : Dev := bumpBy d r i j 1
/-- A counter rises by one where the condition holds. -/
def bumpIf (c : Bool) (d : Dev) (r : Row) (i j : Nat) : Dev := if c then bump d r i j else d

/-- The response code of a dictionary access, and the data it returns. -/
def answer (d : Dev) (abort : Nat) (data : Bytes) : Dev :=
  { d with dict := { d.dict with abort := abort }, out := .answer abort data :: d.out }

/-- A refusal of a dictionary access. -/
def refuse (d : Dev) (abort : Nat) : Dev := answer d abort noBytes
/-- An access performed. -/
def accept (d : Dev) : Dev := answer d 0 noBytes

/-- Not possible in the present device state. -/
def abortState : Nat := 0x08000022
/-- Data cannot be transferred or stored. -/
def abortStore : Nat := 0x08000020
/-- Value outside its range. -/
def abortRange : Nat := 0x06090030

/-- Send something outside. -/
def emit (d : Dev) (e : Emission) : Dev := { d with out := e :: d.out }

/-- A value that the spec leaves open: the next free value, and the counter moved on. -/
def freshNat (d : Dev) : Nat × Dev := (Config.freeNat d.free, { d with free := d.free + 1 })
/-- The signed form. -/
def freshInt (d : Dev) : Int × Dev := (Config.freeInt d.free, { d with free := d.free + 1 })

/-! ### The clocks -/

/-- D, media time less network time (R30). -/
def mediaD (t : TimeUnit) : Int := (t.media : Int) - t.net

/-- The correction of media time over a stretch that lasts `x`: toward D = 0 at MediaSlewRate, none while |D| exceeds
100 ms or media time is LOCKED (R30). -/
def mediaPull (rate : Nat) (t : TimeUnit) (x : Nat) : Nat :=
  if t.mediaLocked || decide (msec 100 < (mediaD t).natAbs) then 0
  else min (mediaD t).natAbs (x * rate / 1000000000)

/-- How far network time is slewed over a stretch that lasts `x`: at most 10 ppm (R25). -/
def domainPull (t : TimeUnit) (x : Nat) : Nat := min t.slew.natAbs (x * 10 / 1000000)

/-- The sign of an integer. -/
def signOf (x : Int) : Int := if 0 < x then 1 else if x < 0 then -1 else 0

/-- What network time gains by the addend while the counter steps for `de` of elapsed time, and what is left below 2⁻¹⁶ ns:
the addend counts in 2⁻³² ns for each step of 2 ns, so in 2⁻⁴⁹ ns for each 2⁻¹⁶ ns (R21). -/
def servoGain (t : TimeUnit) (de : Nat) : Int × Nat :=
  let x := ((t.frac % 2 ^ 33 : Nat) : Int) + t.addend * de
  (x / (2 ^ 33 : Nat), (x % (2 ^ 33 : Nat)).toNat)

/-- The elapsed time in which the counter, its addend applied, moves on by `dn`, and what is left below 2⁻¹⁶ ns. -/
def elapsedFor (t : TimeUnit) (dn : Nat) : Nat × Nat :=
  let rate := (((2 ^ 33 : Nat) : Int) + t.addend).toNat
  let de := ceilDiv (dn * 2 ^ 33 - t.frac) rate
  (de, t.frac + de * rate - dn * 2 ^ 33)

/-- Network, media and elapsed time move on together. -/
def moveTime (t : TimeUnit) (dm : Nat) (dnet : Int) (de frac pull : Nat) : TimeUnit :=
  { t with media := if t.started then t.media + dm else t.media,
           net := ((t.net : Int) + dnet).toNat,
           elapsed := t.elapsed + de,
           frac := frac,
           slew := t.slew - signOf t.slew * pull,
           slots := if pull = 0 then t.slots
             else t.slots.map (fun s => { s with offset := s.offset - signOf t.slew * pull, base := s.base - signOf t.slew * pull }) }

/-- The clocks after `de` of elapsed time, by MediaSlewRate `rate` in ppb. -/
def TimeUnit.advance (t : TimeUnit) (rate : Nat) (de : Nat) : TimeUnit :=
  let pull := domainPull t de
  let gain := servoGain t de
  let dnet := (de : Int) + gain.1 + signOf t.slew * pull
  let c := mediaPull rate t dnet.toNat
  let dm := (dnet - signOf (mediaD t) * c).toNat
  moveTime t dm dnet de gain.2 pull

/-- The clocks after `dm` of media time. -/
def TimeUnit.advanceMedia (t : TimeUnit) (rate : Nat) (dm : Nat) : TimeUnit :=
  let c := mediaPull rate t dm
  let dnet := (dm : Int) + signOf (mediaD t) * c
  let pull := domainPull t dnet.toNat
  let need := elapsedFor t (dnet - signOf t.slew * pull).toNat
  moveTime t dm dnet need.1 need.2 pull

/-- The clocks after network time has moved on by `dn`. -/
def TimeUnit.advanceNet (t : TimeUnit) (rate : Nat) (dn : Nat) : TimeUnit :=
  let pull := domainPull t dn
  let need := elapsedFor t ((dn : Int) - signOf t.slew * pull).toNat
  let c := mediaPull rate t dn
  moveTime t ((dn : Int) - signOf (mediaD t) * c).toNat dn need.1 need.2 pull

/-- MediaSlewRate, ppb. -/
def slewRate (d : Dev) : Nat := ogetN d Obj.mediaSlewRate 0 0

/-- The elapsed time now. -/
def now (d : Dev) : Nat := d.time.elapsed
/-- Network time now with its generation. -/
def netNow (d : Dev) : NetStamp := ⟨d.time.gen, d.time.net⟩

/-- Picoseconds in time units. -/
def psUnits (v : Int) : Int := v * 65536 / 1000
/-- The time that a PCS takes now: network time at a resolution of 0.25 ns (R22). -/
def pcsTime (d : Dev) : Nat := d.time.net / 16384 * 16384
/-- Network time and generation as they were `ago` before now: before the last step of network time, those that the step found
(R27). -/
def netBefore (d : Dev) (ago : Nat) : NetStamp :=
  let t := d.time
  if ago = 0 ∨ t.stepAt + ago ≤ t.elapsed ∨ t.gen = 0 then ⟨t.gen, t.net - ago⟩
  else ⟨t.stepOld.gen, t.stepOld.t - (t.stepAt + ago - t.elapsed)⟩

/-- The rate of port p, Gbit/s. -/
def rateGbps (d : Dev) (p : Nat) : Nat := [0, 10, 25, 50, 100, 200, 400].getD (rateCode d p) 10
/-- How long n bits last on port p. -/
def bitTimes (d : Dev) (p n : Nat) : Nat := n * 65536 / rateGbps d p

/-- The ingress timestamp of a frame of `octets`, FCS included, whose last octet comes to port p now: its timestamp point is
the start of the frame (R18, R22). -/
def ingressStamp (d : Dev) (p octets : Nat) : NetStamp :=
  let x := netBefore d (bitTimes d p (8 * octets))
  ⟨x.gen, (((x.t / 16384 * 16384 : Nat) : Int) - psUnits (oget d Obj.portIngressLatency 0 p)).toNat⟩
/-- An egress timestamp of port p taken now. -/
def egressStamp (d : Dev) (p : Nat) : NetStamp := ⟨d.time.gen, ((pcsTime d : Int) + psUnits (oget d Obj.portEgressLatency 0 p)).toNat⟩

/-- The media time left before the next tick starts. -/
def toTick (d : Dev) : Nat := d.time.nextTick - d.time.media

/-- Time passes by `dt`, but never across the start of the next tick, which is an event of its own. -/
def passTime (d : Dev) (dt : Nat) : Dev :=
  let t := d.time.advance (slewRate d) dt
  if d.time.started && decide (d.time.nextTick < t.media) then
    { d with time := d.time.advanceMedia (slewRate d) (toTick d) }
  else { d with time := t }

/-- Whether elapsed time `due` can be reached without crossing the start of the next tick. -/
def canReach (d : Dev) (due : Nat) : Bool :=
  decide (due ≤ now d) || !d.time.started ||
    decide ((d.time.advance (slewRate d) (due - now d)).media ≤ d.time.nextTick)

/-- Time passes until `due`, where that has not come yet. -/
def passUntil (d : Dev) (due : Nat) : Dev := passTime d (due - now d)

/-- The tick in progress; before the first tick, one less than its number (R32). -/
def curTick (d : Dev) : Nat :=
  if d.time.ticking then d.time.tick else if d.time.started then d.time.firstTick - 1 else 0

/-- The media time since the start of the tick in progress, whole nanoseconds. -/
def tickOff (d : Dev) : Nat := if d.time.ticking then (d.time.media - d.time.tickStart) / 65536 else 0

/-- One time precedes another under R27: an earlier generation first. -/
def NetStamp.le (a b : NetStamp) : Bool := decide (a.gen < b.gen) || (decide (a.gen = b.gen) && decide (a.t ≤ b.t))
/-- Strictly. -/
def NetStamp.lt (a b : NetStamp) : Bool := decide (a.gen < b.gen) || (decide (a.gen = b.gen) && decide (a.t < b.t))

/-- The seconds of a network time. -/
def secondsOf (t : Nat) : Nat := t / secs 1
/-- Its nanoseconds. -/
def nanosOf (t : Nat) : Nat := t % secs 1 / 65536

/-- The tick in progress at a stamp (R29): the latest of the kept start stamps at or before it; where it precedes them
all, the oldest kept tick. -/
def tickAt : List (Nat × NetStamp) → NetStamp → Nat
  | [], _ => 0
  | [(n, _)], _ => n
  | (n, s) :: r, x => if s.le x then n else tickAt r x

/-! ### The fault collector -/

/-- The item that a report concerns (Table 15.2). -/
inductive Item where
  | port (p : Nat) | slot (s : Nat) | engine (e : Nat) | hearth (h : Nat) | thread (t : Nat) | channel (c : Nat)
  | divergent (c : Nat) | queue (q : Nat) | unit (u : Nat) | stop (s : Nat) | compressor (c : Nat) | check (k : Nat) | pcie (r : Nat)
  | name (n : Nat) | store | line (p : Nat) | lineShell | pll | twinLink | seal | device | whole
  deriving DecidableEq, Repr

/-- The item named by a code, an instance and a detail (Table 15.2, R297). -/
def itemOf (code inst detail : Nat) : Item :=
  match code with
  | 0x0101 => .port inst
  | 0x0102 => .port inst
  | 0x0120 => .port inst
  | 0x0201 => .slot inst
  | 0x0202 => .slot inst
  | 0x0203 => .slot inst
  | 0x0301 => .engine inst
  | 0x0302 => .engine inst
  | 0x0401 => .engine inst
  | 0x0310 => .engine inst
  | 0x0311 => .hearth inst
  | 0x0320 => .hearth inst
  | 0x0412 => .hearth inst
  | 0x0510 => .queue inst
  | 0x0511 => .queue inst
  | 0x0601 => .unit inst
  | 0x0610 => .channel inst
  | 0x0611 => if bitSet detail 31 then .thread inst else .channel inst
  | 0x0801 => .twinLink
  | 0x0802 => .twinLink
  | 0x0810 => .divergent inst
  | 0x0121 => .stop inst
  | 0x0920 => .compressor inst
  | 0x0A01 => .store
  | 0x0A10 => .check inst
  | 0x0A11 => .seal
  | 0x0A12 => .pcie inst
  | 0x0A13 => .name inst
  | 0x0A14 => .store
  | 0x0A20 => .check inst
  | 0x0A21 => .pcie inst
  | 0x0B01 => .pll
  | 0x0B02 => .line inst
  | 0x0B20 => .lineShell
  | 0x0220 => .whole
  | 0x0520 => .whole
  | 0x0C20 => .whole
  | 0x0E20 => .whole
  | c => if 0x7200 ≤ c ∧ c ≤ 0x72FF ∧ bitSet detail 31 = false then .channel inst else .device

/-- The hearth of a flue stop (Table 1.4): rows 0 and 3 hold hearths. -/
def stopHearth (s : Nat) : Option Nat :=
  if s < 6 then some s else if 18 ≤ s ∧ s < 24 then some (s - 12) else none

/-- The block that an FC3 code resets: kind and instance (Tables 15.2, 15.3). -/
def blockOf (code inst : Nat) : Nat × Nat :=
  match code with
  | 0x0120 => (1, inst)
  | 0x0121 =>
    match stopHearth inst with
    | some h => (2, h)
    | none => (8, 0)
  | 0x0320 => (2, inst)
  | 0x0412 => (2, inst)
  | 0x0820 => (7, 0)
  | 0x0920 => (3, inst)
  | 0x0A20 => (4, inst)
  | 0x0A21 => (5, inst)
  | 0x0B20 => (6, 0)
  | _ => (8, 0)

/-- The egress port of a channel: that of the endpoint it sends to, or none. -/
def chanPort (d : Dev) (c : Channel) : Option Nat :=
  let ep := if c.output = 0xFFFFFFFF then c.endpoint else c.output
  (sfind d.endpoints ep).map (fun r => getF r Ep.egressPort)

/-- Whether channel c belongs to the interfaces of block (kind, b): those of its egress port, of its hearth, and of the line shell
for a channel bound to a line port (Table 15.3). -/
def chanOnInterface (d : Dev) (kind b c : Nat) : Bool :=
  match kind with
  | 1 => (sfind d.chans c).any (fun ch => decide (chanPort d ch = some b))
  | 2 => (sfind d.chans c).any (fun ch => decide (ch.engine / 16 = b))
  | 6 => d.line.ports.any (fun p => decide (p.2.bound = some c))
  | _ => false

/-- Whether queue q belongs to the interfaces of hearth b: it is granted to it alone, or it is that of an ordered-accumulate context with
a member there (Table 15.3). -/
def queueOnHearth (d : Dev) (b q : Nat) : Bool :=
  decide (ogetN d Obj.queueGrantMask q 0 = 2 ^ b) ||
  (decide (queueKind q = 6) && (sget d.groups (q - 253440) []).any (fun m => chanOnInterface d 2 b m.2))

/-- Whether an item belongs to the interfaces of block (kind, inst) (Table 15.3). -/
def onInterface (d : Dev) (kind b : Nat) (it : Item) : Bool :=
  match kind, it with
  | 8, it => it != .whole
  | 7, .divergent _ => true
  | k, .divergent c => chanOnInterface d k b c
  | k, .channel c => chanOnInterface d k b c
  | 1, .slot s => bitSet (ogetN d Obj.portMask s 0) b
  | 1, .twinLink => decide (ogetN d Obj.twinLinkPort0 0 0 = b) || decide (ogetN d Obj.twinLinkPort1 0 0 = b)
  | 2, .engine e => decide (e / 16 = b)
  | 2, .thread t =>
    match sfind d.stk.tcbs t with
    | some k => decide (k.home / 16 = b)
    | none => false
  | 2, .stop s => decide (stopHearth s = some b)
  | 2, .queue q => queueOnHearth d b q
  | 2, .unit u => decide (u = 48 + b)
  | 4, .seal => (sget d.store.checks b ⟨none, none⟩).sealing.isSome
  | 5, .name n => decide (n / 2 = b)
  | 5, .store => true
  | 6, .line _ => true
  | 6, .pll => true
  | 7, .twinLink => true
  | _, _ => false

/-- The record of block (kind, inst). -/
def blockSt (d : Dev) (kind inst : Nat) : BlockSt := sget d.faults.blocks (kind * 256 + inst) ⟨0, 0, 0, 0, [], 0⟩

/-- The window that a report on an item belongs to, if any: the one that opened first and, at the same instant, that of
the lower log sequence (R298, R301). The result is the block's key and the causing sequence. -/
def windowOf (d : Dev) (it : Item) : Option (Nat × Nat) :=
  let hits := d.faults.blocks.filter (fun p =>
    (decide (p.2.phase = 1) || decide (p.2.phase = 2)) && onInterface d (p.1 / 256) (p.1 % 256) it)
  (hits.foldl (fun (acc : Option (Nat × BlockSt)) p =>
    match acc with
    | none => some p
    | some a =>
      if p.2.opened < a.2.opened ∨ (p.2.opened = a.2.opened ∧ p.2.cause < a.2.cause) then some p else some a) none).map
    (fun p => (p.1, p.2.cause))

/-- Whether anything of class FC2 or above stands (Table 14.2, bit 0). -/
def standsAny (f : Faults) : Bool :=
  !f.standing.isEmpty || decide (f.quench ≠ 0) || f.blocks.any (fun p => decide (p.2.phase = 1) || decide (p.2.phase = 2))

/-- Whether CAN bus b is enabled (R273). -/
def busEnabled (d : Dev) (b : Nat) : Bool := decide (d.start.straps.node % 128 ≠ 0) && bitSet (ogetN d Obj.canEnable 0 0) b

/-- The node of a bus. -/
def canNode (d : Dev) (b : Nat) : CanNode :=
  sget d.cans b { nmt := 0, state := 0, nominal := 2, data := 1, syncCount := [] }

/-- ErrorRegister (Table 14.2). -/
def errorReg (d : Dev) : Nat :=
  b2n d.faults.faultN * 128
  + b2n ((busEnabled d 0 && decide ((canNode d 0).state ≠ 0)) || (busEnabled d 1 && decide ((canNode d 1).state ≠ 0))
      || decide (d.goa.link = 0)) * 16
  + b2n (standsAny d.faults)

/-- An EMCY on each enabled bus, or inhibited (R277): error code, fault code and instance. -/
def sendEmcy (d : Dev) (err code inst : Nat) : Dev :=
  let wait := ogetN d Obj.inhibitTimeEmcy 0 0 * usec 100
  if !(busEnabled d 0 || busEnabled d 1) then d
  else
    match d.faults.emcyLast with
    | some t0 => if now d < t0 + wait then bump d Obj.emcyInhibited 0 0 else go
    | none => go
where
  go : Dev :=
    let body := bytesOf 8 (err + errorReg d * 2 ^ 16 + code * 2 ^ 24 + inst * 2 ^ 40)
    let id := ogetN d Obj.cobIdEmcy 0 0 % 2048
    let d1 := if busEnabled d 0 then emit d (.can 0 id body) else d
    let d2 := if busEnabled d 1 then emit d1 (.can 1 id body) else d1
    let f := d2.faults
    bump { d2 with faults := { f with emcyLast := some (now d2), emcyField := ((err + code * 65536) :: f.emcyField).take 8 } }
      Obj.emcySent 0 0

/-- Whether a log entry is open: FC0 to FC2, within CoalesceWindow of its first report (R303). -/
def entryOpen (d : Dev) (e : LogEntry) : Bool := decide (now d < e.since + msec (ogetN d Obj.coalesceWindow 0 0))

/-- An entry copied to the ring, which holds 65,536 (R304). -/
def toRing (d : Dev) (e : LogEntry) : Dev :=
  let full := decide (65536 ≤ d.faults.ring.length)
  bumpIf full { d with faults := { d.faults with ring := (e :: d.faults.ring).take 65536 } } Obj.ringOverwritten 0 0

/-- What the collector did with a report: its log sequence (0 where it made no entry), and the window's block and cause
where it is CONSEQUENTIAL. -/
structure Logged where
  dev    : Dev
  seq    : Nat
  window : Option (Nat × Nat)

/-- The collector counts a report and logs, coalesces or loses it (R298, R303 to R305). -/
def logReport (d : Dev) (cls code inst detail : Nat) (escal : Bool) : Logged :=
  let win := if cls = 4 then none else windowOf d (itemOf code inst detail)
  let cause := (win.map Prod.snd).getD 0
  let d := bump d Obj.faultDetected 0 cls
  let d := bumpIf win.isSome d Obj.faultConsequential 0 cls
  let d := match win with
    | some w => bump d Obj.consequentialReports w.1 0
    | none => d
  let merges := fun (e : LogEntry) =>
    decide (e.cls = cls) && decide (e.code = code) && decide (e.inst = inst) && entryOpen d e
      && (!win.isSome || (e.conseq && decide (e.cause = cause)))
  if cls < 3 && d.faults.low.any merges then
    let low := d.faults.low.map (fun e =>
      if merges e then { e with coalesced := min 65535 (e.coalesced + 1), lastTick := curTick d } else e)
    ⟨bump { d with faults := { d.faults with low := low } } Obj.faultCoalesced 0 cls, 0, win⟩
  else if cls < 3 && decide (960 ≤ d.faults.low.length) then
    ⟨bump { d with faults := { d.faults with lostFlag := cls :: d.faults.lostFlag.filter (· ≠ cls) } }
      Obj.faultLost 0 cls, 0, win⟩
  else
    let seq := d.faults.seq + 1
    let e : LogEntry :=
      { seq := seq, cause := cause, tick := curTick d, off := tickOff d, lastTick := curTick d, cls := cls, code := code,
        inst := inst, detail := detail, coalesced := 0, conseq := win.isSome, escal := escal,
        lostBefore := d.faults.lostFlag.contains cls, since := now d }
    let f := { d.faults with seq := seq, lostFlag := d.faults.lostFlag.filter (· ≠ cls) }
    let d := bump { d with faults := f } Obj.faultLogged 0 cls
    let d := if cls < 3 then { d with faults := { d.faults with low := d.faults.low ++ [e] } } else toRing d e
    ⟨d, seq, win⟩

/-- Whether the report of `l` was added to an open entry. -/
def Logged.merged (l : Logged) (before : Dev) (cls : Nat) : Bool :=
  oget l.dev Obj.faultCoalesced 0 cls != oget before Obj.faultCoalesced 0 cls

/-- FAULT_N is asserted (R308). -/
def assertFaultN (d : Dev) : Dev := { d with faults := { d.faults with faultN := true, faultNAt := now d } }

/-- A report as the collector takes it, but for the reaction of FC3 and FC4: the log, FAULT_N, EMCY, and for FC2 what
stands (R295, R277, R308). -/
def reportL (d : Dev) (cls code inst detail : Nat) (escal : Bool) : Logged :=
  let l := logReport d cls code inst detail escal
  let conseq := l.window.isSome
  let d1 := if 3 ≤ cls && !conseq then assertFaultN l.dev else l.dev
  let stand := if d1.faults.standing.contains (code, inst, detail) then d1.faults.standing
    else (code, inst, detail) :: d1.faults.standing
  let d2 := if cls = 2 then { d1 with faults := { d1.faults with standing := stand } } else d1
  let d3 := if 2 ≤ cls && !conseq && !(l.merged d cls) && decide (code ≠ 0x0C40) then
      sendEmcy d2 (0xFF00 + cls) code inst else d2
  { l with dev := d3 }

/-- The same, where only the device matters. -/
def report (d : Dev) (cls code inst detail : Nat) : Dev := (reportL d cls code inst detail false).dev

/-- Standing FC2 faults that name an item by code and instance clear (Table 15.2). -/
def clearStanding (d : Dev) (codes : List Nat) (inst : Nat) : Dev :=
  let left := d.faults.standing.filter (fun p => !(codes.contains p.1 && decide (p.2.1 = inst)))
  { d with faults := { d.faults with standing := left } }

/-! ### Engines -/

/-- An idle engine where none is listed. -/
def engineOf (d : Dev) (e : Nat) : EngineSt := sget d.engines e EngineSt.reset
/-- A window of Load: 100 ms of elapsed time (R186). -/
def loadWindow : Nat := 100000000 * 65536

/-- The account of an engine brought to elapsed time `t`, `held` telling whether it has held a thread since it was last brought
up. -/
def LoadAcct.roll (a : LoadAcct) (held : Bool) (t : Nat) : LoadAcct :=
  let gain := fun n => if held then n else 0
  let w := a.upto / loadWindow
  if t / loadWindow = w then { a with upto := t, busy := a.busy + gain (t - a.upto) }
  else
    { upto := t, busy := gain (t % loadWindow),
      last := if t / loadWindow = w + 1 then a.busy + gain ((w + 1) * loadWindow - a.upto) else gain loadWindow }

/-- The account of engine e as it stands now, for an engine that held a thread till now or not. -/
def loadOf (d : Dev) (e : Nat) (held : Bool) : LoadAcct :=
  (sget d.stk.loads e LoadAcct.zero).roll held (now d)

/-- The accounts of some engines brought up before what they run changes. -/
def rollLoads (d : Dev) (mine : Nat → Bool) : Dev :=
  let busy := (d.engines.filter (fun p => mine p.1 && p.2.thread.isSome)).map Prod.fst
  { d with stk := { d.stk with loads := busy.foldl (fun m e => sput m e (loadOf d e true)) d.stk.loads } }

/-- The device with engine e changed; where it takes a thread or loses one, Load accounts for it (R186). -/
def setEngine (d : Dev) (e : Nat) (x : EngineSt) : Dev :=
  let held := (engineOf d e).thread.isSome
  let loads := if held = x.thread.isSome then d.stk.loads else sput d.stk.loads e (loadOf d e held)
  { d with engines := sput d.engines e x, stk := { d.stk with loads := loads } }

/-- The account of compressor unit c as it stands now, for a unit that has run a job till now or not (R238). -/
def unitBusyOf (d : Dev) (c : Nat) (on : Bool) : LoadAcct := (sget d.ev.busy c LoadAcct.zero).roll on (now d)

/-- The accounts of the units that run a job, brought up before they are stopped. -/
def rollUnits (d : Dev) : Dev :=
  let on := (d.ev.units.filter (fun p => p.2.stream.isSome)).map Prod.fst
  { d with ev := { d.ev with busy := on.foldl (fun m c => sput m c (unitBusyOf d c true)) d.ev.busy } }

/-- Whether a check channel runs a job. -/
def CheckCh.on (x : CheckCh) : Bool := x.job.isSome || x.sealing.isSome

/-- The account of check channel k as it stands now, for one that has run a job till now or not (R254). -/
def checkBusyOf (d : Dev) (k : Nat) (on : Bool) : LoadAcct := (sget d.store.busy k LoadAcct.zero).roll on (now d)

/-- A record whose seal stops waits for a channel again. -/
def Rec.unsealed (r : Rec) : Rec := if r.phase = 1 then { r with phase := 0 } else r

/-- Compressors and check channels stop where they stand, and hold no job. -/
def haltBlocks (d : Dev) : Dev :=
  let d := rollUnits d
  let on := (d.store.checks.filter (fun p => p.2.on)).map Prod.fst
  { d with ev := { d.ev with units := d.ev.units.map (fun u => (u.1, { u.2 with state := 0, stream := none })) }
           store := { d.store with busy := on.foldl (fun m k => sput m k (checkBusyOf d k true)) d.store.busy
                                   checks := d.store.checks.map (fun p => (p.1, ⟨none, none⟩))
                                   segs := d.store.segs.map (fun g => { g with records := g.records.map Rec.unsealed }) } }

/-- Table 15.7: the outputs of the device go to the state of a quench. Engines, compressors and check channels stop;
NVMe commands already submitted complete; VDD_CORE keeps its last command. -/
def quench (d : Dev) (code : Nat) : Dev :=
  let d := haltBlocks (rollLoads (assertFaultN d) (fun _ => true))
  let ports := d.fwd.ports.map (fun p => (p.1, { p.2 with linkUp := false, txPrio := none }))
  let pins := d.time.pins.map (fun p => { p with level := p.rest })
  { d with
    faults := { d.faults with quench := if d.faults.quench = 0 then code else d.faults.quench,
                              quenchSup := d.faults.quenchSup || decide (code = 0x0C40), pilot := 0 }
    fwd := { d.fwd with ports := ports }
    time := { d.time with pins := pins, ppsOut := false, ppsEnd := none }
    engines := d.engines.map (fun e => (e.1, { e.2 with thread := none, ops := [], copies := [] }))
    start := { d.start with state := 4, ready := false } }

/-- Whether the device is quenched. -/
def quenched (d : Dev) : Bool := decide (d.start.state = 4)
/-- Whether nothing new starts in the data plane: the device is quenched, or RESET_N is low (R309, R314). -/
def halted (d : Dev) : Bool := quenched d || d.start.resetLow

end Sys2Proof.Machine
end

