-- ==== Sys2Proof/Machine/Queues.lean ====
section
/-! DEFINITION. The queue manager's own operations (R190 to R199): cells, acceptance, push, pop, mark, rewind, release,
reset. The post that a threshold crossing makes is added in Post.lean. -/
namespace Sys2Proof.Machine

/-- The queue q as it stands. -/
def queueOf (d : Dev) (q : Nat) : Queue := sget d.queues q Queue.empty

/-- The device with queue q changed. -/
def setQueue (d : Dev) (q : Nat) (x : Queue) : Dev := { d with queues := sput d.queues q x }

/-- Whether queue q is a WORD queue (Table 9.2): a general queue with ItemMode 0. -/
def isWord (d : Dev) (q : Nat) : Bool := decide (queueKind q = 5) && decide (ogetN d Obj.itemMode q 0 = 0)

/-- Cells that an item fills in a BLOCK queue (R192). -/
def QItem.cells (i : QItem) : Nat := ceilDiv i.data.len 128

/-- Cells that the items of a queue fill (R192): eight items of a WORD queue share a cell. -/
def itemCells (word : Bool) (x : Queue) : Nat :=
  if word then (if x.items.isEmpty then 0 else ceilDiv (x.headSlot + x.items.length) 8)
  else sumNat (x.items.map QItem.cells)

/-- Entries that an ordered-accumulate context holds in open rounds, one cell each (R163). -/
def oaHeld (c : OaCtx) : Nat := sumNat (c.open_.map (fun r => r.2.entries.length))

/-- CellsHeld of queue q, its stranded cells included; a bank queue holds its ten cells (R163, R199, R201). -/
def cellsHeld (d : Dev) (q : Nat) : Nat :=
  match queueKind q with
  | 2 => 10
  | 6 => ((sfind d.oa (q - 253440)).map oaHeld).getD 0
  | 7 => ((sfind d.oa (q - 253440)).map oaHeld).getD 0
  | _ => (queueOf d q).stranded.length + itemCells (isWord d q) (queueOf d q)

/-- HeldCells: the bank region and the cells of every other queue (R199). -/
def heldCells (d : Dev) : Nat :=
  655360 + sumNat (d.oa.map (fun p => oaHeld p.2)) + sumNat (d.queues.map (fun p => if queueKind p.1 = 2 then 0 else p.2.stranded.length + itemCells (isWord d p.1) p.2))

/-- The place from which the pool's cells are shared: the bank region lies below it (R199, R201). -/
def poolStart : Nat := 655360

/-- The places of the pool that queues hold: the cells of their items, stranded cells, and entries of open rounds (R190, R163). -/
def heldPlaces (d : Dev) : List Nat :=
  d.queues.flatMap (fun p => p.2.items.flatMap QItem.places ++ p.2.stranded) ++
    d.oa.flatMap (fun p => p.2.open_.flatMap (fun r => r.2.entries.map OaEntry.place))

/-- The `k` lowest places from n on that a list does not hold. -/
def placesFrom (held : List Nat) : Nat → Nat → Nat → List Nat
  | 0, _, _ => []
  | _, 0, _ => []
  | fuel + 1, k + 1, n => if held.contains n then placesFrom held fuel (k + 1) (n + 1) else n :: placesFrom held fuel k (n + 1)

/-- The places that the next k cells taken from the free list have. The spec does not say which free cell is taken: the lowest place
stands for it, and which CELL_n a place is is a constant of the device (Config.cellNumber). -/
def takePlaces (d : Dev) (k : Nat) : List Nat :=
  let held := heldPlaces d
  placesFrom held (held.length + k) k poolStart

/-- FreeCells (R199). -/
def freeCells (d : Dev) : Nat := 1048576 - heldCells d

/-- Depth: items not yet wholly read (R193). -/
def Queue.depth (x : Queue) : Nat := x.items.length - x.read

/-- Whether queue q has ClassA (Table 9.2, R197). -/
def queueClassA (d : Dev) (q : Nat) : Bool :=
  ogetB d Obj.queueClassA q 0 || (List.range 4).any (fun j => decide (ogetN d Obj.traceQueue 0 j = q))

/-- New cells that an item needs at the tail of queue q. -/
def cellsNeeded (d : Dev) (q : Nat) (i : QItem) : Nat :=
  if isWord d q then
    let x := queueOf d q
    if x.items.isEmpty then 1 else if (x.headSlot + x.items.length) % 8 = 0 then 1 else 0
  else i.cells

/-- Why a push is not accepted (R196): 0 it is, 1 the queue's own limit, 2 want of free cells. -/
def pushVerdict (d : Dev) (q k : Nat) : Nat :=
  if ogetN d Obj.queueDepthLimit q 0 < cellsHeld d q + k then 1
  else if queueClassA d q then (if freeCells d < k then 2 else 0)
  else if freeCells d < k + ogetN d Obj.classAReserve 0 0 then 2
  else 0

/-- Whether a queue takes pushes at all: not a bank or ordered-accumulate queue, not reserved, not isolated, and its
channel open where it is a channel's (R191, R198). -/
def queueOpen (d : Dev) (q : Nat) : Bool :=
  !(queueOf d q).isolated && !queueReserved q &&
    match queueKind q with
    | 0 => shas d.chans q
    | 1 => shas d.chans (q - 65536)
    | 3 => true
    | 4 => true
    | 5 => true
    | _ => false

/-- The outcome of a push: whether it was accepted, and whether Depth reached the threshold by it. -/
structure Push where
  dev     : Dev
  ok      : Bool
  crossed : Bool

/-- Whether Depth went from below ThresholdDepth to it or above (R200). -/
def crossed (d : Dev) (q before after : Nat) : Bool :=
  let t := ogetN d Obj.thresholdDepth q 0
  decide (t ≠ 0) && decide (before < t) && decide (t ≤ after)

/-- A push of an item to queue q, by the acceptance of R196. `word` is the mode of the operation (R192). -/
def rawPush (d : Dev) (q : Nat) (word : Bool) (i : QItem) : Push :=
  if !queueOpen d q || (isWord d q != word) then ⟨d, false, false⟩
  else
    match pushVerdict d q (cellsNeeded d q i) with
    | 0 =>
      let x := queueOf d q
      let shared := if cellsNeeded d q i = 0 then ((x.items.getLast?).map QItem.places).getD [] else []
      let i := { i with places := shared ++ takePlaces d (cellsNeeded d q i) }
      let d1 := bump (setQueue d q { x with items := x.items ++ [i] }) Obj.queuePushes q 0
      let low := ogetN d1 Obj.freeCellsMin 0 0
      let d2 := if freeCells d1 < low then oset d1 Obj.freeCellsMin 0 0 (freeCells d1) else d1
      ⟨d2, true, crossed d q x.depth (x.depth + 1)⟩
    | 1 => ⟨bump d Obj.queuePushesRefused q 0, false, false⟩
    | _ => ⟨if queueClassA d q then bump d Obj.classARefusals 0 0 else bump d Obj.poolRefusals 0 0, false, false⟩

/-- An item of plain bytes. -/
def plainItem (data : Bytes) : QItem := QItem.of data .plain

/-- The 64-bit words of an item that bytes `off` to `off + n - 1` touch, as a mask over its words. -/
def wordMask (off n : Nat) : Nat := if n = 0 then 0 else (2 ^ ((off + n - 1) / 8 + 1) - 1) - (2 ^ (off / 8) - 1)

/-- What a pop delivers: bytes, the words of them that carry POISON (by word of the delivery), what is left in the item,
and whether the queue underran. -/
structure Pop where
  dev    : Dev
  data   : Bytes
  poison : Bool
  psn    : Nat
  skew   : Nat            -- where in its word of the item the first byte lies
  left   : Nat
  under  : Bool
  info   : ItemInfo

/-- The parity errors that a read of the words `bad` finds: counted for the queue and the device and reported, FC1
(R198). -/
def parityFound (d : Dev) (q bad : Nat) : Dev :=
  let n := popCount 2048 bad
  if n = 0 then d
  else report (bumpBy (bumpBy d Obj.queueParityErrors q 0 n) Obj.cellParityErrors 0 0 n) 1 0x0510 q 0

/-- A pop of an empty queue (R194). -/
def underrun (d : Dev) (q len : Nat) : Pop :=
  let x := queueOf d q
  { dev := bump d Obj.queueUnderruns q 0, data := bytesOf (min len 16) x.last, poison := x.isolated, psn := 0, skew := 0, left := 0,
    under := true, info := .plain }

/-- The queue whose damaged cell cannot be followed: isolated, FC2 (R198). -/
def isolateQueue (d : Dev) (q : Nat) : Dev :=
  report (setQueue d q { queueOf d q with isolated := true }) 2 0x0511 q 0

/-- Whether a read of bytes `off` to `off + n - 1` of an item comes to a cell whose HeaderParity fails: its cells are followed from the
first (R198). -/
def QItem.damagedAt (i : QItem) (off n : Nat) : Bool := decide (i.badHeads % 2 ^ ((off + n - 1) / 128 + 1) ≠ 0)

/-- Take up to `len` bytes of the item at the read point of queue q (Table 9.3, R194, R198). -/
def rawPop (d : Dev) (q len : Nat) : Pop :=
  let x := queueOf d q
  if x.isolated then underrun d q len
  else
    match x.items[x.read]? with
    | none => underrun d q len
    | some i =>
      if i.damagedAt x.off (min len (i.data.len - x.off)) then underrun (isolateQueue d q) q len
      else
        let n := min len (i.data.len - x.off)
        let left := i.data.len - x.off - n
        let mask := wordMask x.off n
        let bad := i.badPar &&& mask
        let psn := (i.poison &&& mask) ||| bad
        let v := sliceBytes i.data.val x.off n
        let last := if 16 ≤ n then sliceBytes v (n - 16) 16 else v
        let x' := if left = 0 then { x with read := x.read + 1, off := 0, last := last }
                  else { x with off := x.off + n, last := last }
        let d1 := parityFound (setQueue d q x') q bad
        { dev := if left = 0 then bump d1 Obj.queuePops q 0 else d1, data := ⟨n, v⟩, poison := decide (psn ≠ 0),
          psn := psn >>> (x.off / 8), skew := x.off % 8, left := left, under := false, info := i.info }

/-- QMARK (Table 9.3): refused on an isolated queue (R198). The flag tells whether it was performed. -/
def rawMark (d : Dev) (q : Nat) : Dev × Bool :=
  let x := queueOf d q
  if x.isolated then (d, false) else (setQueue d q { x with mark := some (x.read, x.off) }, true)

/-- QREWIND (Table 9.3): refused with no mark set. The last flag tells whether the threshold was reached (R200). -/
def rawRewind (d : Dev) (q : Nat) : Dev × Bool × Bool :=
  let x := queueOf d q
  match x.isolated, x.mark with
  | false, some (r, o) =>
    let x' := { x with read := r, off := o }
    (setQueue d q x', true, crossed d q x.depth x'.depth)
  | _, _ => (d, false, false)

/-- QRELEASE (Table 9.3): every whole item before the read point is released; a mark before the new head is cleared. -/
def rawRelease (d : Dev) (q : Nat) : Dev × Bool :=
  let x := queueOf d q
  if x.isolated then (d, false)
  else
    let left := x.items.drop x.read
    let mark := match x.mark with
      | some (r, o) => if r < x.read then none else some (r - x.read, o)
      | none => none
    let slot := if left.isEmpty then 0 else (x.headSlot + x.read) % 8
    let x' := { x with items := left, read := 0, mark := mark, headSlot := if isWord d q then slot else 0 }
    (bumpBy (setQueue d q x') Obj.queueReleases q 0 x.read, true)

/-- QSTAT (Table 9.3): QS with EMPTY and FULL as they stand, Depth and CellsHeld. EMPTY is bit 0 and FULL bit 1 of the
two flags returned. -/
def rawStat (d : Dev) (q : Nat) : Bool × Bool × Nat × Nat :=
  let x := queueOf d q
  (decide (x.depth = 0), !queueOpen d q || decide (pushVerdict d q 1 ≠ 0), x.depth, cellsHeld d q)

/-- Every item of a queue discarded and its cells freed; stranded cells stay (R68, R83). -/
def flushQueue (d : Dev) (q : Nat) : Dev :=
  setQueue d q { queueOf d q with items := [], read := 0, off := 0, mark := none, headSlot := 0 }

/-- What a hardware consumer that reads an item whole makes of it: the item, its words with bad parity delivered with POISON and
counted; or, where one of its cells cannot be followed, the queue isolated (R198). -/
def readWhole (d : Dev) (q : Nat) (i : QItem) : Option QItem × Dev :=
  if (queueOf d q).isolated then (none, d)
  else if i.badHeads ≠ 0 then (none, isolateQueue d q)
  else (some { i with poison := i.poison ||| i.badPar }, parityFound d q i.badPar)

/-- The item at place n of a queue leaves it, popped and released at once by a hardware consumer. -/
def eraseItem (d : Dev) (q n : Nat) : Dev :=
  let x := queueOf d q
  let d1 := setQueue d q { x with items := x.items.eraseIdx n, read := if n < x.read then x.read - 1 else x.read,
                                  off := if n = x.read then 0 else x.off }
  bump (bump d1 Obj.queuePops q 0) Obj.queueReleases q 0

/-- The oldest item of a queue, taken whole by a hardware consumer. -/
def takeItem (d : Dev) (q : Nat) : Option QItem × Dev :=
  match (queueOf d q).items with
  | [] => (none, d)
  | i :: _ =>
    match readWhole d q i with
    | (some i, d) => (some i, eraseItem d q 0)
    | r => r

/-- The cells of a queue from its head, each once, with the damage of each: those of a BLOCK queue item by item, and of a WORD queue
the one that each item lies in. -/
def cellChain (x : Queue) : List (Nat × Bool) :=
  (x.items.flatMap (fun i => i.places.mapIdx (fun k p => (p, i.badHeads.testBit k)))).foldl (fun acc c =>
    if acc.any (fun y => decide (y.1 = c.1)) then acc.map (fun y => if y.1 = c.1 then (y.1, y.2 || c.2) else y) else acc ++ [c]) []

/-- QueueReset of an isolated queue: cells before the damaged one are freed; it and those beyond it are stranded (R198). -/
def resetQueue (d : Dev) (q : Nat) : Dev :=
  let x := queueOf d q
  let left := ((cellChain x).dropWhile (fun c => !c.2)).map Prod.fst
  clearStanding (setQueue d q { Queue.empty with stranded := x.stranded ++ left }) [0x0511] q

/-- Whether `k` cells taken from the pool leave it as R196 asks of queue q; used by hardware producers that look before
they push. -/
def roomFor (d : Dev) (q k : Nat) : Bool := decide (pushVerdict d q k = 0)

end Sys2Proof.Machine
end

