-- ==== Sys2Proof/Machine/Post.lean ====
section
/-! DEFINITION. Ready entries and posts (R169 to R171, R177), the class A trace (R185), and queue operations with the
threshold posts that they make (R200). -/
namespace Sys2Proof.Machine

/-- The thread control block of thread t, or none where it is FREE. -/
def tcbOf (d : Dev) (t : Nat) : Option Tcb := sfind d.stk.tcbs t
/-- The device with the TCB of thread t changed. -/
def setTcb (d : Dev) (t : Nat) (x : Tcb) : Dev := { d with stk := { d.stk with tcbs := sput d.stk.tcbs t x } }
/-- The context of thread t wherever it stands changes: on its engine, waiting to be written back, or saved (Table
6.14). -/
def onThreadCtx (d : Dev) (t : Nat) (f : Ctx → Ctx) : Dev :=
  if d.engines.any (fun e => decide (e.2.thread = some t)) then
    { d with engines := d.engines.map (fun e => (e.1, if e.2.thread = some t then { e.2 with ctx := f e.2.ctx } else e.2)) }
  else if d.engines.any (fun e => decide (e.2.back.map Prod.fst = some t)) then
    let g := fun (x : EngineSt) => if x.back.map Prod.fst = some t then { x with back := x.back.map (fun b => (b.1, f b.2)) } else x
    { d with engines := d.engines.map (fun e => (e.1, g e.2)) }
  else
    match tcbOf d t with
    | some k => setTcb d t { k with ctx := f k.ctx }
    | none => d

/-- The ready entries of hearth h, in the order written. -/
def readyOf (d : Dev) (h : Nat) : List Ready := sget d.stk.ready h []
/-- The home hearth of a thread. -/
def hearthOf (d : Dev) (t : Nat) : Nat :=
  match tcbOf d t with
  | some k => k.home / 16
  | none => 0

/-- Every poster that holds an event for a thread of hearth h owes a retry for each of `n` entries freed there (R170). -/
def oweRetries (d : Dev) (h n : Nat) : Dev :=
  if n = 0 then d
  else
    let mine := d.stk.latches.filter (fun p => p.2.head?.any (fun x => decide (hearthOf d x.thread = h)))
    { d with stk := { d.stk with owed := mine.foldl (fun m p => sput m p.1 (sget m p.1 0 + n)) d.stk.owed } }

/-- The device with hearth h's ready store changed: ReadyEntriesMax follows it, and what is freed calls for retries. -/
def setReady (d : Dev) (h : Nat) (l : List Ready) : Dev :=
  let d1 := oweRetries { d with stk := { d.stk with ready := sput d.stk.ready h l } } h ((readyOf d h).length - l.length)
  if ogetN d1 Obj.readyEntriesMax h 0 < l.length then oset d1 Obj.readyEntriesMax h 0 l.length else d1

/-- Whether a thread has TRACE set (Table 8.1). -/
def Tcb.trace (k : Tcb) : Bool := bitSet k.flags 0
/-- Whether it has DEADLINE_ORDER set. -/
def Tcb.byDeadline (k : Tcb) : Bool := bitSet k.flags 1
/-- Whether it has TICK set. -/
def Tcb.ticks (k : Tcb) : Bool := bitSet k.flags 2
/-- Its TraceSelect. -/
def Tcb.traceSelect (k : Tcb) : Nat := k.flags / 8 % 4
/-- A runnable thread: READY or RUNNING (R168). -/
def Tcb.runnable (k : Tcb) : Bool := decide (k.state = 2) || decide (k.state = 3)

/-- The runnable threads bound to engine e (R168). -/
def runnableOn (d : Dev) (e : Nat) : Nat :=
  (d.stk.tcbs.filter (fun p => decide (p.2.home = e) && p.2.runnable)).length

/-- Whether an entry of kind `kind` makes thread `k` ready: one of the kinds it waits for within its release, or of its
WaitMask; RESUME always (R168, Table 8.4). -/
def Tcb.wants (k : Tcb) (kind : Nat) : Bool :=
  match k.hold with
  | some (.kinds m _) => bitSet m kind
  | some _ => false
  | none => decide (kind = 6) || (if k.release.isSome then false else bitSet k.waitMask kind)

/-- One trace record (Table 8.10) as an item, and the count of the decision (R185). What a TraceSelect lost while its queue was
unset counts in the sequence of the queue it is set to, whose next record tells of it (DESIGN CHOICE, log entry 81). -/
def rawTrace (d : Dev) (t engine decision kind detail : Nat) : Push :=
  match tcbOf d t with
  | none => ⟨d, false, false⟩
  | some k =>
    if !k.trace then ⟨d, false, false⟩
    else
      let q := ogetN d Obj.traceQueue 0 k.traceSelect
      let unset := 2 ^ 32 + k.traceSelect
      let gone := sget d.stk.trace unset (0, false)
      let (n0, lost0) := if q = 0xFFFFFFFF then (0, false) else sget d.stk.trace q (0, false)
      let n := (n0 + gone.1) % 65536
      let lost := lost0 || gone.2
      let r := setF (setF (setF (setF (setF (setF (setF (setF (setF (setF (setF 0
        TraceRec.tick (curTick d)) TraceRec.tickOffset (tickOff d)) TraceRec.thread t) TraceRec.channel k.channel)
        TraceRec.engine engine) TraceRec.decision decision) TraceRec.priority k.prio) TraceRec.entryKind kind)
        TraceRec.detail detail) TraceRec.sequence n) TraceRec.lostBefore (b2n lost)
      let p := rawPush (bump d Obj.traceDecisions 0 0) q false (plainItem (bytesOf 32 r))
      let d1 := if p.ok then bump p.dev Obj.traceWritten 0 0 else bump p.dev Obj.traceRefused 0 0
      let m := if q = 0xFFFFFFFF then sput d1.stk.trace unset (gone.1 + 1, true)
        else sput (serase d1.stk.trace unset) q ((n + 1) % 65536, !p.ok)
      ⟨{ d1 with stk := { d1.stk with trace := m } }, p.ok, p.crossed⟩

/-- The queue that a thread's trace records go to. -/
def traceQueueOf (d : Dev) (t : Nat) : Nat :=
  match tcbOf d t with
  | some k => ogetN d Obj.traceQueue 0 k.traceSelect
  | none => 0xFFFFFFFF

/-- The length of the tick in progress, ns: 2.5 ms, or longer after a re-anchor (R31). -/
def tickSpan (d : Dev) : Nat := if d.time.ticking then (d.time.nextTick - d.time.tickStart) / 65536 else 2500000

/-- The tick and offset of a time `ns` nanoseconds of media time after the present (Table 8.1). -/
def deadlineAfter (d : Dev) (ns : Nat) : Nat × Nat :=
  let x := tickOff d + ns
  if x < tickSpan d then (curTick d, x)
  else (curTick d + 1 + (x - tickSpan d) / 2500000, (x - tickSpan d) % 2500000)

/-- The offset of tick n's guard point, ns: the tick's length less 250 µs (Table 8.1). -/
def guardAt (d : Dev) (n : Nat) : Nat := if n = curTick d then tickSpan d - 250000 else 2250000

/-- The media time of a deadline, as the present tick stands. -/
def deadlineAt (d : Dev) (tick off : Nat) : Int :=
  let ahead : Int := (tick : Int) - curTick d
  (if 0 < ahead then (d.time.nextTick : Int) + (ahead - 1) * tickLen else (d.time.tickStart : Int) + ahead * tickLen) + off * 65536

/-- The network time of a deadline at the present rates, as an order key (R171). -/
def keyOfDeadline (d : Dev) (tick off : Nat) : Nat :=
  d.time.gen * 2 ^ 128 + ((d.time.net : Int) + (deadlineAt d tick off - d.time.media)).toNat

/-- The order key of a ready time (R171). -/
def keyOfNow (d : Dev) : Nat := d.time.gen * 2 ^ 128 + d.time.net

/-- Entries held for threads without TRACE whose home engine is e (ReadyDepth, R186). -/
def readyDepthOf (d : Dev) (e : Nat) : Nat :=
  ((readyOf d (e / 16)).filter (fun r => (tcbOf d r.thread).any (fun k => decide (k.home = e) && !k.trace))).length

/-- ReadyDepthMax follows ReadyDepth. -/
def noteDepth (d : Dev) (e : Nat) : Dev :=
  let n := readyDepthOf d e
  if ogetN d Obj.readyDepthMax e 0 < n then oset d Obj.readyDepthMax e 0 n else d

/-- Write an entry for thread t into its hearth's store; a BLOCKED thread that wants it becomes READY (R169). The flag
tells whether it became so. -/
def putEntry (d : Dev) (t kind value dlTick dlOff : Nat) (k : Tcb) : Dev × Bool :=
  let key := if k.byDeadline then keyOfDeadline d dlTick dlOff else keyOfNow d
  let r : Ready := { thread := t, kind := kind, value := value, time := netNow d, key := key, order := d.stk.order,
                     dlTick := dlTick, dlOff := dlOff, missed := false }
  let h := k.home / 16
  let d1 := setReady { d with stk := { d.stk with order := d.stk.order + 1 } } h (readyOf d h ++ [r])
  let d1 := if k.trace then d1 else noteDepth d1 k.home
  let wakes := decide (k.state = 1) && k.wants kind
  let k1 := { k with releases := if kind = 0 then k.releases + 1 else k.releases,
                     state := if wakes then 2 else k.state }
  (setTcb d1 t k1, wakes)

/-- Whether the store or the home engine refuses an entry for thread `k` (R170). -/
def postBlocked (d : Dev) (k : Tcb) (kind : Nat) : Bool :=
  decide (8176 ≤ (readyOf d (k.home / 16)).length) ||
    (decide (k.state = 1) && k.wants kind && decide (512 ≤ runnableOn d k.home))

/-- The deadline of an entry (Table 8.3): that given for TICK and FRAME, and the ready time plus RelativeDeadline for
the other kinds. -/
def entryDeadline (d : Dev) (k : Tcb) (kind value : Nat) : Nat × Nat :=
  match kind with
  | 0 => (value, guardAt d value)
  | 1 => (value + 7, guardAt d (value + 7))
  | _ => deadlineAfter d k.relDl

/-- Write an entry, or find it refused (R169, R170): the answer is 0 ACCEPTED, 1 REFUSED, 2 NO_THREAD. A trace record
goes through `tr`. -/
def postEntry (tr : Dev → Nat → Nat → Nat → Nat → Nat → Dev) (d : Dev) (t kind value : Nat) : Dev × Nat :=
  match tcbOf d t with
  | none => (d, 2)
  | some k =>
    if kind = 3 && !bitSet k.waitMask 3 then (d, 0)
    else if postBlocked d k kind then (tr d t k.home 7 kind 0, 1)
    else
      let dl := entryDeadline d k kind value
      let (d1, woke) := putEntry d t kind (value % 2 ^ 32) dl.1 dl.2 k
      (if woke then tr d1 t k.home 1 kind 0 else d1, 0)

/-- A hardware poster's latch: what it holds, oldest first. -/
def latchOf (d : Dev) (poster : Nat) : List Post := sget d.stk.latches poster []
/-- The device with a latch changed. -/
def setLatch (d : Dev) (poster : Nat) (l : List Post) : Dev :=
  { d with stk := { d.stk with latches := if l.isEmpty then serase d.stk.latches poster else sput d.stk.latches poster l } }

/-- A hardware poster issues an event (R170): behind its latch where that is full, and into it where it is refused. The
event goes to `post` and the trace to `tr`. -/
def posterIssue (tr : Dev → Nat → Nat → Nat → Nat → Nat → Dev) (d : Dev) (poster t kind value : Nat) : Dev :=
  let l := latchOf d poster
  if !l.isEmpty then setLatch d poster (l ++ [⟨t, kind, value⟩])
  else
    let (d1, res) := postEntry tr d t kind value
    if res = 1 then
      let d2 := bump (setLatch d1 poster [⟨t, kind, value⟩]) Obj.hardwareRefusals (hearthOf d t) 0
      if kind = 2 then bump d2 Obj.thresholdPostsRefused 0 0 else d2
    else d1

/-- A trace record, with the threshold posts that its push makes, `n` deep: a trace queue's crossing may post a thread
whose own record goes to another trace queue (R185, R200). -/
def traceDeep : Nat → Dev → Nat → Nat → Nat → Nat → Nat → Dev
  | 0, d, t, e, dec, kind, det => (rawTrace d t e dec kind det).dev
  | n + 1, d, t, e, dec, kind, det =>
    let q := traceQueueOf d t
    let p := rawTrace d t e dec kind det
    if p.crossed then posterIssue (traceDeep n) p.dev (20 + q % 4) (ogetN d Obj.thresholdThread q 0) 2 q
    else p.dev

/-- A trace record of a decision about thread t (R185); four trace queues bound the depth. -/
def trace (d : Dev) (t engine decision kind detail : Nat) : Dev := traceDeep 5 d t engine decision kind detail

/-- An engine's post, or one of the supervisor (R169, R170). -/
def enginePost (d : Dev) (t kind value : Nat) : Dev × Nat := postEntry trace d t kind value

/-- A hardware poster's post (R170). -/
def hwPost (d : Dev) (poster t kind value : Nat) : Dev := posterIssue trace d poster t kind value

/-- The QUEUE entry of a threshold crossing of queue q, from its bank's poster (R200). -/
def thresholdPost (d : Dev) (q : Nat) (hit : Bool) : Dev :=
  if hit then hwPost d (20 + q % 4) (ogetN d Obj.thresholdThread q 0) 2 q else d

/-- A push with its threshold post (R196, R200). -/
def qPush (d : Dev) (q : Nat) (word : Bool) (i : QItem) : Dev × Bool :=
  let p := rawPush d q word i
  (thresholdPost p.dev q p.crossed, p.ok)

/-- A hardware producer's push of plain bytes to a BLOCK queue. -/
def qPushBytes (d : Dev) (q : Nat) (data : Bytes) : Dev × Bool := qPush d q false (plainItem data)

/-- QREWIND with its threshold post. -/
def qRewind (d : Dev) (q : Nat) : Dev × Bool :=
  let r := rawRewind d q
  (thresholdPost r.1 q r.2.2, r.2.1)

/-! ### Order -/

/-- The level of a thread, 0 highest. -/
def prioOf (d : Dev) (t : Nat) : Nat :=
  match tcbOf d t with
  | some k => k.prio
  | none => 31

/-- Where an entry stands within its level (R171): TICK entries first, then RESUME, then the rest by key. -/
def Ready.class (r : Ready) : Nat := if r.kind = 0 then 0 else if r.kind = 6 then 1 else 2
/-- The key that orders entries of one class: none among TICK and RESUME entries, which keep their order of writing. -/
def Ready.rank (r : Ready) : Nat := if r.kind = 0 ∨ r.kind = 6 then 0 else r.key

/-- One entry goes before another in the order of R171. -/
def readyBefore (d : Dev) (a b : Ready) : Bool :=
  let pa := prioOf d a.thread
  let pb := prioOf d b.thread
  if pa ≠ pb then decide (pa < pb)
  else if a.class ≠ b.class then decide (a.class < b.class)
  else if a.rank ≠ b.rank then decide (a.rank < b.rank)
  else decide (a.order < b.order)

/-- An entry placed in a list that follows R171. -/
def insertReady (d : Dev) (a : Ready) : List Ready → List Ready
  | [] => [a]
  | b :: l => if readyBefore d b a then b :: insertReady d a l else a :: b :: l

/-- The entries of a list in the order of R171. -/
def sortReady (d : Dev) (l : List Ready) : List Ready := l.foldr (insertReady d) []

/-- An entry leaves its hearth's store. -/
def dropEntry (d : Dev) (h : Nat) (r : Ready) : Dev := setReady d h ((readyOf d h).filter (fun x => x.order != r.order))

end Sys2Proof.Machine
end

