-- ==== Sys2Proof/Machine/Channels.lean ====
section
/-! DEFINITION. Operations on channels and endpoints that many blocks share: reading and writing an endpoint context
(Table 4.1), and the isolation of a channel by a class FC2 fault (R68). -/
namespace Sys2Proof.Machine

/-- The context of a free endpoint: the defaults of Table 4.1 (R65). -/
def freeContext : Nat :=
  setF (setF (setF (setF (setF 0 Ep.boundChannel 0xFFFFFFFF) Ep.group 0xFFFF) Ep.memberIndex 0xFF) Ep.frameTicks 8) Ep.egressPriority 5

/-- Endpoint context k (Table 4.1). -/
def epOf (d : Dev) (k : Nat) : Nat := sget d.endpoints k freeContext
/-- A field of endpoint context k. -/
def epF (d : Dev) (k : Nat) (f : Fld) : Nat := getF (epOf d k) f
/-- The device with a field of endpoint context k changed. -/
def setEpF (d : Dev) (k : Nat) (f : Fld) (v : Nat) : Dev :=
  { d with endpoints := sput d.endpoints k (setF (epOf d k) f v) }
/-- A counter of endpoint context k rises by n. -/
def bumpEp (d : Dev) (k : Nat) (f : Fld) (n : Nat) : Dev := setEpF d k f (epF d k f + n)

/-- Channel c, where it is open. -/
def chanOf (d : Dev) (c : Nat) : Option Channel := sfind d.chans c
/-- The device with channel c changed. -/
def setChan (d : Dev) (c : Nat) (x : Channel) : Dev := { d with chans := sput d.chans c x }
/-- A change of channel c, where it is open. -/
def onChan (d : Dev) (c : Nat) (f : Channel → Channel) : Dev :=
  match chanOf d c with
  | some x => setChan d c (f x)
  | none => d

/-- Whether n is a frame tick of a channel (R17): n mod FrameTicks is its phase mod FrameTicks. -/
def isFrameTick (c : Channel) (n : Nat) : Bool := decide (n % c.frameTicks = c.phase % c.frameTicks)

/-- The endpoint that a channel sends to, or none where it is receive-only (R67). -/
def sendsTo (x : Channel) : Option Nat := if x.output = 0xFFFFFFFF then none else some x.output

/-- A channel is isolated (R68): its state and its endpoint's state become isolated; it keeps its thread's TCB, its
draught units and its queued packets until it is closed. -/
def isolateChannel (d : Dev) (c : Nat) : Dev :=
  match chanOf d c with
  | none => d
  | some x =>
    if x.state = 2 then d
    else setEpF (setChan d c { x with state := 2, isolatedAt := some (curTick d) }) x.endpoint Ep.state 3

/-- Entries of some kinds held for a thread leave the store that holds them: that of its hearth, or of the hearth it leaves (R178). -/
def dropKinds (d : Dev) (t : Nat) (kinds : List Nat) : Dev :=
  (skeys d.stk.ready).foldl (fun d h =>
    setReady d h ((readyOf d h).filter (fun r => !(decide (r.thread = t) && kinds.contains r.kind)))) d

end Sys2Proof.Machine
end

