-- ==== Sys2Proof/Machine/Accumulate.lean ====
section
/-! DEFINITION. The ordered-accumulate contexts (R162 to R166) and the talker selection of groups (R107 to R111). -/
namespace Sys2Proof.Machine

/-- Context n. -/
def oaOf (d : Dev) (n : Nat) : OaCtx := sget d.oa n OaCtx.empty
/-- The device with context n changed. -/
def setOa (d : Dev) (n : Nat) (c : OaCtx) : Dev := { d with oa := sput d.oa n c }
/-- The queue through which context n is pushed. -/
def oaQueue (n : Nat) : Nat := 253440 + n
/-- A counter of R166: 0 accepted, 1 summed, 2 inactive, 3 duplicates, 4 late, 6 format, 7 early, 8 closes. -/
def oaBump (d : Dev) (n k v : Nat) : Dev := bumpBy d Obj.oaCounters (oaQueue n) k v

/-- Parameters that take no part. -/
def oaOff : OaParams := { enable := false, mode := 0, count := 1, mask := 0, lag := 1 }

/-- The parameters of a round: those in force when it opened (R162); those of Table 7.5 for a group. -/
def oaParams (d : Dev) (n r : Nat) : OaParams :=
  if n < 8192 then { enable := true, mode := 3, count := 40, mask := 0, lag := 8 }
  else (((oaOf d n).params.find? (fun p => decide (p.1 ≤ r))).map Prod.snd).getD oaOff

/-- A group's members at round r. -/
def groupAt (c : OaCtx) (r : Nat) : List OaMember :=
  c.members.filter (fun m => decide (m.join ≤ r) && m.leave.all (fun t => decide (r < t)))

/-- Whether member m is expected in round r of context n. -/
def oaExpects (d : Dev) (n r m : Nat) : Bool :=
  let p := oaParams d n r
  if n < 8192 then (groupAt (oaOf d n) r).any (fun x => decide (x.member = m)) else p.enable && p.mask.testBit m

/-- The members expected in round r, rising. -/
def oaMembers (d : Dev) (n r : Nat) : List Nat := (List.range 256).filter (oaExpects d n r)

/-- Bytes of an element. -/
def oaBytes (p : OaParams) : Nat := if p.mode = 0 ∨ p.mode = 3 then 2 else 4
/-- The length of an entry (R163). -/
def oaLength (p : OaParams) : Nat := 16 + ceilDiv (p.count * oaBytes p) 16 * 16
/-- The signed elements of an entry. -/
def oaElements (p : OaParams) (v : Nat) : List Int :=
  (List.range p.count).map (fun i => toSigned (8 * oaBytes p) (sliceBytes v (16 + i * oaBytes p) (oaBytes p)))

/-- Whether round r has closed: at its due tick, or before it on completeness (R163, R164). -/
def oaClosed (d : Dev) (n r : Nat) : Bool := decide (r + (oaParams d n r).lag ≤ curTick d) || shas (oaOf d n).results r

/-- The entries held in round r. -/
def oaEntries (d : Dev) (n r : Nat) : List OaEntry := (sget (oaOf d n).open_ r ⟨[]⟩).entries

/-- An entry is held in its round, in a cell of its own (R163), by the acceptance of R196; its queue's Depth may reach the threshold
(R200). Answers 0 accepted, 2 refused for want of room. -/
def oaHold (d : Dev) (n r : Nat) (e : OaEntry) : Dev × Nat :=
  let q := oaQueue n
  match pushVerdict d q 1 with
  | 0 =>
    let c := oaOf d n
    let d' := bump (oaBump (setOa d n { c with open_ := sput c.open_ r ⟨oaEntries d n r ++ [{ e with place := (takePlaces d 1).headD poolStart }]⟩ }) n 0 1) Obj.queuePushes q 0
    let low := ogetN d' Obj.freeCellsMin 0 0
    let d' := if freeCells d' < low then oset d' Obj.freeCellsMin 0 0 (freeCells d') else d'
    (thresholdPost d' q (crossed d' q (oaHeld c) (oaHeld c + 1)), 0)
  | 1 => (bump d Obj.queuePushesRefused q 0, 2)
  | _ => (if queueClassA d q then bump d Obj.classARefusals 0 0 else bump d Obj.poolRefusals 0 0, 2)

/-- The outcome of a push to a context (Table 7.6): 0 accepted or discarded, 1 refused, 2 refused for want of room (R196). An isolated
queue refuses every push (R198). -/
def oaPush (d : Dev) (n len v : Nat) (poison : Bool) : Dev × Nat :=
  let r := getF v MixEntry.tick
  let m := getF v MixEntry.memberIndex
  let p := oaParams d n r
  if (queueOf d (oaQueue n)).isolated then (d, 1)
  else if !p.enable || decide (len ≠ oaLength p) || decide (getF v MixEntry.group ≠ n) || !oaExpects d n r m then
    (oaBump d n 6 1, 1)
  else if curTick d + 7 < r then (oaBump d n 7 1, 1)
  else if oaClosed d n r then
    let d := oaBump (oaBump d n 0 1) n 4 1
    (if n < 8192 then bump d Obj.mixLateDiscarded 0 0 else d, 0)
  else if (oaEntries d n r).any (fun e => decide (e.member = m)) then (oaBump (oaBump d n 0 1) n 3 1, 0)
  else
    oaHold d n r { member := m, active := decide (getF v MixEntry.active = 1), level := getF v MixEntry.level,
                   concealed := decide (getF v MixEntry.concealed = 1), values := oaElements p v, place := poolStart, poison := poison }

/-! ### Closing a round -/

/-- Element sums with saturation at every addition, and the additions that saturated (R164). -/
def addSat (w : Nat) : List Int → List Int → List Int × Nat
  | a :: as, b :: bs =>
    let x := a + b
    let y := clampInt (-(2 ^ (w - 1))) (2 ^ (w - 1) - 1) x
    let r := addSat w as bs
    (y :: r.1, b2n (decide (y ≠ x)) + r.2)
  | as, [] => (as, 0)
  | [], bs => (bs, 0)

/-- The sum of some entries, in the order given. -/
def sumEntries (w : Nat) : List OaEntry → List Int × Nat → List Int × Nat
  | [], acc => acc
  | e :: l, acc =>
    let r := addSat w acc.1 e.values
    sumEntries w l (r.1, acc.2 + r.2)

/-- Whether a member of a group is marked isolated (R107). -/
def memberIsolated (d : Dev) (x : OaMember) : Bool :=
  match chanOf d x.channel with
  | some c => c.isolatedAt.isSome && decide (c.openTick ≤ x.join)
  | none => false

/-- A talker candidate of a round: its rank key of R108, lower first. -/
structure Cand where
  member : Nat
  prio   : Bool
  held   : Bool
  level  : Nat
  deriving DecidableEq, Repr

/-- One candidate ranks before another. -/
def Cand.before (a b : Cand) : Bool :=
  if a.prio != b.prio then a.prio
  else if a.held != b.held then a.held
  else if a.level ≠ b.level then decide (a.level < b.level)
  else decide (a.member < b.member)

/-- A candidate placed in a ranked list. -/
def Cand.insert (a : Cand) : List Cand → List Cand
  | [] => [a]
  | b :: l => if b.before a then b :: a.insert l else a :: b :: l

/-- The talkers selected at the close of round r of group n (R108), rising; the limits are those in force for a close at tick r + 8
(R111). -/
def selectTalkers (d : Dev) (n r : Nat) : List Nat :=
  let c := oaOf d n
  let es := oaEntries d n r
  let was := if c.closed = some (r - 1) ∧ 0 < r then c.selected else []
  let cands := (groupAt c r).filterMap (fun x =>
    let e := es.find? (fun e => decide (e.member = x.member))
    let active := (e.map OaEntry.active).getD false
    let held := was.contains x.member && decide (x.join < r)
    let hang := held && ((sfind c.lastActive x.member).map (fun t =>
      decide (x.join ≤ t) && decide (r ≤ t + (ogetPast d (r + 8) Obj.talkerHangover 0 0).toNat))).getD false
    if memberIsolated d x || !(active || hang) then none
    else some { member := x.member, prio := decide (x.member < (ogetPast d (r + 8) Obj.priorityMemberCount 0 0).toNat), held := held,
                level := (e.map OaEntry.level).getD 255 : Cand })
  let ranked := cands.foldr Cand.insert []
  let chosen := (ranked.take (ogetPast d (r + 8) Obj.mixTalkerLimit n 0).toNat).map Cand.member
  (List.range 256).filter chosen.contains

/-- The members of round r that have no entry and are not isolated. -/
def oaMissing (d : Dev) (n r : Nat) : Nat :=
  let es := oaEntries d n r
  let absent := fun (m : Nat) => !es.any (fun e => decide (e.member = m))
  if n < 8192 then ((groupAt (oaOf d n) r).filter (fun x => absent x.member && !memberIsolated d x)).length
  else ((oaMembers d n r).filter absent).length

/-- The result slot of a close (Table 7.7). -/
def oaSlot (n r : Nat) (p : OaParams) (sums : List Int) (sats missing : Nat) (early : Bool) (summed : List OaEntry) : Nat :=
  let w := if p.mode = 2 then 64 else 32
  let s := sums.foldr (fun x acc => toUnsigned w x + 2 ^ w * acc) 0
  let bits := sumNat (summed.map (fun e => 2 ^ e.member))
  let v := setF (setF (setF (setF 0 OaSlot.sums s) OaSlot.summed bits) OaSlot.saturations (min 255 sats)) OaSlot.missing missing
  let v := setF (setF v OaSlot.count summed.length) OaSlot.poison (b2n (summed.any OaEntry.poison))
  let v := setF (setF v OaSlot.concealed (b2n (summed.any OaEntry.concealed))) OaSlot.missingFlag (b2n (decide (missing ≠ 0)))
  setF (setF (setF (setF v OaSlot.early (b2n early)) OaSlot.closed 1) OaSlot.round r) OaSlot.context n

/-- Entries by rising member index. -/
def byMember (l : List OaEntry) : List OaEntry := (List.range 256).flatMap (fun m => l.filter (fun e => decide (e.member = m)))

/-- The counters of a group's close (R109, R113). -/
def groupCounts (d : Dev) (n r missing : Nat) (sel : List Nat) : Dev :=
  let c := oaOf d n
  let claims := ((oaEntries d n r).filter (fun e => e.active && !sel.contains e.member)).length
  let d := bump d Obj.ticksMixed n 0
  let d := bumpIf (decide (missing ≠ 0)) d Obj.ticksClosedLate n 0
  let d := bumpBy (bumpBy d Obj.talkerSelections n 0 sel.length) Obj.claimsNotSelected n 0 claims
  let d := bumpBy d Obj.mixLateEntries 0 0 missing
  let present := fun (x : OaMember) => (chanOf d x.channel).any (fun k => decide (k.openTick ≤ x.join))
  ((groupAt c r).filter (fun x => sel.contains x.member && present x)).foldl (fun d x => bump d Obj.talkerTicks x.channel 0) d

/-- The close of a tick at which a group has no member: its slot shows an empty round, the group becomes empty, and its counters restart
(R113, R164). Entries that former members have
pushed ahead, for rounds before the next join, are not summed (R166). Members that left lately stay known, so that a late entry of
theirs is judged as one. -/
def groupEmptied (d : Dev) (n r : Nat) : Dev :=
  let c := oaOf d n
  let later := c.members.filter (fun m => decide (r < m.join))
  let past := c.members.filter (fun m => m.leave.any (fun t => decide (r < t + 64)))
  let next := (later.map OaMember.join).foldl (fun (a : Option Nat) t => some (match a with | some x => min x t | none => t)) none
  let d := [Obj.ticksMixed, Obj.ticksClosedLate, Obj.talkerSelections, Obj.claimsNotSelected].foldl
    (fun d o => oset d o n 0 0) d
  let mine := fun (t : Nat) => next.all (fun j => decide (t < j))
  let lost := sumNat ((c.open_.filter (fun x => mine x.1)).map (fun x => x.2.entries.length))
  let left := c.open_.filter (fun x => !mine x.1)
  let empty : OaResult := { slot := oaSlot n r (oaParams d n r) [] 0 0 false [], poison := false, own := [] }
  let results := sput (c.results.filter (fun x => decide (x.1 % 32 ≠ r % 32))) r empty
  oaBump (setOa d n { c with members := past ++ later, closed := next.map (· - 1), open_ := left, results := results, selected := [],
                             lastActive := [] }) n 2 lost

/-- The close of round r of context n (R164). -/
def oaCloseNow (d : Dev) (n r : Nat) (early : Bool) : Dev :=
  let c := oaOf d n
  let p := oaParams d n r
  let es := byMember (oaEntries d n r)
  let sel := if n < 8192 then selectTalkers d n r else []
  let summed := es.filter (fun e => if n < 8192 then sel.contains e.member else e.active)
  let missing := oaMissing d n r
  let s := sumEntries (if p.mode = 2 then 64 else 32) summed (List.replicate p.count 0, 0)
  let res : OaResult := { slot := oaSlot n r p s.1 s.2 missing early summed, poison := summed.any OaEntry.poison,
                          own := if n < 8192 then summed.foldl (fun m e => sput m e.member e.values) [] else [] }
  let keep := c.results.filter (fun x => decide (x.1 % 32 ≠ r % 32))
  let active := (es.filter OaEntry.active).foldl (fun m e => sput m e.member r) c.lastActive
  let c' := { c with open_ := serase c.open_ r, results := sput keep r res, selected := sel, lastActive := active,
                     closed := if n < 8192 then some r else c.closed }
  let d1 := if n < 8192 then groupCounts d n r missing sel else d
  oaBump (oaBump (oaBump (setOa d1 n c') n 1 summed.length) n 2 (es.length - summed.length)) n 8 1

/-- OA_ROUND_CLOSE: a round closes when it falls due, or, of a firmware context, when every expected member has pushed
(R164); the rounds of a group close in their order. Before that nothing happens, nor once the round's slot has passed to a later
round. -/
def oaRoundClose (n r : Nat) (d : Dev) : Dev :=
  let c := oaOf d n
  let due := decide (r + (oaParams d n r).lag ≤ curTick d)
  if !d.time.ticking || decide (8704 ≤ n) then d
  else if n < 8192 then
    if due && decide (c.closed = some (r - 1)) && decide (0 < r) then
      if (groupAt c r).isEmpty then groupEmptied d n r else oaCloseNow d n r false
    else d
  else if (oaParams d n r).enable && !shas c.results r && decide (r ≤ curTick d + 7) && decide (curTick d < r + 32) then
    let full := !(oaMembers d n r).isEmpty && decide (oaMissing d n r = 0)
    if due then oaCloseNow d n r false else if full then oaCloseNow d n r true else d
  else d

/-- The closes that fall due at the start of tick t, in every context (R164): of a group those of every round not yet closed. -/
def oaTick (t : Nat) (d : Dev) : Dev :=
  (skeys d.oa).foldl (fun d n =>
    if n < 8192 then
      match (oaOf d n).closed with
      | some r => (List.range (t - 8 - r)).foldl (fun d i => oaRoundClose n (r + 1 + i) d) d
      | none => d
    else (List.range 8).foldl (fun d i => if t + i < 8 then d else oaRoundClose n (t + i - 8) d) d) d

/-- A channel joins a group's context at tick t. -/
def oaJoin (d : Dev) (n m c t : Nat) : Dev :=
  let x := oaOf d n
  setOa d n { x with members := x.members ++ [⟨m, c, t, none⟩], closed := if x.closed.isNone then some (t - 1) else x.closed }

/-- A channel leaves a group's context at tick t. -/
def oaLeave (d : Dev) (n c t : Nat) : Dev :=
  let x := oaOf d n
  let members := x.members.map (fun m => if m.channel = c ∧ m.leave.isNone then { m with leave := some t } else m)
  setOa d n { x with members := members }

/-- Whether a context takes part in round r. -/
def oaTakesPart (d : Dev) (n r : Nat) : Bool := if n < 8192 then !(groupAt (oaOf d n) r).isEmpty else (oaParams d n r).enable

/-- New parameters of a firmware context, in force for the rounds that open from tick t on (R162). -/
def oaNewParams (d : Dev) (n t : Nat) : Dev :=
  let q := oaQueue n
  let p : OaParams := { enable := ogetB d Obj.oaEnable q 0, mode := ogetN d Obj.oaMode q 0,
                        count := ogetN d Obj.oaElementCount q 0, mask := ogetN d Obj.oaExpectedMask q 0,
                        lag := ogetN d Obj.oaCloseLag q 0 }
  let c := oaOf d n
  setOa d n { c with params := (t + 7, p) :: c.params.filter (fun x => decide (x.1 < t + 7)) }

end Sys2Proof.Machine
end

