-- ==== Sys2Proof/Machine/Flags.lean ====
section
/-! DEFINITION. The status register ST (Table 6.2): its fields, the condition flags of a comparison (R134), the branch
conditions, the sticky bits (R118) and block-exponent detection (R131). -/
namespace Sys2Proof.Machine

/-- A field of ST. -/
def Ctx.stF (c : Ctx) (f : Fld) : Nat := getF c.st.toNat f
/-- The context with a field of ST changed. -/
def Ctx.setSt (c : Ctx) (f : Fld) (v : Nat) : Ctx := { c with st := BitVec.ofNat 64 (setF c.st.toNat f v) }
/-- A one-bit field set where the condition holds, and left alone otherwise: the sticky bits. -/
def Ctx.stick (c : Ctx) (f : Fld) (b : Bool) : Ctx := if b then c.setSt f 1 else c

/-- The four condition flags. -/
structure CondFlags where
  z : Bool
  n : Bool
  c : Bool
  v : Bool
  deriving DecidableEq, Repr

/-- The flags of x - y (R134): zero and sign of the difference, the carry, and signed overflow. -/
def flagsOfSub (x y : Word) : CondFlags :=
  let r := x - y
  { z := decide (r = 0), n := r.msb, c := if Config.carryIsBorrow then decide (x < y) else decide (y ≤ x),
    v := decide (x.toInt - y.toInt ≠ r.toInt) }

/-- Flags written to ST with FPSN; poisoned ones set PSN (R118, R132). -/
def Ctx.setFlags (c : Ctx) (f : CondFlags) (psn : Bool) : Ctx :=
  (((((c.setSt St.z (b2n f.z)).setSt St.n (b2n f.n)).setSt St.c (b2n f.c)).setSt St.v (b2n f.v)).setSt St.fpsn (b2n psn)).stick St.psn psn

/-- Whether branch condition `k` of R134 holds: 0 always to 11 greater; none above 11. -/
def condHolds (c : Ctx) (k : Nat) : Option Bool :=
  let z := decide (c.stF St.z = 1)
  let n := decide (c.stF St.n = 1)
  let cy := decide (c.stF St.c = 1)
  let v := decide (c.stF St.v = 1)
  match k with
  | 0 => some true
  | 1 => some z
  | 2 => some !z
  | 3 => some n
  | 4 => some !n
  | 5 => some cy
  | 6 => some !cy
  | 7 => some v
  | 8 => some (n != v)
  | 9 => some (n == v)
  | 10 => some (z || (n != v))
  | 11 => some (!z && (n == v))
  | _ => none

/-- The leading bits of a `w`-bit value that equal its sign bit, the sign bit included (R131). -/
def leadingSign (w v : Nat) : Nat :=
  let s := v.testBit (w - 1)
  ((List.range w).reverse.takeWhile (fun i => v.testBit i == s)).length

/-- One watched element (R131): BEXP_SHIFT is the smallest count of the non-zero elements, less one. -/
def Ctx.watchOne (c : Ctx) (w size v : Nat) : Ctx :=
  if v % 2 ^ size = 0 then c
  else
    let k := (if w ≤ size then leadingSign w v else Config.narrowWatch size v) - 1
    if c.stF St.bexpZero = 1 then (c.setSt St.bexpZero 0).setSt St.bexpShift k
    else if k < c.stF St.bexpShift then c.setSt St.bexpShift k else c

/-- A write of `size` bits to local memory under block mode: watched element by element of the armed width (R131). -/
def Ctx.watch (c : Ctx) (size v : Nat) : Ctx :=
  if c.stF St.bexpArmed = 0 then c
  else
    let w := if c.stF St.bexpWidth = 1 then 32 else 16
    if size < w then c.watchOne w size v
    else (List.range (size / w)).foldl (fun c i => c.watchOne w w (bitsAt v (i * w) w)) c

/-- The outcome bits of QS (Table 6.1). -/
def qsUnderrun : Nat := 1
def qsRefused : Nat := 2
def qsPoison : Nat := 4
def qsEmpty : Nat := 8
def qsFull : Nat := 16
/-- QS after a queue instruction. -/
def Ctx.setQs (c : Ctx) (v : Nat) : Ctx := { c with qs := BitVec.ofNat 16 v }

end Sys2Proof.Machine
end

