-- ==== Sys2Proof/Machine/Memory.lean ====
section
/-! DEFINITION. The named operations over addressed memory: one byte and many, in the canonical form (addresses strictly
rising, no listed zero), and the sets of poisoned or badly protected 64-bit words. A byte that nothing has written reads
as zero (DESIGN CHOICE: the spec gives no contents of memory after power-up). -/
namespace Sys2Proof.Machine

/-- What a byte that nothing has written reads as. -/
def blankByte : Byte := 0

/-- The byte at an address. -/
def cellRead : List Host.Cell → Nat → Byte
  | [], _ => blankByte
  | (k, v) :: r, a => if k = a then v else cellRead r a

/-- The list with the byte at an address changed; writing what an unlisted address reads as removes the entry. -/
def cellWrite : List Host.Cell → Nat → Byte → List Host.Cell
  | [], a, b => if b = blankByte then [] else [(a, b)]
  | (k, v) :: r, a, b =>
    if a < k then (if b = blankByte then (k, v) :: r else (a, b) :: (k, v) :: r)
    else if a = k then (if b = blankByte then r else (a, b) :: r)
    else (k, v) :: cellWrite r a b

/-- `n` bytes from an address, as a little-endian number. -/
def cellsRead (m : List Host.Cell) (a : Nat) : Nat → Nat
  | 0 => 0
  | n + 1 => (cellRead m a).toNat + 256 * cellsRead m (a + 1) n

/-- The low `n` bytes of a number written from an address, lowest first. -/
def cellsWrite (m : List Host.Cell) (a : Nat) : Nat → Nat → List Host.Cell
  | 0, _ => m
  | n + 1, v => cellsWrite (cellWrite m a (BitVec.ofNat 8 v)) (a + 1) n (v / 256)

/-- A number joins a strictly rising list. -/
def setInsert : List Nat → Nat → List Nat
  | [], a => [a]
  | k :: r, a => if a < k then a :: k :: r else if a = k then k :: r else k :: setInsert r a

/-- A number leaves a strictly rising list. -/
def setErase : List Nat → Nat → List Nat
  | [], _ => []
  | k :: r, a => if a = k then r else k :: setErase r a

/-- Membership. -/
def setHas (l : List Nat) (a : Nat) : Bool := l.contains a

/-- Whether a list of cells has the canonical form. -/
def cellsWf : List Host.Cell → Bool
  | [] => true
  | (k, v) :: r => (v != blankByte) && r.all (fun p => decide (k < p.1)) && cellsWf r

/-- Whether a set of numbers is strictly rising. -/
def setWf : List Nat → Bool
  | [] => true
  | k :: r => r.all (fun x => decide (k < x)) && setWf r

/-- The canonical form of the addressed memories. -/
def Memory.wf (m : Mem) : Bool := cellsWf m.ext && cellsWf m.loc && setWf m.extPsn && setWf m.locPsn && setWf m.lmBad

/-- How a write of bytes `a` to `a + n - 1` leaves the poison of the words it touches: a poisoned write poisons them, a
write that covers a whole word clears it, and any other leaves it (R122, R132). -/
def poisonWord (l : List Nat) (a n : Nat) (poisoned : Bool) (w : Nat) : List Nat :=
  if poisoned then setInsert l w
  else if a ≤ 8 * w ∧ 8 * w + 8 ≤ a + n then setErase l w
  else l

/-- The 64-bit words that bytes `a` to `a + n - 1` touch. -/
def wordsOf (a n : Nat) : List Nat := if n = 0 then [] else (List.range ((a + n - 1) / 8 - a / 8 + 1)).map (· + a / 8)

/-- The poison set after a write. -/
def poisonWrite (l : List Nat) (a n : Nat) (poisoned : Bool) : List Nat :=
  (wordsOf a n).foldl (fun l w => poisonWord l a n poisoned w) l

/-- Whether any word of a stretch is in a set. -/
def anyWord (l : List Nat) (a n : Nat) : Bool := (wordsOf a n).any (setHas l)

end Sys2Proof.Machine
end

