-- ==== Sys2Proof/Machine/Operands.lean ====
section
/-! DEFINITION. The operand forms of the Abtia engine: instruction words (Table 6.8), registers and their poison (R117,
R132), accumulators (R126), address registers and circular descriptors (R123 to R125), local memory with its window,
parity and poison (R119, R122), and hardware loops (R136). -/
namespace Sys2Proof.Machine

/-! ### Instruction words -/

/-- Format R. -/
def wordR (op : Nat) (rd ra rb : BitVec 5) (func : Nat) : Nat :=
  op * 2 ^ 26 + rd.toNat * 2 ^ 21 + ra.toNat * 2 ^ 16 + rb.toNat * 2 ^ 11 + func
/-- Format I. -/
def wordI (op : Nat) (rd ra : BitVec 5) (imm : BitVec 16) : Nat :=
  op * 2 ^ 26 + rd.toNat * 2 ^ 21 + ra.toNat * 2 ^ 16 + imm.toNat
/-- Format L. -/
def wordL (op : Nat) (rd : BitVec 5) (an : BitVec 3) (width mode : BitVec 2) (step : BitVec 14) : Nat :=
  op * 2 ^ 26 + rd.toNat * 2 ^ 21 + an.toNat * 2 ^ 18 + width.toNat * 2 ^ 16 + mode.toNat * 2 ^ 14 + step.toNat
/-- Format V. -/
def wordV (op : Nat) (aa ab : BitVec 3) (stepA stepB : BitVec 7) (variant : BitVec 6) : Nat :=
  op * 2 ^ 26 + aa.toNat * 2 ^ 23 + ab.toNat * 2 ^ 20 + stepA.toNat * 2 ^ 13 + stepB.toNat * 2 ^ 6 + variant.toNat
/-- Format A. -/
def wordA (op : Nat) (tgt : BitVec 5) (acc : BitVec 3) (shift : BitVec 6) (round : BitVec 2) (sat : Bool)
    (width : BitVec 2) (vec : Bool) (step : BitVec 6) : Nat :=
  op * 2 ^ 26 + tgt.toNat * 2 ^ 21 + acc.toNat * 2 ^ 18 + shift.toNat * 2 ^ 12 + round.toNat * 2 ^ 10 + b2n sat * 2 ^ 9
    + width.toNat * 2 ^ 7 + b2n vec * 2 ^ 6 + step.toNat
/-- Format B. -/
def wordB (op : Nat) (c : BitVec 5) (off : BitVec 21) : Nat := op * 2 ^ 26 + c.toNat * 2 ^ 21 + off.toNat

/-! ### General registers -/

/-- The value of Gn; G0 reads as zero (R117). -/
def Ctx.reg (c : Ctx) (r : BitVec 5) : Word := if r = 0 then 0 else c.g[r.toNat]
/-- Whether Gn is poisoned. -/
def Ctx.psn (c : Ctx) (r : BitVec 5) : Bool := if r = 0 then false else c.gp.getLsbD r.toNat
/-- Gn takes a value and its poison; G0 ignores writes (R117). A poisoned result sets PSN (R118). -/
def Ctx.setReg (c : Ctx) (r : BitVec 5) (v : Word) (p : Bool) : Ctx :=
  if r = 0 then c
  else
    let gp := if p then c.gp ||| (1#32 <<< r.toNat) else c.gp &&& ~~~(1#32 <<< r.toNat)
    ({ c with g := c.g.set r.toNat v, gp := gp }).stick St.psn p

/-- The second register of a pair. -/
def pairHi (r : BitVec 5) : BitVec 5 := r + 1
/-- Whether a register names a pair: it is even (Table 6.8). -/
def isPair (r : BitVec 5) : Bool := !r.getLsbD 0
/-- The 128-bit value of a pair, Gn in the low half. -/
def Ctx.pair (c : Ctx) (r : BitVec 5) : Nat := (c.reg r).toNat + (c.reg (pairHi r)).toNat * 2 ^ 64
/-- The poison of a pair, bit 0 for its low half. -/
def Ctx.pairPsn (c : Ctx) (r : BitVec 5) : Nat := b2n (c.psn r) + 2 * b2n (c.psn (pairHi r))
/-- A pair takes a 128-bit value with the poison of each half. -/
def Ctx.setPair (c : Ctx) (r : BitVec 5) (v psn : Nat) : Ctx :=
  (c.setReg r (BitVec.ofNat 64 v) (psn.testBit 0)).setReg (pairHi r) (BitVec.ofNat 64 (v / 2 ^ 64)) (psn.testBit 1)

/-! ### Accumulators -/

/-- Whether accumulator pair k is in 32-bit mode (R126). -/
def Ctx.wide (c : Ctx) (k : Nat) : Bool := (c.stF St.wmode).testBit k
/-- The value of accumulator i of 16-bit mode. -/
def Ctx.acc16 (c : Ctx) (i : Nat) : Int :=
  toSigned 40 (bitsAt ((c.acc.toList.getD (i / 2) 0).toNat) (40 * (i % 2)) 40)
/-- The value of WACCk. -/
def Ctx.acc32 (c : Ctx) (k : Nat) : Int := toSigned 72 (bitsAt ((c.acc.toList.getD k 0).toNat) 0 72)
/-- Accumulator pair k holds the 80 bits v. -/
def Ctx.setPairBits (c : Ctx) (k v : Nat) : Ctx := { c with acc := c.acc.setIfInBounds k (BitVec.ofNat 80 v) }
/-- Accumulator i of 16-bit mode takes a value. -/
def Ctx.setAcc16 (c : Ctx) (i : Nat) (v : Int) : Ctx :=
  c.setPairBits (i / 2) (setF ((c.acc.toList.getD (i / 2) 0).toNat) ⟨40 * (i % 2), 40⟩ (toUnsigned 40 v))
/-- WACCk takes a value. -/
def Ctx.setAcc32 (c : Ctx) (k : Nat) (v : Int) : Ctx := c.setPairBits k (toUnsigned 72 v)
/-- Whether bit i of PIN is set. -/
def Ctx.pinned (c : Ctx) (i : Nat) : Bool := (c.stF St.pin).testBit i
/-- Bit i of PIN set or cleared. -/
def Ctx.setPin (c : Ctx) (i : Nat) (b : Bool) : Ctx := c.setSt St.pin (setF (c.stF St.pin) ⟨i, 1⟩ (b2n b))
/-- Whether bit i of AccPoison is set. -/
def Ctx.accPsn (c : Ctx) (i : Nat) : Bool := c.accp.getLsbD i
/-- Bit i of AccPoison set or cleared; a poisoned result sets PSN. -/
def Ctx.setAccPsn (c : Ctx) (i : Nat) (b : Bool) : Ctx :=
  ({ c with accp := BitVec.ofNat 8 (setF c.accp.toNat ⟨i, 1⟩ (b2n b)) }).stick St.psn b
/-- Pair k set to a mode, cleared with its PIN and poison bits (R126). -/
def Ctx.clearPair (c : Ctx) (k : Nat) (wide : Bool) : Ctx :=
  let c := c.setPairBits k 0
  let c := (c.setPin (2 * k) false).setPin (2 * k + 1) false
  let c := (c.setAccPsn (2 * k) false).setAccPsn (2 * k + 1) false
  c.setSt St.wmode (setF (c.stF St.wmode) ⟨k, 1⟩ (b2n wide))

/-! ### Address registers -/

/-- The offset of An (Table 6.4). -/
def Ctx.offset (c : Ctx) (n : BitVec 3) : Nat := bitsAt (c.a[n.toNat]).toNat 0 18
/-- The descriptor that An selects. -/
def Ctx.cdsel (c : Ctx) (n : BitVec 3) : Nat := bitsAt (c.a[n.toNat]).toNat 20 2
/-- An takes an offset. -/
def Ctx.setOffset (c : Ctx) (n : BitVec 3) (v : Nat) : Ctx :=
  { c with a := c.a.set n.toNat (BitVec.ofNat 32 (setF (c.a[n.toNat]).toNat ⟨0, 18⟩ v)) }
/-- Base of descriptor k (Table 6.5). -/
def Ctx.base (c : Ctx) (k : Nat) : Nat := bitsAt (c.cd.toList.getD k 0).toNat 0 18
/-- Length of descriptor k. -/
def Ctx.length (c : Ctx) (k : Nat) : Nat := bitsAt (c.cd.toList.getD k 0).toNat 18 19
/-- Bit-reverse mode of descriptor k. -/
def Ctx.brev (c : Ctx) (k : Nat) : Bool := (c.cd.toList.getD k 0).getLsbD 37

/-- `n` bits of a number in reverse order. -/
def revBits : Nat → Nat → Nat
  | 0, _ => 0
  | n + 1, v => (v % 2) * 2 ^ n + revBits n (v / 2)

/-- An offset after a post-modify by `step` bytes (R124, R125). -/
def nextOffset (len : Nat) (brev : Bool) (off : Nat) (step : Int) : Nat :=
  if len = 0 then (((off : Int) + step) % ((2 ^ 18 : Nat) : Int)).toNat
  else if brev then
    let n := Nat.log2 len
    let s := revBits n (step.natAbs % len)
    let o := revBits n (off % len)
    revBits n (if 0 ≤ step then (o + s) % len else (o + len - s) % len)
  else (((off : Int) + step) % (len : Nat)).toNat

/-- An after a post-modify. -/
def Ctx.postModify (c : Ctx) (n : BitVec 3) (step : Int) : Ctx :=
  c.setOffset n (nextOffset (c.length (c.cdsel n)) (c.brev (c.cdsel n)) (c.offset n) step)

/-- The address of byte j of an access through An: base plus offset; a 128-bit access at a circular offset wraps element
by element (R124). -/
def Ctx.byteAddr (c : Ctx) (n : BitVec 3) (quad : Bool) (j : Nat) : Nat :=
  let k := c.cdsel n
  let len := c.length k
  if quad ∧ len ≠ 0 then c.base k + (c.offset n + j / 2 * 2) % len + j % 2
  else c.base k + c.offset n + j

/-- The addresses of the `bytes` bytes of an access through An, lowest first. -/
def Ctx.addrs (c : Ctx) (n : BitVec 3) (bytes : Nat) : List Nat :=
  (List.range bytes).map (c.byteAddr n (decide (bytes = 16)))

/-- Whether a local-memory byte lies in the thread's window LMWIN (R119). -/
def Ctx.inWindow (c : Ctx) (a : Nat) : Bool :=
  let base := bitsAt c.lmwin.toNat 0 6 * 4096
  decide (base ≤ a) && decide (a < base + bitsAt c.lmwin.toNat 8 7 * 4096) && decide (a < 262144)

/-- Whether an access of `bytes` bytes is aligned: to its size, or to 2 bytes at 128 bits (R119). -/
def alignedLocal (bytes a : Nat) : Bool := decide (a % (if bytes = 16 then 2 else bytes) = 0)

/-- The exception that a local-memory access through An raises, if any: ALIGN or LM_RANGE (Table 6.11). -/
def Ctx.localFault (c : Ctx) (n : BitVec 3) (bytes : Nat) : Option Nat :=
  if !alignedLocal bytes (c.byteAddr n (decide (bytes = 16)) 0) then some 3
  else if !(c.addrs n bytes).all c.inWindow then some 4
  else none

/-! ### Local memory -/

/-- Where byte a of engine e's local memory lies in the store of local memory. -/
def localAt (e a : Nat) : Nat := e * 262144 + a

/-- The number whose bytes stand at a list of local addresses of engine e. -/
def locRead (m : Mem) (e : Nat) : List Nat → Nat
  | [] => 0
  | a :: l => (cellRead m.loc (localAt e a)).toNat + 256 * locRead m e l

/-- Write the bytes of a number at a list of local addresses of engine e. -/
def locWrite (m : List Host.Cell) (e : Nat) : List Nat → Nat → List Host.Cell
  | [], _ => m
  | a :: l, v => locWrite (cellWrite m (localAt e a) (BitVec.ofNat 8 v)) e l (v / 256)

/-- Bit j set where the 64-bit half that holds the j-th address is poisoned or has bad parity (R122). -/
def locPoison (m : Mem) (e : Nat) (l : List Nat) : List Bool :=
  l.map (fun a => setHas m.locPsn (localAt e a / 8) || setHas m.lmBad (localAt e a / 8))

/-- The halves with bad parity among those that a read touches. -/
def locBad (m : Mem) (e : Nat) (l : List Nat) : List Nat :=
  ((l.map (fun a => localAt e a / 8)).filter (setHas m.lmBad)).foldl setInsert []

/-- Parity found bad by engine e: counted and reported, FC1 (R122). -/
def lmParity (d : Dev) (e n : Nat) : Dev :=
  if n = 0 then d else report (bumpBy d Obj.lmParityErrors e 0 n) 1 0x0310 e 0

/-- A read of local memory: the value, the poison of each byte, and the parity errors counted (R122). -/
def lmRead (s : Sys) (e : Nat) (l : List Nat) : Nat × List Bool × Sys :=
  (locRead s.mem e l, locPoison s.mem e l, { s with dev := lmParity s.dev e (locBad s.mem e l).length })

/-- The poison of the halves after a write: a half touched by a poisoned byte is poisoned, a half wholly written with
unpoisoned bytes is cleared and its parity set, any other stays (R122, R132). -/
def lmMarks (m : Mem) (e : Nat) (l : List Nat) (psn : List Bool) : List Nat × List Nat :=
  let halves := (l.map (fun a => localAt e a / 8)).foldl setInsert []
  halves.foldl (fun (acc : List Nat × List Nat) h =>
    let mine := (l.zip psn).filter (fun p => decide (localAt e p.1 / 8 = h))
    if mine.any Prod.snd then (setInsert acc.1 h, acc.2)
    else if 8 ≤ ((mine.map Prod.fst).foldl setInsert []).length then (setErase acc.1 h, setErase acc.2 h)
    else acc) (m.locPsn, m.lmBad)

/-- A write of local memory with the poison of each byte. -/
def lmWrite (s : Sys) (e : Nat) (l : List Nat) (v : Nat) (psn : List Bool) : Sys :=
  let marks := lmMarks s.mem e l psn
  { s with mem := { s.mem with loc := locWrite s.mem.loc e l v, locPsn := marks.1, lmBad := marks.2 } }

/-! ### Program counter and loops -/

/-- Hardware loop j is active (Table 6.2). -/
def Ctx.looping (c : Ctx) (j : Nat) : Bool := if j = 0 then decide (c.stF St.loop0 = 1) else decide (c.stF St.loop1 = 1)
/-- Hardware loop j set active or not. -/
def Ctx.setLooping (c : Ctx) (j : Nat) (b : Bool) : Ctx :=
  if j = 0 then c.setSt St.loop0 (b2n b) else c.setSt St.loop1 (b2n b)

/-- PC is at the end of active loop j. -/
def Ctx.atEnd (c : Ctx) (j : Nat) : Bool := c.looping j && decide (c.pc = (if j = 0 then c.lc0 else c.lc1).stop)
/-- The last iteration of LC1 is over. -/
def Ctx.endInner (c : Ctx) : Ctx := { c.setLooping 1 false with lc1 := { c.lc1 with count := 0 } }
/-- The last iteration of LC0 is over. -/
def Ctx.endOuter (c : Ctx) : Ctx := { c.setLooping 0 false with lc0 := { c.lc0 with count := 0 } }
/-- PC after an instruction that no iteration of LC1 takes back. -/
def Ctx.advanceOuter (c : Ctx) : Ctx :=
  if c.atEnd 0 && decide (1 < c.lc0.count.toNat) then
    { c with pc := c.lc0.start, lc0 := { c.lc0 with count := c.lc0.count - 1 } }
  else { (if c.atEnd 0 then c.endOuter else c) with pc := c.pc + 4 }
/-- The instruction at the end of loop LC1 or LC0 goes back to the start while iterations are left (R136). -/
def Ctx.advance (c : Ctx) : Ctx :=
  if c.atEnd 1 && decide (1 < c.lc1.count.toNat) then
    { c with pc := c.lc1.start, lc1 := { c.lc1 with count := c.lc1.count - 1 } }
  else (if c.atEnd 1 then c.endInner else c).advanceOuter

/-- A taken branch: every active loop ends (R136). -/
def Ctx.jump (c : Ctx) (target : BitVec 32) : Ctx := { (c.setLooping 0 false).setLooping 1 false with pc := target }

/-- The byte offset that a branch field of 4-byte words adds to PC. -/
def branchTarget (pc : BitVec 32) (off : BitVec 21) : BitVec 32 := pc + (off.signExtend 32) * 4

end Sys2Proof.Machine
end

