-- ==== Sys2Proof/Machine/Banks.lean ====
section
/-! DEFINITION. The speech banks of a channel as the frame work writes them (R201, R202, R205). The seal is in Seal.lean. -/
namespace Sys2Proof.Machine

/-- The last tick at or before n that is congruent to p modulo 8. -/
def phaseFloor (n p : Nat) : Nat := n - (n + 8 - p % 8) % 8

/-- The banks of a channel that opens at tick n with phase p (R205). -/
def openBanks (n p : Nat) : Banks :=
  let m := phaseFloor n p
  { filling := m, draining := m - 8, slots := [], nextSeal := n, doneTick := n, lastDecoded := none, run := 0, tags := [] }

/-- Samples of one tick at the channel's treatment rate (R201). -/
def slotSamples (c : Channel) : Nat := if c.rate16 then 40 else 20

/-- Samples of a tick of a frame at frame tick f: at the rate in force at that tick. -/
def slotSamplesAt (c : Channel) (f : Nat) : Nat := if (if f < c.rateTick then c.rateWas else c.rate16) then 40 else 20

/-- The source code of slot i in a push header (Table 9.5). -/
def slotSource (hdr i : Nat) : Nat := bitsAt (getF hdr BankHdr.sources) (2 * i) 2

/-- Whether a push has the form that Table 9.6 asks: length, slots, sources, and a frame tick whose slots lie in a bank. -/
def bankFormat (c : Channel) (len hdr : Nat) : Bool :=
  let f := getF hdr BankHdr.firstSlot
  let n := getF hdr BankHdr.slots
  decide (n = c.frameTicks) && decide (len = 16 + n * 2 * slotSamplesAt c f) && (List.range n).all (fun i => slotSource hdr i != 0)
    && isFrameTick c f && decide (c.banks.draining ≤ f) && decide (f + n ≤ c.banks.filling + 8)

/-- The slot that entry i of a push writes; it carries POISON where its samples, or the header it was judged by, do (Table 9.6). -/
def pushedSlot (c : Channel) (v psn i : Nat) : BankSlot :=
  let n := slotSamplesAt c (getF v BankHdr.firstSlot)
  let off := 16 + i * 2 * n
  { src := slotSource v i, tag := getF v BankHdr.epochTag,
    poison := decide (psn % 4 ≠ 0) || (List.range (n / 4)).any (fun w => psn.testBit (off / 8 + w)),
    samples := (List.range n).map (fun j => toSigned 16 (sliceBytes v (off + 2 * j) 2)) }

/-- A push of a frame to a channel's banks (Table 9.6): the device and whether it was accepted. -/
def bankPush (d : Dev) (c len v psn : Nat) : Dev × Bool :=
  match chanOf d c with
  | none => (d, false)
  | some x =>
    let f := getF v BankHdr.firstSlot
    let n := x.frameTicks
    if !bankFormat x len v || (List.range n).any (fun i => shas x.banks.slots (f + i)) then
      (bump d Obj.bankPushesRefused c 0, false)
    else if f + 8 ≤ curTick d then
      ((List.range n).foldl (fun d i => bump d Obj.bankSlotsLate c (slotSource v i - 1)) d, false)
    else
      let slots := (List.range n).foldl (fun m i => sput m (f + i) (pushedSlot x v psn i)) x.banks.slots
      (setChan d c { x with banks := { x.banks with slots := slots } }, true)

end Sys2Proof.Machine
end

