-- ==== Sys2Proof/Machine/QueueEnds.lean ====
section
/-! DEFINITION. What the queue manager makes of a push or a pop of an engine when it takes it (R192 to R196, R132, R163, R202),
and what the operation leaves in the context of its thread. -/
namespace Sys2Proof.Machine

/-- Whether a queue is one on which only the operations of the speech banks or of ordered accumulation act (R162, R201). -/
def queueSpecial (q : Nat) : Bool := decide (queueKind q = 2) || decide (queueKind q = 6) || decide (queueKind q = 7)

/-- The end of a push: the device, its QS, and whether it was refused because of poison (Table 6.7). -/
structure PushEnd where
  dev     : Dev
  qs      : Nat
  refused : Bool

/-- A push that the queue does not take. -/
def pushRefused (d : Dev) : PushEnd := ⟨d, qsRefused, false⟩

/-- QS after a push that was accepted: POISON where poisoned data were pushed. -/
def acceptedQs (i : QItem) : Nat := if i.poison = 0 then 0 else qsPoison

/-- What an engine pushes to an egress queue is a frame, whose age runs from the push (R49). -/
def itemFor (d : Dev) (q : Nat) (i : QItem) : QItem :=
  if queueKind q = 3 then
    { i with info := .frame { inPort := none, inPrio := 0, stamp := now d, order := d.fwd.order } }
  else i

/-- The order of admission moves on with a frame pushed to an egress queue (R59). -/
def noteFrame (d : Dev) (q : Nat) (ok : Bool) : Dev :=
  if ok && decide (queueKind q = 3) then { d with fwd := { d.fwd with order := d.fwd.order + 1 } } else d

/-- Whether the limits of R196 are what refuses an item. -/
def limitRefuses (d : Dev) (q : Nat) (word : Bool) (i : QItem) : Bool :=
  queueOpen d q && (isWord d q == word) && decide (pushVerdict d q (cellsNeeded d q i) ≠ 0)

/-- A push of engine e to an ordinary queue (Table 9.3); poisoned data to an egress queue are refused (Table 6.7). -/
def pushPlain (d : Dev) (e q : Nat) (word : Bool) (i : QItem) : PushEnd :=
  if queueKind q = 3 ∧ i.poison ≠ 0 then ⟨bumpBy d Obj.poisonRefusals e 0 (2 ^ 32), qsRefused, true⟩
  else
    let i := itemFor d q i
    let r := qPush d q word i
    ⟨noteFrame r.1 q r.2, if r.2 then acceptedQs i else if limitRefuses d q word i then qsRefused + qsFull else qsRefused, false⟩

/-- A block push to a bank queue, judged under Table 9.6; only a release push acts there (R201, R202). -/
def pushBank (d : Dev) (q : Nat) (rel : Bool) (i : QItem) : PushEnd :=
  if !rel then pushRefused d
  else
    let r := bankPush d (q - 131072) i.data.len i.data.val i.poison
    ⟨r.1, if r.2 then acceptedQs i else qsRefused, false⟩

/-- A block push to an ordered-accumulate queue, judged under Table 7.6. -/
def pushOa (d : Dev) (q : Nat) (i : QItem) : PushEnd :=
  let r := oaPush d (q - 253440) i.data.len i.data.val (i.poison != 0)
  ⟨r.1, if r.2 = 0 then acceptedQs i else if r.2 = 2 then qsRefused + qsFull else qsRefused, false⟩

/-- A push of engine e taken by the queue manager: the pair of QPUSH, or the block of QPUSH.BLK, whose length outside 1 to 1,024
no ordinary queue takes (R192). -/
def takePush (d : Dev) (e q : Nat) (word rel : Bool) (i : QItem) : PushEnd :=
  if word then (if queueSpecial q then pushRefused d else pushPlain d e q true i)
  else
    match queueKind q with
    | 2 => pushBank d q rel i
    | 6 => pushOa d q i
    | 7 => pushOa d q i
    | _ => if i.data.len = 0 ∨ 1024 < i.data.len then pushRefused d else pushPlain d e q false i

/-- QS where the operation is the last queue operation of its thread. -/
def Ctx.endQs (c : Ctx) (last : Bool) (v : Nat) : Ctx := if last then c.setQs v else c

/-- What the end of a push leaves in its thread's context: QS, PSN where poisoned data were pushed, PREFUSED (Table 6.7). -/
def Ctx.endPush (c : Ctx) (last : Bool) (p : PushEnd) (i : QItem) : Ctx :=
  ((c.endQs last p.qs).stick St.psn (decide (p.qs = qsPoison) && i.poison != 0)).stick St.prefused p.refused

/-- QS after a pop. -/
def popQs (p : Pop) : Nat := (if p.under then qsUnderrun else 0) + (if p.poison then qsPoison else 0)

/-- QPOP of a WORD queue: the device, QS, and the 128 bits with the poison of each half that go to the pair: the next item, or
LastValue (R194); none where the pop is refused. -/
def takePop (d : Dev) (q : Nat) : Dev × Nat × Option (Nat × Nat) :=
  if queueSpecial q ∨ isWord d q = false then (d, qsRefused, none)
  else
    let p := rawPop d q 16
    (p.dev, popQs p, some (p.data.val, if p.under && p.poison then 3 else p.psn))

end Sys2Proof.Machine
end

