-- ==== Sys2Proof/Machine/Gauge.lean ====
section
/-! DEFINITION. The draught gauge, the accounts of each engine (R180 to R182) and the steering of VDD_CORE (R183, R184). -/
namespace Sys2Proof.Machine

/-- Capacity of engine e, hundredths of a draught unit: floor(G × 98.5), and 0 in a gated hearth (R180). -/
def capacityOf (d : Dev) (e : Nat) : Nat := if e < enginesOf d then ogetN d Obj.gaugeReading (e / 16) 0 * 197 / 2 else 0
/-- Allocated: the sum of Cost over the TCBs whose HomeEngine it is (R181). -/
def allocatedOf (d : Dev) (e : Nat) : Nat :=
  sumNat (d.stk.tcbs.map (fun p => if p.2.home = e then p.2.cost else 0))
/-- Free (R181). -/
def freeOf (d : Dev) (e : Nat) : Nat := capacityOf d e - allocatedOf d e
/-- Deficit (R181). -/
def deficitOf (d : Dev) (e : Nat) : Nat := allocatedOf d e - capacityOf d e

/-- The deficit of engine e looked at after a change: onset, largest value, end (R182). -/
def judgeDeficit (d : Dev) (e : Nat) : Dev :=
  let x := deficitOf d e
  let d := if ogetN d Obj.deficitMax e 0 < x then oset d Obj.deficitMax e 0 x else d
  match sfind d.stk.deficit e with
  | none =>
    if x = 0 then d
    else
      let d := bump d Obj.deficitEvents e 0
      report { d with stk := { d.stk with deficit := sput d.stk.deficit e (now d, false) } } 0 0x0301 e 0
  | some (since, _) =>
    if x ≠ 0 then d
    else
      let d := bumpBy d Obj.deficitTime e 0 (((now d - since) / 65536 : Nat) : Int)
      { d with stk := { d.stk with deficit := serase d.stk.deficit e } }

/-- The engines of hearth h. -/
def enginesOfHearth (h : Nat) : List Nat := (List.range 16).map (· + 16 * h)

/-- The load ratio of hearth h, 0.01 % (R183); 0 where it has no capacity. -/
def loadRatio (d : Dev) (h : Nat) : Nat :=
  let cap := 16 * capacityOf d (16 * h)
  if cap = 0 then 0 else sumNat ((enginesOfHearth h).map (allocatedOf d)) * 10000 / cap

/-- The hearth with the highest load ratio, the lowest number on a tie. -/
def mostLoaded (d : Dev) : Nat :=
  (List.range (hearthsOf d)).foldl (fun best h => if loadRatio d best < loadRatio d h then h else best) 0

/-- Whether every powered engine holds Allocated at or below AvsLowerRatio of its Capacity, with no deficit (R183). -/
def lightlyLoaded (d : Dev) : Bool :=
  (List.range (enginesOf d)).all (fun e =>
    decide (allocatedOf d e * 10000 ≤ capacityOf d e * ogetN d Obj.avsLowerRatio 0 0) && decide (deficitOf d e = 0))

/-- Since when the load has been light, brought up to date. -/
def noteLight (d : Dev) : Dev :=
  let a := d.stk.avs
  let low := if lightlyLoaded d then (match a.lowSince with | some t => some t | none => some (now d)) else none
  { d with stk := { d.stk with avs := { a with lowSince := low } } }

/-- A change of what engine e holds: its deficit, and whether the load is still light (R182, R183). -/
def noteDeficit (d : Dev) (e : Nat) : Dev := noteLight (judgeDeficit d e)

/-- A gauge reading G of hearth h, 100 µs after its last: time goes on to it (R180, R182). A gated hearth takes none. -/
def gaugeReading (h g : Nat) (d : Dev) : Dev :=
  let due := sget d.stk.gaugeAt h 0 + usec (ogetN d Obj.gaugePeriod 0 0)
  if decide (hearthsOf d ≤ h) || !canReach d due then d
  else
    let d := passUntil d due
    let d := { d with stk := { d.stk with gaugeAt := sput d.stk.gaugeAt h (now d) } }
    let least := ogetN d Obj.gaugeMin h 0
    let d := oset d Obj.gaugeReading h 0 (g % 65536 : Nat)
    let d := if least = 0 ∨ g % 65536 < least then oset d Obj.gaugeMin h 0 (g % 65536 : Nat) else d
    noteLight ((enginesOfHearth h).foldl judgeDeficit d)

/-- A deficit that has stood longer than DeficitAlarmTime raises a second notice, once (R182). -/
def deficitStanding (e : Nat) (d : Dev) : Dev :=
  match sfind d.stk.deficit e with
  | some (since, false) =>
    let due := since + msec (ogetN d Obj.deficitAlarmTime 0 0)
    if canReach d due then
      let d := passUntil d due
      report { d with stk := { d.stk with deficit := sput d.stk.deficit e (since, true) } } 0 0x0302 e 0
    else d
  | _ => d

/-- Whether any Ethernet port has AdminUp set. -/
def anyPortUp (d : Dev) : Bool := (List.range 32).any (fun p => ogetB d Obj.adminUp p 0)

/-- VddCoreFloor, mV (R184). -/
def vddFloor (d : Dev) : Nat := if anyPortUp d then 720 else 600

/-- Command a voltage and wait for its report (R183). -/
def commandVdd (d : Dev) (mv : Nat) : Dev :=
  emit { d with stk := { d.stk with avs := { d.stk.avs with command := mv, waiting := some (now d) } } } (.avs mv)

/-- A decision of the supervisor (R183, R184): the first rule that applies, one step at most. -/
def avsDecide (d : Dev) : Dev :=
  let a := d.stk.avs
  let step := ogetN d Obj.avsStep 0 0
  let most := ogetN d Obj.avsMax 0 0
  let raise := fun (d : Dev) (mv : Nat) => bump (commandVdd d mv) Obj.avsRaises 0 0
  let lower := fun (d : Dev) (mv : Nat) => bump (commandVdd d mv) Obj.avsLowers 0 0
  if most < a.command then lower d (max most (a.command - step))
  else if !a.ports.isEmpty && decide (a.command < 720) then raise d (min most (a.command + step))
  else if (List.range (enginesOf d)).any (fun e => decide (deficitOf d e ≠ 0))
      || decide (ogetN d Obj.avsRaiseRatio 0 0 ≤ loadRatio d (mostLoaded d)) then
    if a.command < most then raise d (min most (a.command + step)) else d
  else
    match a.lowSince with
    | some t =>
      if t + msec (ogetN d Obj.avsLowerHold 0 0) ≤ now d ∧ vddFloor d < a.command then
        let d := lower d (max (vddFloor d) (a.command - step))
        { d with stk := { d.stk with avs := { d.stk.avs with lowSince := some (now d) } } }
      else d
    | none => d

/-- The decision that falls every AvsInterval; none while a step awaits its report (R183). -/
def avsDecision (d : Dev) : Dev :=
  let a := d.stk.avs
  let due := a.lastDecision + msec (ogetN d Obj.avsInterval 0 0)
  if quenched d || d.start.resetLow || !canReach d due then d
  else
    let d := noteLight (passUntil d due)
    let d := { d with stk := { d.stk with avs := { d.stk.avs with lastDecision := now d } } }
    if a.waiting.isSome then d else avsDecide d

/-- Ports whose AdminUp waited come up administratively once VDD_CORE is at 0.720 V (R184). -/
def avsPorts (d : Dev) : Dev :=
  if d.stk.avs.reported < 720 ∨ d.stk.avs.command < 720 then d
  else
    let d1 := d.stk.avs.ports.foldl (fun d p => oset d Obj.adminUp p 0 1) d
    { d1 with stk := { d1.stk with avs := { d1.stk.avs with ports := [] } } }

/-- The regulator reports a voltage (R183). -/
def avsReport (mv : Nat) (d : Dev) : Dev :=
  let a := d.stk.avs
  let done := a.waiting.isSome && decide (mv = a.command)
  avsPorts { d with stk := { d.stk with avs := { a with reported := mv, waiting := if done then none else a.waiting } } }

/-- No report within 2,000 µs: the last reported voltage is commanded again (R184). -/
def avsFailure (d : Dev) : Dev :=
  match d.stk.avs.waiting with
  | none => d
  | some t =>
    let due := t + usec 2000
    if !canReach d due then d
    else
      let d := passUntil d due
      let mv := d.stk.avs.reported
      let d := emit { d with stk := { d.stk with avs := { d.stk.avs with command := mv, waiting := none } } } (.avs mv)
      avsPorts (report (bump d Obj.avsFailures 0 0) 0 0x0303 0 0)

end Sys2Proof.Machine
end

