-- ==== Sys2Proof/Machine/StokerCmd.lean ====
section
/-! DEFINITION. The Stoker's commands (R178, Tables 8.5 and 8.6) and the move of a migrating thread. -/
namespace Sys2Proof.Machine

/-- A command record (Table 8.6); `reserved` tells whether a reserved field is set, which changes nothing (R8). -/
structure StokerRec where
  cost    : Nat
  entryPc : Nat
  lmWindow : Nat
  mask    : Nat
  flags   : Nat
  prio    : Nat
  target  : Nat
  relDl   : Nat
  waitMask : Nat
  thread  : Nat
  reserved : Bool
  deriving DecidableEq, Repr

/-- The fields of a 32-byte command record (Table 8.6). -/
def stokerRecOf (v : Nat) : StokerRec :=
  { cost := bitsAt v 224 32, entryPc := bitsAt v 192 32, lmWindow := bitsAt v 176 16, mask := bitsAt v 160 16,
    flags := bitsAt v 152 8, prio := bitsAt v 144 8, target := bitsAt v 136 8, relDl := bitsAt v 96 32,
    waitMask := bitsAt v 64 8, thread := bitsAt v 32 32,
    reserved := decide (bitsAt v 128 8 ≠ 0) || decide (bitsAt v 8 24 ≠ 0) || decide (bitsAt v 72 24 ≠ 0) }

/-- Statuses of CommandResult (R178). -/
def stDone : Nat := 0
def stFormat : Nat := 1
def stNoThread : Nat := 2
def stState : Nat := 3
def stCapacity : Nat := 4
def stDeficit : Nat := 5
def stRunnable : Nat := 6
def stStore : Nat := 7
def stChannel : Nat := 8

/-- A context with EntryPc and LMWIN from its TCB (Table 6.12). -/
def freshCtx (entryPc lmWindow : Nat) : Ctx :=
  { Ctx.reset with pc := BitVec.ofNat 32 entryPc, lmwin := BitVec.ofNat 32 lmWindow }

/-- A new TCB in state BLOCKED. -/
def newTcb (r : StokerRec) (channel : Nat) : Tcb :=
  { state := 1, entryPc := r.entryPc, channel := channel, cost := r.cost, lmWindow := r.lmWindow, mask := r.mask,
    home := r.target, prio := r.prio, releases := 0, waitMask := r.waitMask % 256, flags := r.flags % 32, relDl := r.relDl,
    misses := 0, dispatches := 0, preempts := 0, dlTick := 0, dlOff := 0, ctx := freshCtx r.entryPc r.lmWindow,
    release := none, missed := false, hold := none, move := none, via := none, behind := false }

/-- Whether a window lies in local memory: base and size in 4 KiB units, other bits zero (Table 6.12). -/
def windowOk (w : Nat) : Bool :=
  decide (bitsAt w 6 2 = 0) && decide (bitsAt w 15 1 = 0) && decide (bitsAt w 0 6 + bitsAt w 8 7 ≤ 64)

/-- The common format of a record's thread settings. -/
def settingsOk (r : StokerRec) : Bool := decide (r.prio < 32)

/-- The lowest FREE TCB, where there is one. -/
def lowestFree (d : Dev) : Option Nat :=
  let rec go : Nat → SMap Tcb → Option Nat
    | n, [] => if n < 131072 then some n else none
    | n, (k, _) :: r => if k = n then go (n + 1) r else some n
  go 0 d.stk.tcbs

/-- Why `cost` more hundredths cannot be placed on engine e: DEFICIT, CAPACITY or DONE (R178, R182). -/
def roomOn (d : Dev) (e cost : Nat) : Nat :=
  if deficitOf d e ≠ 0 then stDeficit else if freeOf d e < cost then stCapacity else stDone

/-- The same with the limit of runnable threads (R178). -/
def placeOn (d : Dev) (e cost : Nat) : Nat :=
  match roomOn d e cost with
  | 0 => if 512 ≤ runnableOn d e then stRunnable else stDone
  | x => x

/-- CREATE. -/
def stokerCreate (d : Dev) (r : StokerRec) : Dev × Nat × Nat :=
  let named := if r.thread = 0xFFFFFFFF then lowestFree d else some r.thread
  if !settingsOk r || !windowOk r.lmWindow || decide (enginesOf d ≤ r.target) || !bitSet r.mask (r.target % 16)
      || (decide (131072 ≤ r.thread) && decide (r.thread ≠ 0xFFFFFFFF)) || decide (1048576 ≤ r.entryPc)
      || decide (r.entryPc % 4 ≠ 0) then (d, stFormat, r.thread)
  else
    match named with
    | none => (d, stState, r.thread)
    | some t =>
      if (tcbOf d t).isSome then (d, stState, r.thread)
      else
        match placeOn d r.target r.cost with
        | 0 => (noteDeficit (setTcb d t (newTcb r 0xFFFFFFFF)) r.target, stDone, t)
        | x => (d, x, r.thread)

/-- SET. -/
def stokerSet (d : Dev) (r : StokerRec) : Dev × Nat × Nat :=
  match tcbOf d r.thread with
  | none => (d, if settingsOk r then stNoThread else stFormat, r.thread)
  | some k =>
    if !settingsOk r || !bitSet r.mask (k.home % 16) then (d, stFormat, r.thread)
    else if k.channel ≠ 0xFFFFFFFF ∧ r.cost ≠ k.cost then (d, stChannel, r.thread)
    else
      match if k.cost < r.cost then roomOn d k.home (r.cost - k.cost) else stDone with
      | 0 =>
        let k1 := { k with prio := r.prio, mask := r.mask, flags := r.flags % 32, relDl := r.relDl, cost := r.cost }
        (noteDeficit (setTcb d r.thread k1) k.home, stDone, r.thread)
      | x => (d, x, r.thread)

/-- The mask that a thread takes at a move to engine e (R178). -/
def maskAfter (k : Tcb) (e recMask : Nat) : Nat :=
  let bit := 2 ^ (e % 16)
  if k.home / 16 ≠ e / 16 then bit
  else if recMask ≠ 0 then recMask
  else if bitSet k.mask (e % 16) then k.mask
  else bit

/-- The entries held for a thread, those that a migration has yet to move included. -/
def entriesOf (d : Dev) (t : Nat) : List Ready :=
  (d.stk.ready.map (fun p => p.2.filter (fun r => decide (r.thread = t)))).flatten

/-- Whether the store of hearth h can take the entries of thread t within R170. -/
def storeTakes (d : Dev) (t h : Nat) : Bool :=
  decide (hearthOf d t = h) || decide ((readyOf d h).length + (entriesOf d t).length ≤ 8176)

/-- A thread comes to rest with the entries it holds: READY for the first that it can be dispatched for, which is a decision to be
traced (R185), or else BLOCKED. -/
def restThread (d : Dev) (t : Nat) (k : Tcb) : Dev :=
  match (sortReady d (entriesOf d t)).find? (fun r => k.wants r.kind) with
  | some r => trace (setTcb d t { k with state := 2 }) t k.home 1 r.kind 0
  | none => setTcb d t { k with state := 1 }

/-- The held entries of a MIGRATING thread pass to its new hearth's store, where that has room for them; the thread is
then READY or BLOCKED at the target (R178). -/
def finishMove (d : Dev) (t : Nat) : Dev :=
  match tcbOf d t with
  | none => d
  | some k =>
    match k.state, k.move with
    | 5, some (old, _) =>
      let ho := old / 16
      let hn := k.home / 16
      let mine := fun (r : Ready) => decide (r.thread = t)
      let held := (readyOf d ho).filter mine
      if ho ≠ hn ∧ 8176 < (readyOf d hn).length + held.length then d
      else
        let d1 := if ho = hn then d
          else setReady (setReady d ho ((readyOf d ho).filter (fun r => !mine r))) hn (readyOf d hn ++ held)
        noteDepth (restThread d1 t { k with move := none }) k.home
    | _, _ => d

/-- The move itself: home and mask, Cost with them, in one step; the thread is MIGRATING until its entries have followed
(R178). -/
def moveThread (d : Dev) (t e mask : Nat) : Dev :=
  match tcbOf d t with
  | none => d
  | some k =>
    let d1 := setTcb d t { k with home := e, mask := mask, state := 5, move := some (k.home, mask), via := none }
    let d2 := onChan d1 k.channel (fun c => { c with engine := e })
    finishMove (trace (noteDeficit (noteDeficit d2 k.home) e) t k.home 6 0 e) t

/-- MIGRATE. -/
def stokerMigrate (d : Dev) (port : Option Nat) (r : StokerRec) : Dev × Nat × Nat :=
  match tcbOf d r.thread with
  | none => (d, stNoThread, r.thread)
  | some k =>
    let e := if r.target = 255 then k.home else r.target
    if decide (enginesOf d ≤ e) || (decide (r.mask ≠ 0) && !bitSet r.mask (e % 16)) then
      (d, stFormat, r.thread)
    else if k.state = 4 ∨ k.state = 5 ∨ k.move.isSome then (d, stState, r.thread)
    else
      match if e = k.home then stDone else placeOn d e k.cost with
      | 0 =>
        if !storeTakes d r.thread (e / 16) then (d, stStore, r.thread)
        else
          let mask := maskAfter k e r.mask
          if k.state = 3 then (setTcb d r.thread { k with move := some (e, mask), via := port }, stDone, r.thread)
          else (moveThread d r.thread e mask, stDone, r.thread)
      | x => (d, x, r.thread)

/-- A RESUME entry for thread t, at the tail of its level's RESUME entries; never refused (R170). -/
def putResume (d : Dev) (t : Nat) (k : Tcb) : Dev :=
  let dl := (k.dlTick, k.dlOff)
  (putEntry d t 6 0 dl.1 dl.2 k).1

/-- RESUME. -/
def stokerResume (d : Dev) (r : StokerRec) : Dev × Nat × Nat :=
  match tcbOf d r.thread with
  | none => (d, stNoThread, r.thread)
  | some k =>
    if k.state ≠ 4 then (d, stState, r.thread)
    else
      let d := clearStanding d [0x0611] r.thread
      if k.release.isSome then
        (trace (putResume d r.thread { k with state := 2 }) r.thread k.home 1 6 0, stDone, r.thread)
      else (restThread d r.thread k, stDone, r.thread)

/-- A TCB is freed: its entries go, its Cost returns, an engine that runs it stops (R68, R178). -/
def freeThread (d : Dev) (t : Nat) : Dev :=
  match tcbOf d t with
  | none => d
  | some k =>
    let d := rollLoads (dropKinds d t [0, 1, 2, 3, 4, 5, 6]) (fun e => decide ((engineOf d e).thread = some t))
    let stop := fun (e : EngineSt) => if e.thread = some t then { e with thread := none } else e
    let engines := d.engines.map (fun e => (e.1, stop e.2))
    let d := { d with stk := { d.stk with tcbs := serase d.stk.tcbs t }, engines := engines }
    clearStanding (noteDeficit d k.home) [0x0611] t

/-- REMOVE. -/
def stokerRemove (d : Dev) (r : StokerRec) : Dev × Nat × Nat :=
  match tcbOf d r.thread with
  | none => (d, stNoThread, r.thread)
  | some k => if k.channel ≠ 0xFFFFFFFF then (d, stChannel, r.thread) else (freeThread d r.thread, stDone, r.thread)

/-- CLEAR_STATISTICS: the class B statistics of an engine, or of all (R186). -/
def stokerClear (d : Dev) (r : StokerRec) : Dev × Nat × Nat :=
  let clear := fun (d : Dev) (e : Nat) =>
    oset { d with stk := { d.stk with waits := serase d.stk.waits e } } Obj.readyDepthMax e 0 0
  if r.thread = 0xFFFFFFFF then ((List.range 192).foldl clear d, stDone, r.thread)
  else if r.thread < enginesOf d then (clear d r.thread, stDone, r.thread)
  else (d, stFormat, r.thread)

/-- A command by its code (Table 8.5); any other code is FORMAT. -/
def stokerDo (d : Dev) (port : Option Nat) (code : Nat) (r : StokerRec) : Dev × Nat × Nat :=
  match code with
  | 1 => stokerCreate d r
  | 2 => stokerSet d r
  | 3 => stokerMigrate d port r
  | 4 => stokerResume d r
  | 5 => stokerRemove d r
  | 6 => stokerClear d r
  | _ => (d, stFormat, r.thread)

/-- The result of a command shown in CommandResult, or at the port of a slice (R178). -/
def showResult (d : Dev) (port : Option Nat) (st t : Nat) : Dev :=
  let v := st + t * 2 ^ 32
  match port with
  | none => { d with stk := { d.stk with result := v } }
  | some h => { d with stk := { d.stk with resultH := sput d.stk.resultH h v } }

/-- A command with its result. -/
def stokerCommand (d : Dev) (port : Option Nat) (code : Nat) (r : StokerRec) : Dev :=
  let (d, st, t) := stokerDo d port code r
  showResult d port st t

end Sys2Proof.Machine
end

