-- ==== Sys2Proof/Machine/Contexts.lean ====
section
/-! DEFINITION. Thread control blocks and saved contexts as the Stoker's memory holds them (Tables 8.1 and 6.12, R141, R167). -/
namespace Sys2Proof.Machine

/-- Thread control block t as Table 8.1 lays it out. -/
def tcbRecordOf (d : Dev) (t : Nat) : Nat :=
  match tcbOf d t with
  | none => setF (setF (setF 0 TcbRec.channel 0xFFFFFFFF) TcbRec.priority 8) TcbRec.waitMask 3
  | some k =>
    let v := setF (setF (setF (setF 0 TcbRec.deadlineTick k.dlTick) TcbRec.deadlineOffset k.dlOff) TcbRec.entryPc k.entryPc) TcbRec.channel k.channel
    let v := setF (setF (setF (setF v TcbRec.cost k.cost) TcbRec.lmWindow k.lmWindow) TcbRec.affinityMask k.mask) TcbRec.homeEngine k.home
    let v := setF (setF (setF (setF v TcbRec.priority k.prio) TcbRec.state k.state) TcbRec.releasesPending k.releases) TcbRec.waitMask k.waitMask
    let v := setF (setF (setF (setF v TcbRec.flags k.flags) TcbRec.entriesHeld (entriesOf d t).length) TcbRec.relativeDeadline k.relDl)
      TcbRec.deadlineMisses k.misses
    setF (setF v TcbRec.dispatches k.dispatches) TcbRec.preemptions k.preempts

/-- Numbers of `w` bits side by side, the first lowest. -/
def packed (w : Nat) : List Nat → Nat
  | [] => 0
  | x :: l => x % 2 ^ w + 2 ^ w * packed w l

/-- A loop register: count, start, end. -/
def LoopReg.packed (l : LoopReg) : Nat := Machine.packed 32 [l.count.toNat, l.start.toNat, l.stop.toNat]

/-- A context in its 512 bytes (Table 6.12): accumulator pair k stands in 10 bytes at byte 320 + 10k. -/
def Ctx.record (c : Ctx) : Nat :=
  let v := setF (setF (setF 0 SavedCtx.copyState (c.tags.toNat + c.failed.toNat * 256)) SavedCtx.lmWindow c.lmwin.toNat)
    SavedCtx.loopState (packed 96 [c.lc0.packed, c.lc1.packed])
  let v := setF (setF (setF (setF v SavedCtx.gPoison c.gp.toNat) SavedCtx.accPoison c.accp.toNat) SavedCtx.qs c.qs.toNat) SavedCtx.pc c.pc.toNat
  let v := setF (setF v SavedCtx.st c.st.toNat) SavedCtx.accumulators (packed 80 (c.acc.toList.map BitVec.toNat))
  let v := setF (setF v SavedCtx.cd0ToCd3 (packed 64 (c.cd.toList.map BitVec.toNat))) SavedCtx.a0ToA7 (packed 32 (c.a.toList.map BitVec.toNat))
  setF v SavedCtx.g0ToG31 (packed 64 (c.g.toList.map BitVec.toNat))

/-- The context of a thread that DRAM holds: one that runs nowhere, is not still to be written back and holds no ready entry; the
others' stand on die (R167). -/
def dramCtx (d : Dev) (t : Nat) : Option Ctx :=
  match tcbOf d t with
  | none => none
  | some k =>
    let onDie := d.engines.any (fun e => decide (e.2.thread = some t) || decide (e.2.back.map Prod.fst = some t))
    if onDie || !(entriesOf d t).isEmpty then none else some k.ctx

/-- The byte at an offset of the Stoker region. The spec does not place the records within the region: which record an offset belongs
to is a constant of the device. None where it belongs to none, or to a context that DRAM does not hold. -/
def stokerByte (d : Dev) (off : Nat) : Option Nat :=
  match Config.stokerRecord off with
  | none => none
  | some (false, t, b) => if t < 131072 ∧ b < 64 then some (sliceBytes (tcbRecordOf d t) b 1) else none
  | some (true, t, b) => if t < 131072 ∧ b < 512 then (dramCtx d t).map (fun c => sliceBytes c.record b 1) else none

end Sys2Proof.Machine
end

