-- ==== Sys2Proof/Machine/Deflate.lean ====
section
/-! DEFINITION. The compressor's output for one job, as pieces of bits in the order in which they are emitted: matching
(R229, R230), DEFLATE blocks and their codes (R231), the end of a job (R232) and the predictive transform (R228). -/
namespace Sys2Proof.Machine

/-! ### Matching -/

/-- The hash of a position, once three bytes are available (R229). -/
def hash3 : List Nat → Option Nat
  | a :: b :: c :: _ => some (((a <<< 10) ^^^ (b <<< 5) ^^^ c) &&& 0x7FFF)
  | _ => none

/-- The length of the common prefix of two byte lists, at most `n`. -/
def commonPrefix : Nat → List Nat → List Nat → Nat
  | n + 1, a :: x, b :: y => if a = b then commonPrefix n x y + 1 else 0
  | _, _, _ => 0

/-- The walk of a hash chain: earlier positions, newest first and `dist` back, of which those with hash `h` are
examined, at most `depth` of them; the best length and distance so far are `m` (R229). -/
def walkChain (h : Nat) (s : List Nat) : List (List Nat) → Nat → Nat → Nat × Nat → Nat × Nat
  | [], _, _, m => m
  | c :: r, depth, dist, m =>
    if 32768 < dist ∨ depth = 0 ∨ m.1 = 258 then m
    else if hash3 c = some h then
      let n := commonPrefix 258 c s
      walkChain h s r (depth - 1) (dist + 1) (if m.1 < n then (n, dist) else m)
    else walkChain h s r depth (dist + 1) m

/-- best() of R230: length and distance of the best match at a position, length 0 below 3. -/
def bestMatch (depth : Nat) (past : List (List Nat)) (s : List Nat) : Nat × Nat :=
  match hash3 s with
  | none => (0, 0)
  | some h =>
    let m := walkChain h s past depth 1 (0, 0)
    if m.1 < 3 then (0, 0) else m

/-- The positions behind, after `n` bytes of `s` have been passed. -/
def passBytes : Nat → List (List Nat) → List Nat → List (List Nat) × List Nat
  | n + 1, past, b :: s => passBytes n ((b :: s) :: past) s
  | _, past, s => (past, s)

/-- The symbols of an image from a position on (R230), with the match that the lazy rule holds; `n` bounds their
number. -/
def lazySymbols (depth lazy : Nat) : Nat → List (List Nat) → List Nat → Option (Nat × Nat) → List Sym
  | 0, _, _, _ => []
  | _, _, [], _ => []
  | n + 1, past, b :: s, held =>
    let m := held.getD (bestMatch depth past (b :: s))
    let next := bestMatch depth ((b :: s) :: past) s
    if 3 ≤ m.1 ∧ m.1 < lazy ∧ s ≠ [] ∧ m.1 < next.1 then
      .lit b :: lazySymbols depth lazy n ((b :: s) :: past) s (some next)
    else if 3 ≤ m.1 then
      let (past, s) := passBytes m.1 past (b :: s)
      .copy m.1 m.2 :: lazySymbols depth lazy n past s none
    else .lit b :: lazySymbols depth lazy n ((b :: s) :: past) s none

/-- Chain depth and lazy limit of an effort (Table 11.6). -/
def effortOf : Nat → Nat × Nat
  | 0 => (8, 16)
  | 1 => (32, 32)
  | 2 => (128, 128)
  | _ => (1024, 258)

/-- The symbols of an image that follows a window of history. -/
def symbolsOf (effort : Nat) (window image : List Nat) : List Sym :=
  let (past, s) := passBytes window.length [] (window ++ image)
  lazySymbols (effortOf effort).1 (effortOf effort).2 image.length past s none

/-- The input bytes that a symbol covers. -/
def Sym.covers : Sym → Nat
  | .lit _ => 1
  | .copy l _ => l

/-- Symbols grouped into DEFLATE blocks: a block ends after the symbol that brings it to 16,384 bytes (R231). -/
def blocksOf : List Sym → Nat → List Sym → List (List Sym)
  | [], _, acc => if acc.isEmpty then [] else [acc.reverse]
  | s :: r, n, acc =>
    if 16384 ≤ n + s.covers then (s :: acc).reverse :: blocksOf r 0 []
    else blocksOf r (n + s.covers) (s :: acc)

/-! ### Alphabets (RFC 1951) -/

/-- Length code, extra bits and their value. -/
def lengthCode (l : Nat) : Nat × Nat × Nat :=
  if l = 258 then (285, 0, 0)
  else if l < 11 then (254 + l, 0, 0)
  else
    let e := Nat.log2 (l - 3) - 2
    (257 + 4 * e + (l - 3) / 2 ^ e, e, (l - 3) % 2 ^ e)

/-- Distance code, extra bits and their value. -/
def distCode (x : Nat) : Nat × Nat × Nat :=
  if x < 5 then (x - 1, 0, 0)
  else
    let e := Nat.log2 (x - 1) - 1
    (2 * e + (x - 1) / 2 ^ e, e, (x - 1) % 2 ^ e)

/-- One piece of output: bits that are emitted together, first bit lowest. -/
structure Piece where
  val : Nat
  w   : Nat

/-- The low `w` bits of a number in the opposite order. -/
def revCode : Nat → Nat → Nat
  | 0, _ => 0
  | w + 1, v => v % 2 * 2 ^ w + revCode w (v / 2)

/-- The canonical code of symbol `s` under code lengths `ls` (RFC 1951, 3.2.2). -/
def codeOf (ls : List Nat) (s : Nat) : Piece :=
  let w := ls.getD s 0
  let count := fun k => (ls.filter (fun l => decide (l = k) && decide (l ≠ 0))).length
  let first := (List.range w).foldl (fun c k => (c + count k) * 2) 0
  let before := ((ls.take s).filter (fun l => decide (l = w))).length
  ⟨revCode w (first + before), w⟩

/-- The fixed code lengths. -/
def fixedLit : List Nat :=
  List.replicate 144 8 ++ List.replicate 112 9 ++ List.replicate 24 7 ++ List.replicate 8 8
/-- The fixed distance code lengths. -/
def fixedDist : List Nat := List.replicate 30 5

/-- The code words of a symbol: one, or length and then distance, each with its extra bits (R235). -/
def Sym.pieces (lit dist : List Nat) : Sym → List Piece
  | .lit b => [codeOf lit b]
  | .copy l x =>
    let (cl, el, vl) := lengthCode l
    let (cd, ed, vd) := distCode x
    let pl := codeOf lit cl
    let pd := codeOf dist cd
    [⟨pl.val + vl * 2 ^ pl.w, pl.w + el⟩, ⟨pd.val + vd * 2 ^ pd.w, pd.w + ed⟩]

/-- One piece of a job's output with where the emitting pass stands before it: image bytes consumed, where its DEFLATE
block began, that block's type, what the piece is (0 not a symbol, 1 literal, 2 length, 3 distance), and its symbol. -/
structure Step where
  piece : Piece
  inp   : Nat
  blk   : Nat
  ty    : Nat
  kind  : Nat
  sym   : Option Sym

/-- Pieces that belong to no symbol, at image offset `inp`. -/
def plainSteps (inp blk ty : Nat) (l : List Piece) : List Step := l.map (fun p => ⟨p, inp, blk, ty, 0, none⟩)

/-- The steps of symbols from image offset `inp` on. -/
def symSteps (lit dist : List Nat) (blk ty : Nat) : Nat → List Sym → List Step
  | _, [] => []
  | inp, s :: r =>
    (match s with
      | .lit _ => (s.pieces lit dist).map (fun p => ⟨p, inp, blk, ty, 1, some s⟩)
      | .copy _ _ => (s.pieces lit dist).mapIdx (fun i p => ⟨p, inp, blk, ty, 2 + i, some s⟩))
      ++ symSteps lit dist blk ty (inp + s.covers) r

/-! ### Dynamic codes (R231) -/

/-- A package of package-merge: its weight, whether it is a symbol alone, and the symbols in it. -/
structure Pack where
  weight : Nat
  single : Bool
  syms   : List Nat

/-- One package goes before another: by weight; symbols of one weight keep their order; a symbol and a package of one
weight by Config. -/
def Pack.before (a b : Pack) : Bool :=
  if a.weight ≠ b.weight then decide (a.weight < b.weight)
  else if a.single = b.single then (if a.single then decide (a.syms.getD 0 0 < b.syms.getD 0 0) else false)
  else (if Config.packageFirst then !a.single else a.single)

/-- A package placed after those that do not go after it. -/
def insertPack (p : Pack) : List Pack → List Pack
  | [] => [p]
  | q :: r => if p.before q then p :: q :: r else q :: insertPack p r

/-- Packages in order. -/
def sortPacks (l : List Pack) : List Pack := l.foldl (fun acc p => insertPack p acc) []

/-- Neighbours joined in pairs. -/
def pairPacks : List Pack → List Pack
  | a :: b :: r => ⟨a.weight + b.weight, false, a.syms ++ b.syms⟩ :: pairPacks r
  | _ => []

/-- The last list of package-merge with code lengths of at most `n + 1`. -/
def packLists (items : List Pack) : Nat → List Pack
  | 0 => items
  | n + 1 => sortPacks (items ++ pairPacks (packLists items n))

/-- Code lengths of at most `limit` for the frequencies of an alphabet; an unused symbol has none, and a single used
symbol has length 1. -/
def codeLengths (limit : Nat) (freqs : List Nat) : List Nat :=
  let items := sortPacks (((List.range freqs.length).filter (fun i => decide (freqs.getD i 0 ≠ 0))).map
    (fun i => ⟨freqs.getD i 0, true, [i]⟩))
  if items.length = 1 then freqs.map (fun f => if f = 0 then 0 else 1)
  else
    let chosen := ((packLists items (limit - 1)).take (2 * items.length - 2)).flatMap Pack.syms
    (List.range freqs.length).map (fun i => (chosen.filter (fun s => decide (s = i))).length)

/-- The frequencies of the literal/length alphabet in a block, end-of-block once. -/
def litFreqs (b : List Sym) : List Nat :=
  let codes := 256 :: b.map (fun s => match s with
    | .lit v => v
    | .copy l _ => (lengthCode l).1)
  (List.range 286).map (fun i => (codes.filter (fun c => decide (c = i))).length)

/-- The frequencies of the distance alphabet in a block. -/
def distFreqs (b : List Sym) : List Nat :=
  let codes := b.filterMap (fun s => match s with
    | .lit _ => none
    | .copy _ x => some (distCode x).1)
  (List.range 30).map (fun i => (codes.filter (fun c => decide (c = i))).length)

/-- A list without the zeros at its end, but at least `n` long. -/
def trimTo (n : Nat) (l : List Nat) : List Nat :=
  let used := (l.reverse.dropWhile (fun x => decide (x = 0))).length
  l.take (max n used)

/-- How many entries at the front of a list equal `v`. -/
def runOf (v : Nat) : List Nat → Nat
  | [] => 0
  | x :: r => if x = v then runOf v r + 1 else 0

/-- The code-length sequence in runs: symbol, extra bits, their value (R231); `n` bounds the work. -/
def lengthRuns : Nat → Option Nat → List Nat → List (Nat × Nat × Nat)
  | 0, _, _ => []
  | _, _, [] => []
  | n + 1, prev, v :: r =>
    let k := runOf v (v :: r)
    if v = 0 ∧ 11 ≤ k then (18, 7, min k 138 - 11) :: lengthRuns n (some 0) ((v :: r).drop (min k 138))
    else if v = 0 ∧ 3 ≤ k then (17, 3, k - 3) :: lengthRuns n (some 0) ((v :: r).drop k)
    else if prev = some v ∧ v ≠ 0 ∧ 3 ≤ k then (16, 2, min k 6 - 3) :: lengthRuns n prev ((v :: r).drop (min k 6))
    else (v, 0, 0) :: lengthRuns n (some v) r

/-- The order in which the code-length code lengths are sent (RFC 1951). -/
def clOrder : List Nat := [16, 17, 18, 0, 8, 7, 9, 6, 10, 5, 11, 4, 12, 3, 13, 2, 14, 1, 15]

/-- The distance code lengths of a block: one with no match codes distance 0 with length 1. -/
def distLengths (b : List Sym) : List Nat :=
  let l := codeLengths 15 (distFreqs b)
  if l.all (fun x => decide (x = 0)) then 1 :: List.replicate 29 0 else l

/-- A dynamic block at image offset `at_`. -/
def dynamicBlock (at_ : Nat) (b : List Sym) : List Step :=
  let lit := codeLengths 15 (litFreqs b)
  let dist := distLengths b
  let litS := trimTo 257 lit
  let distS := trimTo 1 dist
  let runs := lengthRuns (litS.length + distS.length) none (litS ++ distS)
  let cl := codeLengths 7 ((List.range 19).map (fun i => (runs.filter (fun r => decide (r.1 = i))).length))
  let clS := trimTo 4 (clOrder.map (fun i => cl.getD i 0))
  let head := [⟨4, 3⟩, ⟨litS.length - 257, 5⟩, ⟨distS.length - 1, 5⟩, ⟨clS.length - 4, 4⟩] ++ clS.map (fun l => ⟨l, 3⟩)
    ++ runs.map (fun r => let p := codeOf cl r.1; ⟨p.val + r.2.2 * 2 ^ p.w, p.w + r.2.1⟩)
  plainSteps at_ at_ 3 head ++ symSteps lit dist at_ 3 at_ b
    ++ plainSteps (at_ + sumNat (b.map Sym.covers)) at_ 3 [codeOf lit 256]

/-- A fixed block at image offset `at_`. -/
def fixedBlock (at_ : Nat) (b : List Sym) : List Step :=
  ⟨⟨2, 3⟩, at_, at_, 2, 0, none⟩ :: symSteps fixedLit fixedDist at_ 2 at_ b
    ++ plainSteps (at_ + sumNat (b.map Sym.covers)) at_ 2 [codeOf fixedLit 256]

/-- The padding from bit position `pos` to a whole byte. -/
def padBits (pos : Nat) : Nat := (8 - pos % 8) % 8

/-- A stored block at bit position `pos` and image offset `at_`. -/
def storedBlock (pos at_ : Nat) (raw : List Nat) : List Step :=
  plainSteps at_ at_ 1 [⟨0, 3⟩, ⟨0, padBits (pos + 3)⟩, ⟨raw.length, 16⟩, ⟨65535 - raw.length, 16⟩]
    ++ raw.mapIdx (fun i b => ⟨⟨b, 8⟩, at_ + i, at_, 1, 1, some (.lit b)⟩)

/-- The bits of a list of steps. -/
def bitsOf (l : List Step) : Nat := sumNat (l.map (fun s => s.piece.w))

/-- One DEFLATE block at bit position `pos`: the type that needs the fewest bits; on a tie fixed, then dynamic, then
stored (R231). -/
def deflateBlock (pos at_ : Nat) (b : List Sym) (raw : List Nat) : List Step :=
  let f := fixedBlock at_ b
  let y := dynamicBlock at_ b
  let s := storedBlock pos at_ raw
  if bitsOf f ≤ bitsOf y ∧ bitsOf f ≤ bitsOf s then f else if bitsOf y ≤ bitsOf s then y else s

/-- All blocks of a job from bit position `pos` and image offset `at_`. -/
def deflateBlocks : Nat → Nat → List (List Sym) → List Nat → List Step
  | _, _, [], _ => []
  | pos, at_, b :: r, raw =>
    let n := sumNat (b.map Sym.covers)
    let p := deflateBlock pos at_ b (raw.take n)
    p ++ deflateBlocks (pos + bitsOf p) (at_ + n) r (raw.drop n)

/-- The end of a job (R232): an empty stored block, or for the last of a group a final fixed block, aligned to a byte. -/
def jobEnd (pos : Nat) (groupEnd : Bool) : List Piece :=
  if groupEnd then [⟨3, 3⟩, ⟨0, 7⟩, ⟨0, padBits (pos + 10)⟩]
  else [⟨0, 3⟩, ⟨0, padBits (pos + 3)⟩, ⟨0, 16⟩, ⟨65535, 16⟩]

/-- The output of a job, step by step. -/
def jobSteps (effort : Nat) (window image : List Nat) (groupEnd : Bool) : List Step :=
  let body := deflateBlocks 0 0 (blocksOf (symbolsOf effort window image) 0 []) image
  body ++ plainSteps image.length image.length (if groupEnd then 2 else 1) (jobEnd (bitsOf body) groupEnd)

/-- The dynamic code lengths of the DEFLATE block that begins at image offset `at_`, literal/length 0 to 285 and then
distance 0 to 29 (Table 11.8). -/
def lengthsAt (at_ : Nat) : Nat → List (List Sym) → List Nat
  | _, [] => []
  | o, b :: r => if o = at_ then codeLengths 15 (litFreqs b) ++ distLengths b else lengthsAt at_ (o + sumNat (b.map Sym.covers)) r

/-- How many steps of a list go out into `room` bytes when `bits` are already there (R235). -/
def fittingSteps (room : Nat) : Nat → List Step → Nat
  | _, [] => 0
  | bits, s :: r => if ceilDiv (bits + s.piece.w) 8 ≤ room then fittingSteps room (bits + s.piece.w) r + 1 else 0

/-- The bits of the output after some steps, first bit lowest. -/
def packSteps : Nat → Nat → List Step → Nat
  | _, out, [] => out
  | bits, out, s :: r => packSteps (bits + s.piece.w) (out + s.piece.val * 2 ^ bits) r

/-! ### The transform (R228) -/

/-- Residuals of a list of samples, after the carried x1 = x[n−1] and x2 = x[n−2]. -/
def residuals : Int → Int → List Int → List Int
  | _, _, [] => []
  | x1, x2, x :: r => toSigned 16 (toUnsigned 16 (x - 2 * x1 + x2)) :: residuals x x1 r

/-- The inverse that a reader applies. -/
def inverseResiduals : Int → Int → List Int → List Int
  | _, _, [] => []
  | x1, x2, e :: r =>
    let x := toSigned 16 (toUnsigned 16 (e + 2 * x1 - x2))
    x :: inverseResiduals x x1 r

/-- Samples of a list of bytes, INTEGER16 little-endian. -/
def samplesOf : List Nat → List Int
  | a :: b :: r => toSigned 16 (a + 256 * b) :: samplesOf r
  | _ => []

/-- Samples as bytes. -/
def sampleBytes (l : List Int) : List Nat := l.flatMap (fun x => [toUnsigned 16 x % 256, toUnsigned 16 x / 256])

/-- The bytes of a byte string, lowest first. -/
def bytesList (b : Bytes) : List Nat := (leBytes b.len b.val).map BitVec.toNat
/-- A byte string from its bytes. -/
def ofList (l : List Nat) : Bytes := ⟨l.length, ofLeBytes (l.map (BitVec.ofNat 8))⟩

/-- The bytes that a job compresses: its image, with the sample plane transformed where the group's Transform is set. -/
def jobInput (j : Job) (transform : Bool) (x1 x2 : Int) : List Nat :=
  let b := bytesList j.image
  if !transform || decide (j.planeLen = 0) then b
  else
    b.take j.plane ++ sampleBytes (residuals x1 x2 (samplesOf ((b.drop j.plane).take j.planeLen)))
      ++ b.drop (j.plane + j.planeLen)

/-- The last two samples of a plane, after the carried ones: x[n−1] and x[n−2] for the next block. -/
def carriedAfter (x1 x2 : Int) : List Int → Int × Int
  | [] => (x1, x2)
  | x :: r => carriedAfter x x1 r

end Sys2Proof.Machine
end

