-- ==== Sys2Proof/Machine/Evidence.lean ====
section
/-! DEFINITION. The evidence path: streams and their blocks (R222 to R227), compressor jobs, suspension and abort (R232 to
R237). The hand-over of a job's output is in Store.lean. -/
namespace Sys2Proof.Machine

/-- The epoch tag of a unit (R87). -/
def unitTag (d : Dev) (u : Nat) : Nat :=
  match sfind d.dict.units u with
  | some x => x.tag
  | none => d.dict.epoch

/-- Stream s. -/
def streamOf (d : Dev) (s : Nat) : Option Stream := sfind d.ev.streams s
/-- The device with stream s changed. -/
def setStream (d : Dev) (s : Nat) (x : Stream) : Dev := { d with ev := { d.ev with streams := sput d.ev.streams s x } }
/-- The device with the job queue changed. -/
def setJobs (d : Dev) (l : List Job) : Dev := { d with ev := { d.ev with jobs := l } }

/-- The jobs of stream s, in queue order. -/
def jobsOf (d : Dev) (s : Nat) : List Job := d.ev.jobs.filter (fun j => decide (j.stream = s))

/-- Staging images in use by stream s (R224): its open blocks that were made, and its jobs. -/
def imagesUsed (d : Dev) (s : Nat) : Nat :=
  (jobsOf d s).length + ((streamOf d s).map (fun x => (x.blocks.filter EvBlock.made).length)).getD 0

/-- The first boundary of stream s after tick t, with blocks of `bt` ticks (R223). -/
def nextBoundary (s bt t : Nat) : Nat := t + bt - (t + bt - s % bt) % bt

/-- Whether tick t is a block boundary of stream s. -/
def isBoundary (s bt t : Nat) : Bool := decide (t % bt = s % bt)

/-- A loss in a block is carried by the first block made after it: among `l`, the blocks that follow it; the flag tells
whether one took it (R224). -/
def carryLoss (slots events : Nat) : List EvBlock → List EvBlock × Bool
  | [] => ([], false)
  | b :: r =>
    if b.made then
      ({ b with slotsLost := min 65535 (b.slotsLost + slots), eventsLost := min 65535 (b.eventsLost + events), lost := true } :: r, true)
    else
      let (r', ok) := carryLoss slots events r
      (b :: r', ok)

/-- A loss of slots or events in block number i of a stream's open blocks. -/
def loseAt (x : Stream) (i slots events : Nat) : Stream :=
  let (r, ok) := carryLoss slots events (x.blocks.drop (i + 1))
  let x := { x with blocks := x.blocks.take (i + 1) ++ r }
  if ok then x else { x with slotsLost := x.slotsLost + slots, eventsLost := x.eventsLost + events, lost := true }

/-- Bytes of an event record. -/
def EvEvent.size (e : EvEvent) : Nat := 16 + e.body.len

/-- Put an event into block number i, or refuse it (R224, R226). -/
def putEvent (d : Dev) (s i : Nat) (e : EvEvent) : Dev :=
  match streamOf d s with
  | none => d
  | some x =>
    match x.blocks[i]? with
    | none => d
    | some b =>
      if !b.made || decide (ogetN d Obj.eventAreaBytes 0 0 < b.eventBytes + e.size) then
        bump (setStream d s (loseAt x i 0 1)) Obj.eventsRefused s 0
      else
        let b := { b with events := b.events ++ [e], eventBytes := b.eventBytes + e.size }
        bump (setStream d s { x with blocks := x.blocks.set i b }) Obj.eventsRecorded s 0

/-- Whether block b covers tick t. -/
def EvBlock.covers (b : EvBlock) (t : Nat) : Bool := decide (b.first ≤ t) && b.last.all (fun l => decide (t ≤ l))

/-- An event of stream s that concerns tick t (R226): to the open block that holds the tick; to the one being filled, as
LATE, where that block has closed. -/
def offerEvent (d : Dev) (s tick kind seq offset : Nat) (body : Bytes) : Dev :=
  match streamOf d s with
  | none => d
  | some x =>
    let d := bump d Obj.eventsOffered s 0
    let e : EvEvent := { late := false, tick := tick, kind := kind, seq := seq, offset := offset, body := body }
    match x.blocks.findIdx? (fun b => b.covers tick) with
    | some i => putEvent d s i e
    | none =>
      let i := x.blocks.length - 1
      let late := (x.blocks[i]?).any (fun b => decide (tick < b.first))
      putEvent d s i { e with late := late }

/-- A block of stream s starts at tick t with blocks of `bt` ticks; it is made where a staging image is free (R224).
Whether it is a RESTART block, which takes up the stream's Transform, is settled here (R228, R232). -/
def startBlock (d : Dev) (s t bt : Nat) : Dev :=
  match streamOf d s with
  | none => d
  | some x =>
    let made := decide (imagesUsed d s < ogetN d Obj.stagingBlocks 0 0)
    let last := nextBoundary s bt t - 1
    let restart := decide (x.nextIndex % ogetN d Obj.restartBlocks 0 0 = 0)
    let tr := if restart then decide (x.kind = 1) && ogetB d Obj.streamTransform s 0 else x.transform
    let b : EvBlock :=
      { first := t, last := some last, made := made, index := if made then x.nextIndex else 0, slots := [], captures := [],
        events := [], eventBytes := 0, tag := if x.kind = 2 then unitTag d 3 else 0, final := false,
        restart := made && restart, transform := made && tr,
        slotsLost := if made then min 65535 x.slotsLost else 0, eventsLost := if made then min 65535 x.eventsLost else 0,
        lost := made && x.lost }
    let x := { x with blocks := x.blocks ++ [b], blockTicks := bt }
    if made then setStream d s { x with nextIndex := x.nextIndex + 1, slotsLost := 0, eventsLost := 0, lost := false, transform := tr }
    else bump (setStream d s { x with lost := true }) Obj.blocksNotMade 0 0

/-- A compression context with no history. -/
def CompCtx.fresh : CompCtx :=
  { window := [], wpos := 0, started := false, effort := 1, transform := false, x1 := 0, x2 := 0, words := 0, bits := 0, output := 0,
    jobState := 0 }

/-- The counters of a stream (Table 11.10). -/
def streamCounters : List Row :=
  [Obj.slotsReceived, Obj.slotsRefused, Obj.captureFrames, Obj.captureRefused, Obj.eventsOffered, Obj.eventsRecorded,
   Obj.eventsRefused, Obj.streamInputBytes, Obj.streamOutputBytes]

/-- The counters of stream s are read as they are now, at a block close, until the next one (R238). -/
def noteStream (d : Dev) (s : Nat) : Dev :=
  { d with ev := { d.ev with shown := streamCounters.foldl (fun m r => sput m (r.key s 0) (oget d r s 0)) d.ev.shown } }

/-- The counters of a stream restart from zero when it opens (R238). -/
def clearStreamCounters (d : Dev) (s : Nat) : Dev := noteStream (streamCounters.foldl (fun d r => oset d r s 0 0) d) s

/-- Stream s opens at tick t (R222) with its first block. -/
def openStream (d : Dev) (s kind source slotSamples t : Nat) : Dev :=
  let bt := ogetN d Obj.blockTicks 0 0
  let x : Stream :=
    { kind := kind, state := 1, source := source, slotSamples := slotSamples, openTick := t, nextIndex := 0, blocks := [],
      blockTicks := bt, lastTag := if kind = 2 then some (unitTag d 3) else none, slotsLost := 0, eventsLost := 0,
      lost := false, transform := false, group := 0, ctx := CompCtx.fresh }
  let d := if kind = 1 then oset (oset d Obj.streamEffort s 0 (oget d Obj.defaultEffort 0 0)) Obj.streamTransform s 0 (oget d Obj.defaultTransform 0 0) else d
  startBlock (setStream (clearStreamCounters d s) s x) s t bt

/-- Whether stream s is free (R222). -/
def streamFree (d : Dev) (s : Nat) : Bool := !shas d.ev.streams s

/-! ### The block image (R225) -/

/-- One event goes before another (R226). -/
def EvEvent.before (a b : EvEvent) : Bool :=
  if a.late ≠ b.late then !a.late
  else if a.tick ≠ b.tick then decide (a.tick < b.tick)
  else if a.kind ≠ b.kind then decide (a.kind < b.kind)
  else decide (a.seq < b.seq)

/-- An event placed after those that do not go after it. -/
def insertEvent (e : EvEvent) : List EvEvent → List EvEvent
  | [] => [e]
  | x :: r => if e.before x then e :: x :: r else x :: insertEvent e r

/-- The event records of a block, in order. -/
def sortEvents (l : List EvEvent) : List EvEvent := l.foldl (fun acc e => insertEvent e acc) []

/-- An event record (Table 11.3). -/
def EvEvent.record (e : EvEvent) : Bytes :=
  let h := setF (setF (setF (setF (setF 0 EventHdr.tick e.tick) EventHdr.kind e.kind) EventHdr.bodyLength e.body.len)
    EventHdr.sampleOffset e.offset) EventHdr.late (b2n e.late)
  catBytes (bytesOf 16 h) e.body

/-- Ticks that a block covers. -/
def EvBlock.ticks (b : EvBlock) : Nat := b.last.getD b.first + 1 - b.first

/-- The logical image of a closed block of stream s. -/
def blockImage (s : Nat) (x : Stream) (b : EvBlock) : Bytes :=
  let p := setF (setF (setF (setF 0 Preamble.firstTick b.first) Preamble.stream s) Preamble.blockIndex b.index)
    Preamble.tickCount b.ticks
  let p := setF (setF (setF (setF p Preamble.slotSamples x.slotSamples) Preamble.lostBefore (b2n b.lost))
    Preamble.capture (b2n (decide (x.kind = 2)))) Preamble.final (b2n b.final)
  let p := setF (setF (setF (setF p Preamble.transform (b2n b.transform)) Preamble.restart (b2n b.restart))
    Preamble.eventBytes b.eventBytes) Preamble.epochTag b.tag
  let p := setF (setF p Preamble.slotsLost b.slotsLost) Preamble.eventsLost b.eventsLost
  let plane := b.slots.flatMap (fun k => k.samples.map (fun v => bytesOf 2 (toUnsigned 16 v)))
  joinBytes ([bytesOf 32 p] ++ b.slots.map (fun k => bytesOf 1 k.map) ++ plane ++ b.captures
    ++ (sortEvents b.events).map EvEvent.record)

/-- Whether block b is the last of its group (R232): the stream's final one, or the one before a RESTART block, which is
the first made block of `r` that follow it, or else the next to be made. -/
def endsGroup (d : Dev) (b : EvBlock) (r : List EvBlock) : Bool :=
  b.final || ((r.find? EvBlock.made).map EvBlock.restart).getD (decide ((b.index + 1) % ogetN d Obj.restartBlocks 0 0 = 0))

/-- The oldest open block of stream s closes and becomes a job, where it was made (R223, R233). -/
def closeOldest (d : Dev) (s : Nat) : Dev :=
  match streamOf d s with
  | none => d
  | some x =>
    match x.blocks with
    | [] => d
    | b :: r =>
      let d := noteStream d s
      if !b.made then setStream d s { x with blocks := r }
      else
        let chan := decide (x.kind = 1)
        let group := if b.restart then b.index else x.group
        let j : Job :=
          { stream := s, index := b.index, image := blockImage s x b, final := b.final,
            groupEnd := endsGroup d b r, lost := b.lost, group := group, first := b.first, ticks := b.ticks,
            plane := 32 + b.ticks, planeLen := if chan then b.ticks * x.slotSamples * 2 else 0, granted := 0, state := 1 }
        setJobs (setStream d s { x with blocks := r, group := group }) (d.ev.jobs ++ [j])

/-- A closing stream is free once no block and no job of it is left (R222). -/
def freeStream (d : Dev) (s : Nat) : Dev :=
  match streamOf d s with
  | some x =>
    if x.state = 2 && x.blocks.isEmpty && (jobsOf d s).isEmpty then { d with ev := { d.ev with streams := serase d.ev.streams s } } else d
  | none => d

/-- A block that began at the close tick itself holds no tick: it is undone, and the block before it is the final one. -/
def undoEmpty (d : Dev) (s t : Nat) : Dev :=
  match streamOf d s with
  | none => d
  | some x =>
    let i := x.blocks.length - 1
    match x.blocks[i]?, x.blocks[i - 1]? with
    | some b, some p =>
      if i = 0 ∨ b.first ≠ t ∨ !p.made then d
      else
        let p := { p with events := p.events ++ b.events, eventBytes := p.eventBytes + b.eventBytes }
        let x := { x with blocks := (x.blocks.take i).set (i - 1) p }
        if b.made then
          setStream d s { x with nextIndex := x.nextIndex - 1, slotsLost := b.slotsLost, eventsLost := b.eventsLost, lost := b.lost }
        else bumpBy (setStream d s x) Obj.blocksNotMade 0 0 (-1)
    | _, _ => d

/-- A stream's blocks end: the one being filled ends at the tick before t and is FINAL (R223). -/
def endStream (d : Dev) (s t : Nat) : Dev :=
  let d := undoEmpty d s t
  match streamOf d s with
  | none => d
  | some x =>
    let i := x.blocks.length - 1
    let blocks := x.blocks.mapIdx (fun k b => if k = i then { b with last := some (t - 1), final := true } else b)
    setStream d s { x with state := 2, blocks := blocks }

/-- Every open block of stream s closes, oldest first. -/
def closeAll (d : Dev) (s : Nat) : Dev :=
  let n := ((streamOf d s).map (fun x => x.blocks.length)).getD 0
  freeStream ((List.range n).foldl (fun d _ => closeOldest d s) d) s

/-- Whether the oldest open block of stream s is to close now (R223): a channel block 8 ticks after its last tick, after
the seal of its last slot; a capture block after its last tick; a final block at once. -/
def closeDue (d : Dev) (x : Stream) : Bool :=
  match x.blocks with
  | [] => false
  | b :: _ =>
    let last := b.last.getD b.first
    if x.kind = 2 then decide (last < curTick d)
    else b.final || decide (last + 8 ≤ curTick d)

/-- EVIDENCE_BLOCK_CLOSE: the oldest block of stream s closes where it is due. -/
def evidenceBlockClose (s : Nat) (d : Dev) : Dev :=
  match streamOf d s with
  | none => d
  | some x => if closeDue d x then freeStream (closeOldest d s) s else d

/-- Every block that is due closes at the start of a tick (R223). -/
def closeBlocks (d : Dev) : Dev := (skeys d.ev.streams).foldl (fun d s => evidenceBlockClose s d) d

/-- Bytes of the block images in use: those of jobs, and of blocks that are being filled (R224, R225). -/
def stagingUsed (d : Dev) : Nat :=
  let open_ := fun (x : Stream) => sumNat ((x.blocks.filter EvBlock.made).map (fun b =>
    32 + sumNat (b.slots.map (fun k => 1 + 2 * k.samples.length)) + sumNat (b.captures.map Bytes.len) + b.eventBytes))
  sumNat (d.ev.jobs.map (fun j => j.image.len)) + sumNat (d.ev.streams.map (fun p => open_ p.2))

/-! ### What is handed to a stream -/

/-- A sealed slot of tick t is handed to stream s (R203): the flag tells whether it was accepted. -/
def offerSlot (d : Dev) (s tick src : Nat) (poison : Bool) (tag : Nat) (samples : List Int) : Dev × Bool :=
  match streamOf d s with
  | none => (d, false)
  | some x =>
    let old := x.lastTag
    let change := old.any (fun o => decide (o ≠ tag))
    let d := setStream d s { x with lastTag := some tag }
    let d := if change then offerEvent d s tick 1 0 0 (bytesOf 8 (old.getD 0 + tag * 2 ^ 32)) else d
    match streamOf d s with
    | none => (d, false)
    | some x =>
      let i := x.blocks.findIdx? (fun b => b.covers tick)
      match i, i.bind (fun k => x.blocks[k]?) with
      | some i, some b =>
        if !b.made then (bump (setStream d s (loseAt x i 1 0)) Obj.slotsRefused s 0, false)
        else
          let m := setF (setF (setF (setF 0 SlotMap.source src) SlotMap.poison (b2n poison)) SlotMap.epochChange (b2n change))
            SlotMap.discontinuity (b2n (d.ev.discos.contains tick))
          let k : EvSlot := { map := m, samples := if poison then samples.map (fun _ => 0) else samples }
          let b := { b with slots := b.slots ++ [k], tag := if b.slots.isEmpty then tag else b.tag }
          (bump (setStream d s { x with blocks := x.blocks.set i b }) Obj.slotsReceived s 0, true)
      | _, _ => (bump d Obj.slotsRefused s 0, false)

/-- Bytes of a capture block's image so far. -/
def EvBlock.captureBytes (b : EvBlock) : Nat := 32 + sumNat (b.captures.map Bytes.len) + b.eventBytes

/-- A capture record joins the block that stream s is filling, or is refused with it. -/
def addCapture (d : Dev) (s : Nat) (r : Bytes) : Dev × Bool :=
  match streamOf d s with
  | none => (d, false)
  | some x =>
    let i := x.blocks.length - 1
    match x.blocks[i]? with
    | none => (bump d Obj.captureRefused s 0, false)
    | some b =>
      if !b.made then (bump (setStream d s (loseAt x i 1 0)) Obj.captureRefused s 0, false)
      else (bump (setStream d s { x with blocks := x.blocks.set i { b with captures := b.captures ++ [r] } }) Obj.captureFrames s 0, true)

/-- A copy for capture stream s (R55, R223): a block that it would take beyond CaptureBlockLimit closes first. -/
def offerCapture (d : Dev) (s : Nat) (r : Bytes) : Dev × Bool :=
  match streamOf d s with
  | none => (d, false)
  | some x =>
    if x.kind ≠ 2 ∨ x.state ≠ 1 then (d, false)
    else
      let i := x.blocks.length - 1
      let full := (x.blocks[i]?).any (fun b => b.made && decide (ogetN d Obj.captureBlockLimit 0 0 < b.captureBytes + r.len))
      if full then
        let t := curTick d
        let d := setStream d s { x with blocks := x.blocks.mapIdx (fun k b => if k = i then { b with last := some t } else b) }
        let d := (List.range (i + 1)).foldl (fun d _ => closeOldest d s) d
        addCapture (startBlock d s t x.blockTicks) s r
      else addCapture d s r

/-- The evidence path at the start of tick n, after the epoch: blocks begin at their boundaries, a re-anchor is an event
in every open stream, and capture streams record a new tag of unit 3 (R223, R226). -/
def evidenceTick (d : Dev) (n : Nat) (reanchored : Bool) (offset : Int) : Dev :=
  let bt := d.ev.cut
  let d := if reanchored then { d with ev := { d.ev with discos := (n :: d.ev.discos).take 16 } } else d
  let step := fun (d : Dev) (s : Nat) =>
    match streamOf d s with
    | none => d
    | some x =>
      let d := if x.state = 1 && decide (x.openTick < n) && isBoundary s x.blockTicks n then startBlock d s n bt else d
      let tag := unitTag d 3
      let d := if x.kind = 2 && x.lastTag.any (fun o => decide (o ≠ tag)) then
          offerEvent (match streamOf d s with
            | some x => setStream d s { x with lastTag := some tag }
            | none => d) s n 1 0 0 (bytesOf 8 (x.lastTag.getD 0 + tag * 2 ^ 32)) else d
      if reanchored then
        let body := secondsOf d.time.net + nanosOf d.time.net * 2 ^ 64 + d.time.gen * 2 ^ 96 + toUnsigned 64 offset * 2 ^ 128
        offerEvent d s n 2 0 0 (bytesOf 24 body)
      else d
  let d := (skeys d.ev.streams).foldl step d
  { d with ev := { d.ev with cut := ogetN d Obj.blockTicks 0 0 } }

/-! ### Jobs (R233 to R237) -/

/-- Unit c. -/
def compUnit (d : Dev) (c : Nat) : CompUnit := sget d.ev.units c { state := 0, stream := none }
/-- The device with unit c changed; where it takes a job or loses one, UnitBusy accounts for it. -/
def setUnit (d : Dev) (c : Nat) (u : CompUnit) : Dev :=
  let on := (compUnit d c).stream.isSome
  let busy := if on = u.stream.isSome then d.ev.busy else sput d.ev.busy c (unitBusyOf d c on)
  { d with ev := { d.ev with units := sput d.ev.units c u, busy := busy } }

/-- Whether a job can be taken: queued or suspended by abort, with no other job of its stream running or suspended. -/
def eligible (l : List Job) (j : Job) : Bool :=
  (decide (j.state = 1) || decide (j.state = 4)) &&
    !l.any (fun k => decide (k.stream = j.stream) && decide (k.index ≠ j.index) && decide (2 ≤ k.state))

/-- The first job of a stream that is running, suspended or queued, changed. -/
def onJob (d : Dev) (s idx : Nat) (f : Job → Job) : Dev :=
  setJobs d (d.ev.jobs.map (fun j => if j.stream = s ∧ j.index = idx then f j else j))

/-- COMPRESSOR_JOB_START: free unit c takes the oldest eligible job and restores its context (R233). -/
def compressorJobStart (c : Nat) (d : Dev) : Dev :=
  if compressorsOf d ≤ c ∨ (compUnit d c).state ≠ 0 ∨ !isReady d then d
  else
    match d.ev.jobs.find? (eligible d.ev.jobs) with
    | none => d
    | some j =>
      match streamOf d j.stream with
      | none => d
      | some x =>
        let base := if getF j.image.val Preamble.restart = 1 then CompCtx.fresh else x.ctx
        let ctx := if x.ctx.started then x.ctx else
          { base with started := true, effort := ogetN d Obj.streamEffort j.stream 0, transform := decide (getF j.image.val Preamble.transform = 1) }
        let d := setStream d j.stream { x with ctx := ctx }
        setUnit (onJob d j.stream j.index (fun j => { j with state := 2 })) c { state := 2, stream := some j.stream }

/-- The job that unit c runs, with its stream. -/
def runningJob (d : Dev) (c : Nat) : Option (Job × Stream) :=
  match (compUnit d c).stream with
  | none => none
  | some s =>
    match (jobsOf d s).find? (fun j => decide (j.state = 2)), streamOf d s with
    | some j, some x => some (j, x)
    | _, _ => none

/-- The steps of a job under its context. -/
def stepsOf (j : Job) (x : CompCtx) : List Step := jobSteps x.effort x.window (jobInput j x.transform x.x1 x.x2) j.groupEnd

/-- The steps that a running job has room for. -/
def roomSteps (j : Job) (x : CompCtx) : Nat := fittingSteps j.granted x.bits ((stepsOf j x).drop x.words)

/-- A context after `n` more steps. -/
def emitSteps (j : Job) (x : CompCtx) (n state : Nat) : CompCtx :=
  let l := ((stepsOf j x).drop x.words).take n
  { x with words := x.words + n, bits := x.bits + bitsOf l, output := packSteps x.bits x.output l, jobState := state }

/-- What unit c has written and consumed between two contexts of a job. -/
def countUnit (d : Dev) (c : Nat) (old new : CompCtx) : Dev := bumpBy d Obj.unitOutputBytes c 0 (new.bits / 8 - old.bits / 8 : Nat)

/-- Unit c is free. -/
def idleUnit (d : Dev) (c : Nat) : Dev := setUnit d c { state := 0, stream := none }

/-- COMPRESSOR_JOB_SUSPEND: the next code word of unit c's job does not fit, and the job suspends with its context saved
(R236). -/
def compressorJobSuspend (c : Nat) (d : Dev) : Dev :=
  match runningJob d c with
  | none => d
  | some (j, x) =>
    let n := roomSteps j x.ctx
    if (stepsOf j x.ctx).length ≤ x.ctx.words + n then d
    else
      let y := emitSteps j x.ctx n 1
      let d := onJob (setStream d j.stream { x with ctx := y }) j.stream j.index (fun j => { j with state := 3 })
      bump (countUnit (idleUnit d c) c x.ctx y) Obj.suspensions 0 0

/-- UNIT_ABORT: UnitCommand 1 of unit c. Its job's context is saved with JobState 2 and the job goes to the tail of the
queue (R237); how far the emitting pass had come is a free value. -/
def unitAbort (c : Nat) (d : Dev) : Dev :=
  if 4 ≤ c then refuse d 0x06020000
  else if compressorsOf d ≤ c then refuse d abortState
  else
    let d := accept d
    match runningJob d c with
    | none => d
    | some (j, x) =>
      let (k, d) := freshNat d
      let n := k % (roomSteps j x.ctx + 1)
      let y := emitSteps j x.ctx n 2
      let d := setStream d j.stream { x with ctx := y }
      let same := fun (k : Job) => decide (k.stream = j.stream) && decide (k.index = j.index)
      let d := setJobs d (d.ev.jobs.filter (fun k => !same k) ++ [{ j with state := 4 }])
      bump (countUnit (idleUnit d c) c x.ctx y) Obj.aborts 0 0

/-- The block reset of unit c ends a job that it ran: the job restarts from its last saved context (R237). -/
def restartJob (d : Dev) (c : Nat) : Dev :=
  match runningJob d c with
  | none => d
  | some (j, _) => bump (onJob d j.stream j.index (fun j => { j with state := 1 })) Obj.jobRestarts 0 0

/-- A page of output space goes to the job of stream s that runs, is suspended or is first in the queue; a job suspended
for output returns to the head of the queue (R236). -/
def grantPage (d : Dev) (s : Nat) : Dev :=
  let l := jobsOf d s
  let pick := match l.find? (fun j => decide (2 ≤ j.state)) with
    | some j => some j
    | none => l.head?
  match pick with
  | none => d
  | some j =>
    let j' := { j with granted := j.granted + 4096, state := if j.state = 3 then 1 else j.state }
    let same := fun (k : Job) => decide (k.stream = j.stream) && decide (k.index = j.index)
    if j.state = 3 then setJobs d (j' :: d.ev.jobs.filter (fun k => !same k))
    else onJob d j.stream j.index (fun _ => j')

/-- The context of a stream once its job is done: window, carried samples (R228, R229). -/
def ctxAfter (j : Job) (x : CompCtx) : CompCtx :=
  let inp := jobInput j x.transform x.x1 x.x2
  let all := x.window ++ inp
  let plane := samplesOf (((bytesList j.image).drop j.plane).take j.planeLen)
  let (a, b) := carriedAfter x.x1 x.x2 plane
  { x with window := all.drop (all.length - 32768), wpos := (x.wpos + inp.length) % 32768, started := false, x1 := a, x2 := b,
           words := 0, bits := 0, output := 0, jobState := 0 }

/-! ### The saved context as an engine reads it (Table 11.8) -/

/-- The circular window: offset `i` of 32,768 bytes whose next write offset is `pos`, from the bytes oldest first. -/
def windowByte (bytes : List Nat) (pos i : Nat) : Nat :=
  let age := (pos + 32767 - i) % 32768
  if age < bytes.length then bytes.getD (bytes.length - 1 - age) 0 else 0

/-- The 33,792 bytes saved for stream s, as the last save left them. -/
def contextRecord (d : Dev) (s : Nat) : Nat :=
  match streamOf d s with
  | none => setF (setF (setF 0 CompRec.stream s) CompRec.effort 1) CompRec.transform 1
  | some x =>
    let c := x.ctx
    let j := (jobsOf d s).head?
    let busy := c.started && decide (c.jobState ≠ 0)
    let inp := match j with
      | some j => if busy then jobInput j c.transform c.x1 c.x2 else []
      | none => []
    let next := match j with
      | some j => if busy then ((stepsOf j c).drop c.words).head? else none
      | none => none
    let used := (next.map Step.inp).getD 0
    let all := c.window ++ inp.take used
    let win := all.drop (all.length - 32768)
    let pos := (c.wpos + used) % 32768
    let kind := (next.map Step.kind).getD 0
    let v := setF (setF (setF 0 CompRec.stream s) CompRec.blockIndex ((j.map Job.index).getD x.nextIndex)) CompRec.inputOffset used
    let v := setF (setF (setF v CompRec.deflateBlockStart ((next.map Step.blk).getD 0)) CompRec.outputBytes (c.bits / 8))
      CompRec.windowFill win.length
    let v := setF (setF (setF v CompRec.windowPosition pos) CompRec.bitAccumulator (c.output / 2 ^ (c.bits / 8 * 8)))
      CompRec.bitCount (c.bits % 8)
    let v := setF (setF (setF v CompRec.pendingKind kind) CompRec.blockType ((next.map Step.ty).getD 0)) CompRec.pass (if busy then 2 else 0)
    let v := setF (setF (setF v CompRec.effort c.effort) CompRec.transform (b2n c.transform)) CompRec.jobState c.jobState
    let lens := if busy ∧ (next.map Step.ty) = some 3 then
        lengthsAt ((next.map Step.blk).getD 0) 0 (blocksOf (symbolsOf c.effort c.window inp) 0 []) else []
    let v := setF v CompRec.codeLengths (lens.foldr (fun l n => l + 16 * n) 0)
    let v := match next.bind Step.sym with
      | some (.lit b) => setF v CompRec.pendingLiteral b
      | some (.copy l x) => setF (setF v CompRec.pendingLength l) CompRec.pendingDistance x
      | none => v
    let v := setF (setF v CompRec.transformX1 (toUnsigned 16 c.x1)) CompRec.transformX2 (toUnsigned 16 c.x2)
    v + ofLeBytes ((List.range 32768).map (fun i => BitVec.ofNat 8 (windowByte win pos i))) * 2 ^ 8192

end Sys2Proof.Machine
end

