-- ==== Sys2Proof/Machine/Regions.lean ====
section
/-! DEFINITION. What a reader of DRAM finds in regions that device blocks write: saved compression contexts (R234), thread
control blocks and saved thread contexts (R141, R167), and the fault log ring (R302). -/
namespace Sys2Proof.Machine

/-- The top of trained DRAM (R146). -/
def dramTop (d : Dev) : Nat := 0x10000000000 + d.start.dramGiB * 2 ^ 30
/-- FaultRingBase: the lowest address of the top 4 MiB of trained DRAM (R302). -/
def faultRing (d : Dev) : Nat := dramTop d - 0x400000

/-- A fault log entry as its 48 bytes (Table 15.5). -/
def LogEntry.record (e : LogEntry) : Nat :=
  let v := setF (setF (setF (setF 0 LogRec.sequence e.seq) LogRec.causeSequence e.cause) LogRec.tick e.tick) LogRec.tickOffset e.off
  let v := setF (setF (setF (setF v LogRec.lastTickDelta (e.lastTick - e.tick)) LogRec.detail e.detail) LogRec.code e.code) LogRec.inst e.inst
  let v := setF (setF (setF v LogRec.coalesced e.coalesced) LogRec.consequential (b2n e.conseq)) LogRec.escalated (b2n e.escal)
  setF (setF v LogRec.lostBefore (b2n e.lostBefore)) LogRec.classF e.cls

/-- The ring entry in place i: entry n copied to the ring stands in place n modulo 65,536. -/
def ringEntry (d : Dev) (i : Nat) : Nat :=
  let held := d.faults.ring.length
  let copied := held + ogetN d Obj.ringOverwritten 0 0
  let age := (copied + 65535 - i) % 65536
  match d.faults.ring[age]? with
  | some e => if age < held then e.record else 0
  | none => 0

/-- The byte at an address of a DRAM region that a device block writes, where the spec says what the block keeps there. -/
def ownedByte (d : Dev) (a : Nat) : Option Nat :=
  if 0x100E0000000 ≤ a ∧ a < 0x10164000000 then
    some (sliceBytes (contextRecord d ((a - 0x100E0000000) / 33792)) ((a - 0x100E0000000) % 33792) 1)
  else if 0x10364000000 ≤ a ∧ a < 0x1036C000000 then stokerByte d (a - 0x10364000000)
  else if faultRing d ≤ a ∧ a < faultRing d + 65536 * 48 then
    some (sliceBytes (ringEntry d ((a - faultRing d) / 48)) ((a - faultRing d) % 48) 1)
  else none

/-- A little-endian run of such bytes, where every one of them is known. -/
def ownedRun (d : Dev) (a : Nat) : Nat → Option Nat
  | 0 => some 0
  | n + 1 =>
    match ownedByte d a, ownedRun d (a + 1) n with
    | some b, some v => some (b + 256 * v)
    | _, _ => none

end Sys2Proof.Machine
end

