-- ==== Sys2Proof/Machine/EngineExternal.lean ====
section
/-! DEFINITION. What an engine reaches outside its local memory: the address map (R144 to R146), device control space,
outstanding operations and the order in which they are performed (R147 to R151), copies (R121), the firmware's fault
reports and heartbeat (R297, R306). -/
namespace Sys2Proof.Machine

/-! ### The address map -/

/-- Where an external address leads (Table 7.1). -/
inductive Home where
  | code (h off : Nat)          -- the code store of hearth h
  | mem (addr : Nat)            -- shared memory, at its address with the own-hearthstone alias resolved
  | endpoint (off : Nat)        -- the endpoint table
  | device (addr : Nat)         -- device control space
  | oaSlot (off : Nat)          -- the ordered-accumulate result window
  | owned (addr : Nat)          -- a DRAM region that a device block writes and an engine may read
  | none
  deriving DecidableEq, Repr

/-- What an access does to its address. -/
inductive XUse where
  | load | store | atomic | copyIn | copyOut
  deriving DecidableEq, Repr

/-- Whether the use only reads. -/
def XUse.reads : XUse → Bool
  | .load => true
  | .copyIn => true
  | _ => false

/-- The home of an address of HEARTH_h's hearthstone. -/
def hearthHome (d : Dev) (h off : Nat) : Home :=
  if hearthsOf d ≤ h then .none
  else if off < 0x100000 then .code h off
  else .mem (0x20000000 + h * 0x400000 + off)

/-- The home of an address issued by engine e (Table 7.1). -/
def homeOf (d : Dev) (e a : Nat) : Home :=
  if 0x10000000 ≤ a ∧ a < 0x10400000 then hearthHome d (e / 16) (a - 0x10000000)
  else if 0x20000000 ≤ a ∧ a < 0x20000000 + 12 * 0x400000 then
    hearthHome d ((a - 0x20000000) / 0x400000) ((a - 0x20000000) % 0x400000)
  else if 0x40000000 ≤ a ∧ a < 0x45000000 then .device a
  else if 0x48000000 ≤ a ∧ a < 0x50000000 then .oaSlot (a - 0x48000000)
  else if a < 0x10000000000 ∨ dramTop d ≤ a then .none
  else if a < 0x10020000000 then .endpoint (a - 0x10000000000)
  else if a < 0x100E0000000 then .mem a
  else if a < 0x1036E000000 then .owned a
  else if a < 0x10370000000 then .none
  else if a < 0x103B0000000 then .owned a
  else if a < faultRing d then .mem a
  else .owned a

/-- Whether a home takes a use (Table 7.1, R138, R145). -/
def homeTakes : Home → XUse → Bool
  | .code _ _, u => u.reads
  | .mem _, _ => true
  | .endpoint _, u => u.reads
  | .device _, u => decide (u ≠ .atomic)
  | .oaSlot _, u => u.reads
  | .owned _, u => u.reads
  | .none, _ => false

/-- Whether an access of `n` bytes is mapped: its first and last byte are (R145); regions end on 16-byte boundaries. -/
def mapped (d : Dev) (e a n : Nat) (u : XUse) : Bool := homeTakes (homeOf d e a) u && homeTakes (homeOf d e (a + n - 1)) u

/-! ### Reports and heartbeat -/

/-- A store of 16 bytes to the report port (R297). -/
def reportPort (d : Dev) (v : Nat) : Dev :=
  let code := bitsAt v 0 16
  let inst := bitsAt v 16 24
  let detail := bitsAt v 64 32
  if bitsAt v 40 24 ≠ 0 ∨ bitsAt v 96 32 ≠ 0 ∨ code < 0x7000 ∨ 0x7300 ≤ code then bump d Obj.reportsMalformed 0 0
  else
    let cls := (code - 0x7000) / 256
    let d := report d cls code inst detail
    if cls = 2 ∧ bitSet detail 31 = false then isolateChannel d inst else d

/-- A store of `v` to the heartbeat address (R306): the next count arms the watch and keeps PILOT running; the first one
after Ready makes the start succeed (R323). -/
def heartbeat (d : Dev) (v : Nat) : Dev :=
  let n := ogetN d Obj.heartbeatCount 0 0
  if v ≠ n + 1 then bump d Obj.heartbeatBadValue 0 0
  else
    let d := oset d Obj.heartbeatCount 0 0 v
    if !isReady d then d
    else
      let late := d.faults.hbLost.isSome
      let f := { d.faults with hbArmed := true, hbLast := now d, hbLost := none, pilot := 1 }
      let r := { d.start.retention with warm := 0, cold := 0 }
      let d := { d with faults := f, start := { d.start with retention := r } }
      if late then report d 0 0x0C01 0 0 else d

/-- A half of a command record stored to the port of hearth h's slice; the command is taken when both halves have come
(R178). -/
def stokerPort (d : Dev) (h : Nat) (high : Bool) (v : Nat) : Dev :=
  let (lo, hi) := sget d.stk.port h (none, none)
  let (lo, hi) := if high then (lo, some v) else (some v, hi)
  match lo, hi with
  | some a, some b =>
    let rec_ := a % 2 ^ 128 + b * 2 ^ 128
    stokerCommand { d with stk := { d.stk with port := serase d.stk.port h } } (some h) (bitsAt rec_ 0 8) (stokerRecOf rec_)
  | _, _ => { d with stk := { d.stk with port := sput d.stk.port h (lo, hi) } }

/-- What a store of `n` bytes to device control space does (Table 7.2, R178, R297, R306). At an offset where the spec
places nothing it has no effect. -/
def deviceStore (d : Dev) (a n v : Nat) : Dev :=
  if a = 0x44000000 ∧ n = 16 then reportPort d v
  else if a = 0x44000100 then heartbeat d v
  else if 0x41000000 ≤ a ∧ a < 0x42000000 ∧ n = 16 then
    let h := (a - 0x41000000) / 0x100000
    let off := (a - 0x41000000) % 0x100000
    if h < hearthsOf d ∧ off = 0 then stokerPort d h false v
    else if h < hearthsOf d ∧ off = 16 then stokerPort d h true v
    else d
  else d

/-- What a load from device control space returns: CommandResult of a slice at offset 0x20 of its port (R178), and a free
value elsewhere. -/
def deviceLoad (d : Dev) (a n : Nat) : Nat × Dev :=
  if 0x41000000 ≤ a ∧ a < 0x42000000 ∧ (a - 0x41000000) % 0x100000 = 0x20 then
    (sget d.stk.resultH ((a - 0x41000000) / 0x100000) 0 % 2 ^ (8 * n), d)
  else
    let (v, d) := freshNat d
    (v % 2 ^ (8 * n), d)

/-! ### Reads and writes at a home -/

/-- The round that owns slot i of a context: the newest opened round that maps to it, where one has opened (R165). -/
def slotOwner (d : Dev) (i : Nat) : Option Nat :=
  let newest := curTick d + 7
  if newest < i % 32 then none else some (newest - (newest - i % 32) % 32)

/-- Whether a read of slot i of context n must wait: the round that owns it is open (R165). A round in which the context takes no part
closes nothing. -/
def slotOpen (d : Dev) (n i : Nat) : Bool :=
  (slotOwner d i).any (fun r => oaTakesPart d n r && !shas (oaOf d n).results r)

/-- A read of the result window; none while it must wait. The slot shows the last round closed into it, and zero before the first
(Table 7.7). -/
def oaLoad (d : Dev) (off n : Nat) : Option (Nat × Bool) :=
  let ctx := off / 8192
  let i := off / 256 % 32
  if slotOpen d ctx i then none
  else
    match (oaOf d ctx).results.find? (fun x => decide (x.1 % 32 = i)) with
    | some x => some (sliceBytes x.2.slot (off % 256) n, x.2.poison)
    | none => some (0, false)

/-- A little-endian run of code store bytes. -/
def codeRead (digest a : Nat) : Nat → Nat
  | 0 => 0
  | n + 1 => Config.codeByte digest a % 256 + 256 * codeRead digest (a + 1) n

/-- A read of `n` bytes at an external address: value, poison by 64-bit word, and the system; none where the read must
wait (R165). -/
def extRead (s : Sys) (e a n : Nat) : Option (Nat × Nat × Sys) :=
  match homeOf s.dev e a with
  | .mem x => some (cellsRead s.mem.ext x n, b2n (setHas s.mem.extPsn (x / 8)) + 2 * b2n (decide (8 < n) && setHas s.mem.extPsn (x / 8 + 1)), s)
  | .code h off => some (codeRead ((s.dev.start.image.map Image.digest).getD 0) (h * 0x100000 + off) n, 0, s)
  | .endpoint off => some (sliceBytes (epOf s.dev (off / 512)) (off % 512) n, 0, s)
  | .device x =>
    let (v, d) := deviceLoad s.dev x n
    some (v, 0, { s with dev := d })
  | .oaSlot off =>
    match oaLoad s.dev off n with
    | none => none
    | some (v, p) => some (v, if p then (if 64 ≤ off % 256 then 3 else if 64 < off % 256 + n then 2 else 0) else 0, s)
  | .owned x =>
    match ownedRun s.dev x n with
    | some v => some (v, 0, s)
    | none =>
      let (v, d) := freshNat s.dev
      some (v % 2 ^ (8 * n), 0, { s with dev := d })
  | .none => some (0, 0, s)

/-- Poison of the words of an external write: bit 0 its low word, bit 1 its high word. -/
def extMarks (l : List Nat) (x n psn : Nat) : List Nat :=
  let l := if psn.testBit 0 then setInsert l (x / 8) else setErase l (x / 8)
  if 8 < n then (if psn.testBit 1 then setInsert l (x / 8 + 1) else setErase l (x / 8 + 1)) else l

/-- A write of `n` bytes with the poison of its words. To device control space a poisoned value is refused (Table 6.7). -/
def extWrite (s : Sys) (e t a n v psn : Nat) : Sys :=
  match homeOf s.dev e a with
  | .mem x => { s with mem := { s.mem with ext := cellsWrite s.mem.ext x n v, extPsn := extMarks s.mem.extPsn x n psn } }
  | .device x =>
    if psn ≠ 0 then
      { s with dev := onThreadCtx (bump s.dev Obj.poisonRefusals e 0) t (fun c => c.stick St.prefused true) }
    else { s with dev := deviceStore s.dev x n v }
  | _ => s

/-! ### Outstanding operations -/

/-- The bytes that an operation touches. -/
def XOp.bytes (o : XOp) : Nat :=
  match o.kind with
  | .load w _ => if w then 16 else 8
  | .store w _ => if w then 16 else 8
  | _ => 8

/-- Whether the operation is a store. -/
def XOp.isStore (o : XOp) : Bool :=
  match o.kind with
  | .store _ _ => true
  | _ => false

/-- Whether the operation is a push. -/
def XOp.isPush (o : XOp) : Bool :=
  match o.kind with
  | .push _ _ _ _ _ => true
  | _ => false

/-- The queue of a push or pop. -/
def XOp.queue (o : XOp) : Option Nat :=
  match o.kind with
  | .push q _ _ _ _ => some q
  | .pop q _ _ => some q
  | _ => none

/-- The place that an operation on queue q has beside external addresses, of which it is none: operations on one queue keep their
order (Table 7.3). -/
def queuePlace (q : Nat) : Nat := 2 ^ 64 + 8 * q

/-- Whether the operation is a load. -/
def XOp.isLoad (o : XOp) : Bool :=
  match o.kind with
  | .load _ _ => true
  | _ => false

/-- The key by which two addresses are compared: the alias of the own hearthstone resolved. -/
def sameSpace (d : Dev) (e a : Nat) : Nat :=
  match homeOf d e a with
  | .mem x => x
  | .code h off => 0x20000000 + h * 0x400000 + off
  | _ => a

/-- Whether two operations of engine e overlap. -/
def overlaps (d : Dev) (e : Nat) (p q : XOp) : Bool :=
  let a := sameSpace d e p.addr
  let b := sameSpace d e q.addr
  decide (a < b + q.bytes) && decide (b < a + p.bytes)

/-- Which of the operations before one must be performed first (Table 7.3, R150): those that overlap it, or one that must
itself come first; a load takes an earlier store's value from the buffer instead. Newest first. -/
def needFirst (d : Dev) (e : Nat) (picked : List XOp) : List XOp → List Bool
  | [] => []
  | p :: older =>
    let need := picked.any (fun q => overlaps d e p q && !(q.isLoad && p.isStore))
    need :: needFirst d e (if need then p :: picked else picked) older

/-- A load's value with the engine's earlier buffered stores laid over it, oldest first (R150). -/
def forward (d : Dev) (e : Nat) (o : XOp) (v psn : Nat) : List XOp → Nat × Nat
  | [] => (v, psn)
  | p :: later =>
    match p.kind with
    | .store w data =>
      if overlaps d e p o then
        let n := if w then 16 else 8
        let a := sameSpace d e p.addr
        let b := sameSpace d e o.addr
        let put := fun (acc : Nat × Nat) (i : Nat) =>
          let x := b + 8 * i
          if a ≤ x ∧ x < a + n then
            (setF acc.1 ⟨64 * i, 64⟩ (sliceBytes data.toNat (x - a) 8), setF acc.2 ⟨i, 1⟩ (b2n (p.poison.testBit ((x - a) / 8))))
          else acc
        let r := (List.range (o.bytes / 8)).foldl put (v, psn)
        forward d e o r.1 r.2 later
      else forward d e o v psn later
    | _ => forward d e o v psn later

/-- The registers that an operation will write. -/
def XOp.dest (o : XOp) : List (BitVec 5) :=
  match o.kind with
  | .load wide rd => if wide then [rd, pairHi rd] else [rd]
  | .store _ _ => []
  | .add rd _ => [rd]
  | .swap rd _ => [rd]
  | .cas rd _ _ => [rd]
  | .push _ _ _ _ _ => []
  | .pop _ rd _ => [rd, pairHi rd]

/-- An atomic's new value and whether it writes (R157). -/
def amoResult : XKind → Word → Option Word
  | .add _ x, old => some (old + x)
  | .swap _ x, _ => some x
  | .cas _ x expect, old => if old = expect then some x else none
  | _, _ => none

/-- Whether what an atomic writes was computed from the old value, whose poison it then carries (R132): all but XAMO.SWP. -/
def XKind.spreads : XKind → Bool
  | .swap _ _ => false
  | _ => true

/-- The register of an atomic. -/
def amoReg : XKind → BitVec 5
  | .add r _ => r
  | .swap r _ => r
  | .cas r _ _ => r
  | _ => 0

/-- An operation performed at its home, the engine's earlier unperformed operations being `before`; none where it must
wait. -/
def applyOp (s : Sys) (e : Nat) (o : XOp) (before : List XOp) : Option Sys :=
  match o.kind with
  | .load wide rd =>
    match extRead s e o.addr o.bytes with
    | none => none
    | some (v, psn, s) =>
      let (v, psn) := forward s.dev e o v psn before
      some { s with dev := onThreadCtx s.dev o.thread (fun c =>
        if wide then c.setPair rd v psn else c.setReg rd (BitVec.ofNat 64 v) (psn.testBit 0)) }
  | .store _ data => some (extWrite s e o.thread o.addr o.bytes data.toNat o.poison)
  | .push q word rel i last =>
    let p := takePush s.dev e q word rel i
    some { s with dev := onThreadCtx p.dev o.thread (fun c => c.endPush last p i) }
  | .pop q rd last =>
    let (d, qs, v) := takePop s.dev q
    some { s with dev := onThreadCtx d o.thread (fun c =>
      let c := match v with
        | some (x, psn) => c.setPair rd x psn
        | none => c
      c.endQs last qs) }
  | k =>
    match extRead s e o.addr 8 with
    | none => none
    | some (v, psn, s) =>
      let old : Word := BitVec.ofNat 64 v
      let bad := psn.testBit 0
      let s := match amoResult k old with
        | some x => extWrite s e o.thread o.addr 8 x.toNat (b2n (k.spreads && bad || o.poison != 0))
        | none => s
      some { s with dev := onThreadCtx s.dev o.thread (fun c =>
        let c := c.setReg (amoReg k) old (bad || o.poison != 0)
        match k with
        | .cas _ _ expect => ((c.setSt St.z (b2n (decide (old = expect)))).setSt St.fpsn (b2n (bad || o.poison != 0))).stick St.psn (bad || o.poison != 0)
        | _ => c) }

/-- The operations marked true performed in their order, the rest kept. -/
def performMarked (s : Sys) (e : Nat) : List (XOp × Bool) → List XOp → Option (Sys × List XOp)
  | [], kept => some (s, kept)
  | (o, false) :: l, kept => performMarked s e l (kept ++ [o])
  | (o, true) :: l, kept =>
    match applyOp s e o kept with
    | none => none
    | some s => performMarked s e l kept

/-- Operation i of engine e performed, after those that must come first; none where it must wait. -/
def performAt (s : Sys) (e i : Nat) : Option Sys :=
  let ops := (engineOf s.dev e).ops
  match ops[i]? with
  | none => some s
  | some o =>
    let older := (ops.take i).reverse
    let marks := (needFirst s.dev e [o] older).reverse ++ [true] ++ List.replicate (ops.length - i - 1) false
    match performMarked s e (ops.zip marks) [] with
    | none => none
    | some (s, kept) => some { s with dev := setEngine s.dev e { engineOf s.dev e with ops := kept } }

/-- Operations performed while `wanted` finds one, oldest first, at most `n` times. -/
def performWhile (wanted : XOp → Bool) (e : Nat) : Nat → Sys → Option Sys
  | 0, s => some s
  | n + 1, s =>
    match (engineOf s.dev e).ops.findIdx? wanted with
    | none => some s
    | some i =>
      match performAt s e i with
      | none => none
      | some s => performWhile wanted e n s

/-- Every operation of engine e that `wanted` picks, performed. -/
def performAll (wanted : XOp → Bool) (e : Nat) (s : Sys) : Option Sys := performWhile wanted e (engineOf s.dev e).ops.length s

/-! ### Copies -/

/-- Word i of a copy into local memory, moved; none where its read must wait. -/
def copyInWord (e : Nat) (c : XCopy) (i : Nat) (s : Sys) : Option Sys :=
  match extRead s e (c.ext + 16 * i) 16 with
  | none => none
  | some (v, psn, s) =>
    let addrs := (List.range 16).map (fun j => c.loc + 16 * i + j)
    some (lmWrite s e addrs v ((List.range 16).map (fun j => psn.testBit (j / 8))))

/-- Word i of a copy out of local memory, moved. -/
def copyOutWord (e : Nat) (c : XCopy) (i : Nat) (s : Sys) : Sys :=
  let addrs := (List.range 16).map (fun j => c.loc + 16 * i + j)
  let (v, marks, s) := lmRead s e addrs
  extWrite s e c.thread (c.ext + 16 * i) 16 v (b2n ((marks.take 8).any id) + 2 * b2n ((marks.drop 8).any id))

/-- Some words of a copy moved, each in one piece (R147); none where one must wait. -/
def moveWords (e : Nat) (c : XCopy) : List Nat → Sys → Option Sys
  | [], s => some s
  | i :: l, s =>
    match if c.into then copyInWord e c i s else some (copyOutWord e c i s) with
    | none => none
    | some s => moveWords e c l s

/-- Whether a copy passes the check of R139: its whole external range is mapped for it. -/
def copyMapped (d : Dev) (e : Nat) (c : XCopy) : Bool :=
  mapped d e c.ext (16 * c.words) (if c.into then .copyIn else .copyOut)

/-- Whether two copies are one: tags tell the copies of a thread apart. -/
def XCopy.same (a b : XCopy) : Bool := decide (a.tag = b.tag) && decide (a.thread = b.thread)

/-- A copy carried out to its end, or found to fail the check of R139; its tag is no longer outstanding (R121). None where it must
wait. -/
def copyDone (s : Sys) (e : Nat) (c : XCopy) : Option Sys :=
  let ok := copyMapped s.dev e c
  match if ok then moveWords e c c.left s else some s with
  | none => none
  | some s =>
    let x := engineOf s.dev e
    let d := setEngine s.dev e { x with copies := x.copies.filter (fun y => !y.same c) }
    let bit : BitVec 8 := 1#8 <<< c.tag
    some { s with dev := onThreadCtx d c.thread (fun k =>
      { k with tags := k.tags &&& ~~~bit, failed := if ok then k.failed &&& ~~~bit else k.failed ||| bit }) }

/-- One word of the copies that engine e has outstanding is moved, which one being a free value: each word of a copy moves at a time
of its own (R121, R147). A copy that fails the check of R139 moves none. -/
def moveOneWord (e : Nat) (s : Sys) : Sys :=
  let open_ := (engineOf s.dev e).copies.flatMap (fun c => if copyMapped s.dev e c then c.left.map (fun i => (c, i)) else [])
  let (k, d) := freshNat s.dev
  match open_[k % open_.length]? with
  | none => s
  | some (c, i) =>
    match moveWords e c [i] { s with dev := d } with
    | none => s
    | some s =>
      let x := engineOf s.dev e
      let take := fun (y : XCopy) => if y.same c then { y with left := y.left.filter (· != i) } else y
      { s with dev := setEngine s.dev e { x with copies := x.copies.map take } }

/-- Copies of engine e that `wanted` picks, carried out, at most `n`. -/
def copiesWhile (wanted : XCopy → Bool) (e : Nat) : Nat → Sys → Option Sys
  | 0, s => some s
  | n + 1, s =>
    match (engineOf s.dev e).copies.find? wanted with
    | none => some s
    | some c =>
      match copyDone s e c with
      | none => none
      | some s => copiesWhile wanted e n s

/-- Every copy of engine e that `wanted` picks, carried out. -/
def copiesAll (wanted : XCopy → Bool) (e : Nat) (s : Sys) : Option Sys :=
  copiesWhile wanted e ((engineOf s.dev e).copies.length) s

/-- Every earlier external operation of the engine performed, as a release push asks (R151). -/
def releaseAll (e : Nat) (s : Sys) : Option Sys :=
  match performAll (fun _ => true) e s with
  | none => none
  | some s => copiesAll (fun _ => true) e s

end Sys2Proof.Machine
end

