-- ==== Sys2Proof/Machine/Reset.lean ====
section
/-! DEFINITION. How the collector takes an FC3 report (R298, R299): the log, the escalation, and the record of the block
reset that starts. What each reset does is in FaultOps.lean. -/
namespace Sys2Proof.Machine

/-- The record of block (kind, inst) changed. -/
def setBlock (d : Dev) (kind inst : Nat) (x : BlockSt) : Dev :=
  { d with faults := { d.faults with blocks := sput d.faults.blocks (kind * 256 + inst) x } }

/-- An FC4 report: the quench (R309). -/
def raiseFc4 (d : Dev) (code inst detail : Nat) : Dev := quench (report d 4 code inst detail) code

/-- An FC3 report: the block whose reset it starts, if any. A report that is CONSEQUENTIAL, or on a block in reset, starts
none; with two other non-consequential resets of the block in the last 10 s it is escalated (R298, R299, Table 15.4). -/
def raiseFc3 (d : Dev) (code inst detail : Nat) : Dev × Option (Nat × Nat) :=
  let (kind, b) := blockOf code inst
  let conseq := (windowOf d (itemOf code inst detail)).isSome
  let x := blockSt d kind b
  let recent := x.starts.filter (fun t => decide (now d ≤ t + msec 10000))
  let escal := !conseq && decide (2 ≤ recent.length)
  let l := reportL d 3 code inst detail escal
  if conseq then (l.dev, none)
  else if escal then
    let d := setBlock l.dev kind b { x with phase := 3 }
    (raiseFc4 d (0x0F00 + kind) b 0, none)
  else if x.phase = 1 then (l.dev, none)
  else
    let y : BlockSt := { x with phase := 1, cause := l.seq, opened := now l.dev, starts := now l.dev :: recent, lastTick := curTick l.dev }
    (bump (setBlock l.dev kind b y) Obj.blockResets (kind * 256 + b) 0, some (kind, b))

end Sys2Proof.Machine
end

