-- ==== Sys2Proof/Machine/Crc.lean ====
section
/-! DEFINITION. The check values of Table 12.1. -/
namespace Sys2Proof.Machine

/-- Width of a polynomial code. -/
def crcWidth : Nat → Nat
  | 0 => 32
  | 1 => 32
  | 2 => 64
  | _ => 16
/-- Init. -/
def crcInit : Nat → Nat
  | 0 => 0xFFFFFFFF
  | 1 => 0xFFFFFFFF
  | 2 => 0
  | _ => 0xFFFF
/-- XorOut. -/
def crcXorOut : Nat → Nat
  | 0 => 0xFFFFFFFF
  | 1 => 0xFFFFFFFF
  | 2 => 0
  | _ => 0xFFFF
/-- The polynomial as its register shifts: bits in reverse where RefIn is yes. -/
def crcPoly : Nat → Nat
  | 0 => 0x82F63B78
  | 1 => 0xEDB88320
  | 2 => 0x42F0E1EBA9EA3693
  | _ => 0x8408

/-- One bit of a reflected register. -/
def crcBitRight (poly r : Nat) : Nat := if r % 2 = 1 then Nat.xor (r / 2) poly else r / 2
/-- One bit of a register that is not reflected. -/
def crcBitLeft (w poly r : Nat) : Nat :=
  if r.testBit (w - 1) then Nat.xor (r * 2 % 2 ^ w) poly else r * 2 % 2 ^ w

/-- A function applied n times. -/
def iterate {α : Type} (f : α → α) : Nat → α → α
  | 0, x => x
  | n + 1, x => iterate f n (f x)

/-- The register after one byte. -/
def crcByte (code r b : Nat) : Nat :=
  if code = 2 then iterate (crcBitLeft 64 (crcPoly 2)) 8 (Nat.xor r (b * 2 ^ 56))
  else iterate (crcBitRight (crcPoly code)) 8 (Nat.xor r b)

/-- The register after a list of bytes. -/
def crcBytes (code : Nat) : Nat → List Nat → Nat
  | r, [] => r
  | r, b :: l => crcBytes code (crcByte code r b) l

/-- The register after the low `n` bytes of a number, lowest first. -/
def crcNum (code : Nat) : Nat → Nat → Nat → Nat
  | r, 0, _ => r
  | r, n + 1, v => crcNum code (crcByte code r (v % 256)) n (v / 256)

/-- The check value of a byte string with no tag. -/
def crcOf (code : Nat) (b : Bytes) : Nat := Nat.xor (crcNum code (crcInit code) b.len b.val) (crcXorOut code)

/-- The check value of a byte string after an 8-byte tag. -/
def crcTagged (code tag : Nat) (b : Bytes) : Nat :=
  Nat.xor (crcNum code (crcNum code (crcInit code) 8 tag) b.len b.val) (crcXorOut code)

end Sys2Proof.Machine
end

