-- ==== Sys2Proof/Machine/Store.lean ====
section
/-! DEFINITION. The NVMe store host: the ring (R244, R245), placement, sealing and writing of block records (R246 to R249),
output pages and failures (R250), the write point after a start (R251, R252). -/
namespace Sys2Proof.Machine

/-- Bytes of a slot: 4 MiB (R244). -/
def slotBytes : Nat := 4194304

/-- Check channel k. -/
def checkOf (d : Dev) (k : Nat) : CheckCh := sget d.store.checks k ⟨none, none⟩
/-- The device with check channel k changed; where it takes a job or ends its last one, ChannelBusy accounts for it. -/
def setCheck (d : Dev) (k : Nat) (x : CheckCh) : Dev :=
  let on := (checkOf d k).on
  let busy := if on = x.on then d.store.busy else sput d.store.busy k (checkBusyOf d k on)
  { d with store := { d.store with checks := sput d.store.checks k x, busy := busy } }
/-- The channels that seal a record of `gone` stop. -/
def stopSeals (d : Dev) (gone : Nat → Bool) : Dev :=
  (d.store.checks.filter (fun p => p.2.sealing.any (fun x => gone x.1))).foldl (fun d p => setCheck d p.1 { p.2 with sealing := none }) d
/-- The device with its open and closing segments changed. -/
def setSegs (d : Dev) (l : List Segment) : Dev := { d with store := { d.store with segs := l } }
/-- Element j of StoreCounters, counted. -/
def bumpStore (d : Dev) (j : Nat) (n : Int) : Dev := bumpBy d Obj.storeCounters 0 j n

/-! ### The ring (R244) -/

/-- The ring slot of a segment number. -/
def ringSlot (s : Store) (n : Nat) : Nat := n % s.total
/-- The namespace that a segment number lies on. -/
def nameOf (s : Store) (n : Nat) : Option Nat := (s.places[ringSlot s n % s.places.length]?).bind id
/-- Namespace k. -/
def nameSt (s : Store) (k : Nat) : Namespace := sget s.names k ⟨0, 0, 512, 0, 0⟩
/-- Whether a segment number maps to a namespace that is in the ring. -/
def mapsLive (s : Store) (n : Nat) : Bool := (nameOf s n).any (fun k => decide ((nameSt s k).state = 1))
/-- The LBA at which the slot of segment n starts (R244). -/
def segLba (s : Store) (n : Nat) : Nat :=
  (1 + ringSlot s n / s.places.length) * (slotBytes / ((nameOf s n).map (fun k => (nameSt s k).lba)).getD 512)

/-- Whether some namespace of the ring has failed. -/
def ringDegraded (s : Store) : Bool := s.places.any (fun p => (p.map (fun k => (nameSt s k).state)) ≠ some 1)
/-- Whether no namespace of the ring is left. -/
def ringStopped (s : Store) : Bool := s.places.all (fun p => (p.map (fun k => (nameSt s k).state)) ≠ some 1)

/-- The first number from n on that maps to a namespace in the ring, among as many as there are places (Table 12.10). -/
def liveFrom (s : Store) : Nat → Nat → Option Nat
  | 0, _ => none
  | k + 1, n => if mapsLive s n then some n else liveFrom s k (n + 1)

/-- The number of the next segment to open. -/
def nextLive (s : Store) : Option Nat := liveFrom s s.places.length s.next

/-- Whether HoldSegment keeps the slot of segment n (Table 12.10). -/
def slotKept (d : Dev) (n : Nat) : Bool :=
  let hold := ogetN d Obj.holdSegment 0 0
  decide (hold ≠ 0) && d.store.held.any (fun p => decide (ringSlot d.store p.1 = ringSlot d.store n) && decide (hold ≤ p.1))

/-- Whether a segment is open. -/
def hasOpen (s : Store) : Bool := s.segs.any (fun g => decide (g.reason = 0))

/-- StoreState (0x2A00:05): the highest that applies. -/
def storeState (d : Dev) : Nat :=
  let s := d.store
  if !s.ready then (if s.names.any (fun p => decide (p.2.state = 4)) then 1 else 0)
  else if ringStopped s then 6
  else if !hasOpen s && (nextLive s).any (slotKept d) then 5
  else if ringDegraded s then 4
  else 3

/-! ### Segments and records -/

/-- The next segment opens where one can (R248, Table 12.10); what its slot held is no longer in the ring. -/
def openSegment (d : Dev) : Dev :=
  let s := d.store
  if !s.ready || hasOpen s || s.total = 0 then d
  else
    match nextLive s with
    | none => d
    | some n =>
      if slotKept d n then d
      else
        let r := ((nameOf s n).getD 0) / 2
        let g : Segment :=
          { number := n, offset := 4096, opened := netNow d, openedAt := now d, records := [],
            epochs := [(sget s.epochAt r 0, unitTag d (96 + r))], overflow := false, reason := 0, closed := ⟨0, 0⟩,
            header := none, tries := 0 }
        let held := s.held.filter (fun p => decide (ringSlot s p.1 ≠ ringSlot s n))
        { d with store := { s with next := n + 1, segs := s.segs ++ [g], held := held } }

/-- An NVMe command is submitted. -/
def submit (d : Dev) (name kind lba : Nat) (data : Bytes) : Dev :=
  if halted d then d else bump (emit d (.nvme name kind lba data)) Obj.writeCommands (name / 2) 0

/-- The epoch list of a header (Table 12.8). -/
def epochList : List (Nat × Nat) → Nat
  | [] => 0
  | (t, e) :: r => e % 2 ^ 32 + t % 2 ^ 64 * 2 ^ 64 + epochList r * 2 ^ 128

/-- Last tick of a record's block. -/
def recLast (r : Rec) : Nat := getF r.header BlockHdr.firstTick + getF r.header BlockHdr.tickCount - 1

/-- The largest of a list of numbers. -/
def maxNat (l : List Nat) : Nat := l.foldl max 0
/-- The smallest of a list of numbers; 0 of none. -/
def minNat : List Nat → Nat
  | [] => 0
  | a :: l => l.foldl min a

/-- A segment header but for its check (R247). -/
def plainHeader (d : Dev) (g : Segment) : Nat :=
  let h := setF (setF (setF 0 SegHdr.epochList (epochList g.epochs)) SegHdr.deviceSerial (ogetN d Obj.deviceSerial 0 0))
    SegHdr.twinRole (d.start.straps.twin % 4)
  let h := setF (setF (setF h SegHdr.closeReason g.reason) SegHdr.epochCount g.epochs.length) SegHdr.epochOverflow (b2n g.overflow)
  let gaps := (g.records.filter (fun r => decide (getF r.header BlockHdr.gap = 1))).length
  let h := setF (setF (setF h SegHdr.gapBlocks gaps) SegHdr.usedBytes (g.offset - 4096)) SegHdr.blockCount g.records.length
  let h := setF (setF h SegHdr.lastTick (maxNat (g.records.map recLast)))
    SegHdr.firstTick (minNat (g.records.map (fun r => getF r.header BlockHdr.firstTick)))
  let h := setF (setF (setF h SegHdr.openSeconds (secondsOf g.opened.t)) SegHdr.openNanoseconds (nanosOf g.opened.t))
    SegHdr.openGeneration g.opened.gen
  let h := setF (setF (setF h SegHdr.closeSeconds (secondsOf g.closed.t)) SegHdr.closeNanoseconds (nanosOf g.closed.t))
    SegHdr.closeGeneration g.closed.gen
  let h := setF (setF h SegHdr.previousHeaderCheck d.store.lastCheck) SegHdr.segmentNumber g.number
  setF (setF (setF h SegHdr.ringIdentity d.store.identity) SegHdr.version 1) SegHdr.magic 0x51534831

/-- HeaderCheck: the CRC-64 over the tag of segment n and header bytes 8 to 4,095 (R247). -/
def headerCheckOf (n h : Nat) : Nat := crcTagged 2 (n * slotBytes) ⟨4088, h / 2 ^ 64⟩

/-- The header of a closed segment, with its check. -/
def sealedHeader (d : Dev) (g : Segment) : Nat :=
  let h := plainHeader d g
  setF h SegHdr.headerCheck (headerCheckOf g.number h)

/-- The header of the oldest closing segment is written once all its records have been; a Flush goes before it where
VolatileCache is set (R249). Headers go out one at a time, in order of number. -/
def submitHeader (d : Dev) : Dev :=
  match d.store.segs with
  | [] => d
  | g :: r =>
    if g.reason = 0 ∨ g.header.isSome ∨ g.records.any (fun x => decide (x.phase ≠ 3)) then d
    else
      let name := (nameOf d.store g.number).getD 0
      let h := sealedHeader d g
      let d := setSegs d ({ g with header := some h } :: r)
      let d := if ogetB d Obj.volatileCache (name / 2) 0 && !halted d then emit d (.nvme name 2 0 noBytes) else d
      submit d name 1 (segLba d.store g.number) ⟨4096, h⟩

/-- The open segment closes with a reason (R248). -/
def closeSegment (d : Dev) (reason : Nat) : Dev :=
  if !hasOpen d.store then d
  else
    let l := d.store.segs.map (fun g => if g.reason = 0 then { g with reason := reason, closed := netNow d } else g)
    submitHeader (bumpStore (setSegs d l) 5 1)

/-- The powered channels of StoreSealMask, in ascending order (R242). -/
def sealChannels (d : Dev) : List Nat := setBits (checksOf d) (ogetN d Obj.storeSealMask 0 0)

/-- The channel that takes the next seal job of the round robin (R242); 255 while StoreSealMask names no powered channel. -/
def nextSealer (d : Dev) : Nat :=
  let l := sealChannels d
  ((l.find? (fun k => decide (d.store.robin ≤ k))).orElse (fun _ => l.head?)).getD 255

/-- RecordBytes of a payload on a namespace: header, payload and padding to its LBA size (R246). -/
def recordBytes (payload lba : Nat) : Nat := ceilDiv (64 + payload) lba * lba

/-- A record goes to the write point of the open segment, where it fits. -/
def placeHere (d : Dev) (r : Rec) : Option Dev :=
  match d.store.segs.find? (fun g => decide (g.reason = 0)) with
  | none => none
  | some g =>
    let lba := ((nameOf d.store g.number).map (fun k => (nameSt d.store k).lba)).getD 512
    let size := recordBytes r.payload.len lba
    if slotBytes < g.offset + size then none
    else
      let k := nextSealer d
      let r := { r with off := g.offset, size := size, header := setF r.header BlockHdr.recordBytes size, phase := 0, channel := k, tries := 0 }
      let g := { g with offset := g.offset + size, records := g.records ++ [r] }
      let l := d.store.segs.map (fun x => if x.reason = 0 then g else x)
      some { d with store := { d.store with segs := l, robin := k + 1 } }

/-- A record is placed, in the next segment where it would pass the end of the open one (R248); it waits where no segment
can be opened. -/
def placeRec (d : Dev) (r : Rec) : Dev :=
  let wait := fun (d : Dev) => { d with store := { d.store with waiting := d.store.waiting ++ [r] } }
  if !d.store.waiting.isEmpty then wait d
  else
    let d := openSegment d
    match placeHere d r with
    | some d => d
    | none =>
      if !hasOpen d.store then wait d
      else
        let d := openSegment (closeSegment d 1)
        match placeHere d r with
        | some d => d
        | none => wait d

/-- A segment opens where one can, and the records that wait are placed, oldest first. -/
def drainStore (d : Dev) : Dev :=
  let l := d.store.waiting
  if !d.store.ready then d
  else l.foldl placeRec (openSegment { d with store := { d.store with waiting := [] } })

/-- The header of a job's block (Table 12.7), from its preamble; RecordBytes and BlockCrc come later. -/
def blockHeader (j : Job) (payload : Nat) : Nat :=
  let p := j.image.val
  let h := setF (setF (setF (setF 0 BlockHdr.firstTick j.first) BlockHdr.stream j.stream) BlockHdr.blockIndex j.index) BlockHdr.tickCount j.ticks
  let h := setF (setF (setF h BlockHdr.transform (getF p Preamble.transform)) BlockHdr.capture (getF p Preamble.capture))
    BlockHdr.restart (getF p Preamble.restart)
  let h := setF (setF (setF h BlockHdr.final (b2n j.final)) BlockHdr.gap (b2n j.lost)) BlockHdr.epochTag (getF p Preamble.epochTag)
  setF (setF (setF (setF h BlockHdr.imageBytes j.image.len) BlockHdr.payloadBytes payload) BlockHdr.groupStart j.group) BlockHdr.magic 0x51534231

/-- The output of a job is handed over (R248). -/
def handOver (d : Dev) (j : Job) (payload : Bytes) : Dev :=
  let r : Rec :=
    { stream := j.stream, off := 0, header := blockHeader j payload.len, payload := payload, size := 0, phase := 0, channel := 0,
      tries := 0, pages := j.granted / 4096 }
  let d := bumpStore d 0 1
  placeRec (if j.lost then bumpStore d 4 1 else d) r

/-- COMPRESSOR_JOB_COMPLETE: unit c emits what is left of its job, saves the context and hands the output over; the
staging image is free (R224, R233). -/
def compressorJobComplete (c : Nat) (d : Dev) : Dev :=
  match runningJob d c with
  | none => d
  | some (j, x) =>
    let n := roomSteps j x.ctx
    if x.ctx.words + n < (stepsOf j x.ctx).length then d
    else
      let y := emitSteps j x.ctx n 0
      let payload : Bytes := ⟨ceilDiv y.bits 8, y.output⟩
      let d := countUnit (idleUnit (setStream d j.stream { x with ctx := ctxAfter j x.ctx }) c) c x.ctx y
      let d := setJobs d (d.ev.jobs.filter (fun k => !(decide (k.stream = j.stream) && decide (k.index = j.index))))
      let d := bumpBy (bump (bump d Obj.jobsCompleted 0 0) Obj.unitJobs c 0) Obj.unitInputBytes c 0 j.image.len
      let d := bumpBy (bumpBy d Obj.streamInputBytes j.stream 0 j.image.len) Obj.streamOutputBytes j.stream 0 payload.len
      let d := if x.state = 2 then noteStream d j.stream else d
      freeStream (handOver d j payload) j.stream

/-- OUTPUT_PAGE_GRANT: a page of OutputPool goes to a job of stream s; a grant that finds the pool empty waits, and is counted
once (R235, R250). -/
def outputPageGrant (st : Nat) (d : Dev) : Dev :=
  let s := d.store
  if (jobsOf d st).isEmpty then d
  else if s.free = 0 then
    if s.grants.contains st then d else bumpStore { d with store := { s with grants := s.grants ++ [st] } } 8 1
  else grantPage { d with store := { s with free := s.free - 1, grants := s.grants.filter (· ≠ st) } } st

/-! ### Sealing and writing -/

/-- The record at an offset of segment n. -/
def recAt (d : Dev) (n off : Nat) : Option Rec :=
  (d.store.segs.find? (fun g => decide (g.number = n))).bind (fun g => g.records.find? (fun r => decide (r.off = off)))

/-- The record at an offset of segment n, changed. -/
def onRec (d : Dev) (n off : Nat) (f : Rec → Rec) : Dev :=
  setSegs d (d.store.segs.map (fun g =>
    if g.number = n then { g with records := g.records.map (fun r => if r.off = off then f r else r) } else g))

/-- The oldest placed record that waits for channel k, or for any: its segment and offset. -/
def sealWaiting (d : Dev) (k : Nat) : Option (Nat × Nat) :=
  let mine := fun (r : Rec) => decide (r.channel = k) || (decide (r.channel = 255) && (sealChannels d).contains k)
  d.store.segs.findSome? (fun g => (g.records.find? (fun r => decide (r.phase = 0) && mine r)).map (fun r => (g.number, r.off)))

/-- SEAL_JOB: channel k takes its oldest waiting seal job, ahead of its firmware job (R242). -/
def sealJob (k : Nat) (d : Dev) : Dev :=
  let x := checkOf d k
  if checksOf d ≤ k ∨ x.sealing.isSome ∨ (blockSt d 4 k).phase = 1 ∨ halted d then d
  else
    match sealWaiting d k with
    | none => d
    | some (n, off) =>
      let d := bumpIf x.job.isSome d Obj.firmwareSuspensions k 0
      setCheck (onRec d n off (fun r => { r with phase := 1 })) k { x with sealing := some (n, off) }

/-- BlockCrc of a record at an offset of segment n (R246). -/
def blockCrcOf (n : Nat) (r : Rec) : Nat :=
  crcTagged 0 (n * slotBytes + r.off) (catBytes ⟨60, r.header / 2 ^ 32⟩ r.payload)

/-- The bytes of a record: header, payload and zeros (R246). -/
def recBytes (r : Rec) : Bytes :=
  let b := catBytes ⟨64, r.header⟩ r.payload
  ⟨r.size, b.val⟩

/-- The Write of a sealed record is submitted (R249). -/
def submitRec (d : Dev) (n : Nat) (r : Rec) : Dev :=
  let k := (nameOf d.store n).getD 0
  submit d k 0 (segLba d.store n + r.off / (nameSt d.store k).lba) (recBytes r)

/-- A record that cannot be sealed is dropped: its pages are freed, and its stream's next block carries GAP (Table 12.10). -/
def dropRec (d : Dev) (n : Nat) (r : Rec) : Dev :=
  let port := ((nameOf d.store n).getD 0) / 2
  let l := d.store.segs.map (fun g => if g.number = n then { g with records := g.records.filter (fun x => decide (x.off ≠ r.off)) } else g)
  let s := { d.store with segs := l, free := d.store.free + r.pages, gapNext := r.stream :: d.store.gapNext.filter (· ≠ r.stream) }
  submitHeader (report (bumpStore { d with store := s } 3 1) 1 0x0A11 port 0)

/-- SEAL_COMPLETE: channel k ends its seal job; the record's Write is submitted. `poison`: a page read for sealing carried
POISON. -/
def sealComplete (k : Nat) (poison : Bool) (d : Dev) : Dev :=
  let x := checkOf d k
  match x.sealing with
  | none => d
  | some (n, off) =>
    if (blockSt d 4 k).phase = 1 then d
    else
      let d := setCheck d k { x with sealing := none }
      match recAt d n off with
      | none => d
      | some r =>
        let d := bumpBy (bump d Obj.sealJobs k 0) Obj.bytesChecked k 0 (68 + r.payload.len : Nat)
        if poison then dropRec d n r
        else
          let gap := d.store.gapNext.contains r.stream
          let fresh := gap && decide (getF r.header BlockHdr.gap = 0)
          let h := if gap then setF r.header BlockHdr.gap 1 else r.header
          let r := { r with header := h }
          let r := { r with header := setF h BlockHdr.blockCrc (blockCrcOf n r), phase := 2 }
          let d := { d with store := { d.store with gapNext := d.store.gapNext.filter (· ≠ r.stream) } }
          submitRec (onRec (if fresh then bumpStore d 4 1 else d) n off (fun _ => r)) n r

/-- Bytes written within the last 60 s, newest first (R253). -/
def noteWritten (d : Dev) (bytes : Nat) : Dev :=
  let l := ((now d, bytes) :: d.store.wrote).filter (fun p => decide (now d < p.1 + secs 60))
  { d with store := { d.store with wrote := l } }

/-- How an NVMe command ends. -/
inductive NvmeEnd where
  | done | failed | dead
  deriving DecidableEq, Repr

/-- A namespace fails: its records that are not yet durable are re-placed in new segments with REPLACED set, and the
segments that map to it are skipped (Table 12.10). -/
def failNamespace (d : Dev) (k : Nat) : Dev :=
  let s := d.store
  let mine := fun (g : Segment) => decide (nameOf s g.number = some k)
  let again := (s.segs.filter mine).flatMap (fun g =>
    g.records.map (fun r => { r with header := setF r.header BlockHdr.replaced 1, phase := 0, tries := 0 }))
  let gone := (s.segs.filter mine).map Segment.number
  let s := (stopSeals d gone.contains).store
  let s := { s with segs := s.segs.filter (fun g => !mine g), names := sput s.names k { nameSt s k with state := 2 },
                    waiting := again ++ s.waiting }
  let d := report { d with store := s } 2 0x0A13 k 0
  let d := if ringStopped s then report d 2 0x0A14 0 0 else d
  submitHeader (drainStore d)

/-- A command of port r failed and is retried (Table 12.10). -/
def noteRetry (d : Dev) (r : Nat) : Dev :=
  report (bump (bumpStore d 7 1) Obj.portRetries r 0) 1 0x0A12 r 0

/-- NVME_WRITE_COMPLETE: the Write of the record at `off` of segment n, or of its header at offset 0, completes, fails, or
its namespace stops responding (R249, Table 12.10). The success of a header's Write is SEGMENT_HEADER_WRITTEN. -/
def nvmeWriteComplete (n off : Nat) (o : NvmeEnd) (d : Dev) : Dev :=
  match d.store.segs.find? (fun g => decide (g.number = n)), nameOf d.store n with
  | some g, some k =>
    if (blockSt d 5 (k / 2)).phase = 1 then d
    else if off = 0 then
      match g.header with
      | none => d
      | some h =>
        match o with
        | .done => d
        | .dead => failNamespace d k
        | .failed =>
          let d := bump (bumpStore d 6 1) Obj.commandErrors (k / 2) 0
          if 3 ≤ g.tries then failNamespace d k
          else
            let d := setSegs d (d.store.segs.map (fun x => if x.number = n then { x with tries := x.tries + 1 } else x))
            submit (noteRetry d (k / 2)) k 1 (segLba d.store n) ⟨4096, h⟩
    else
      match g.records.find? (fun r => decide (r.off = off) && decide (r.phase = 2)) with
      | none => d
      | some r =>
        match o with
        | .done => submitHeader (noteWritten (onRec d n off (fun r => { r with phase := 3 })) r.size)
        | .dead => failNamespace d k
        | .failed =>
          let d := bump (bumpStore d 6 1) Obj.commandErrors (k / 2) 0
          if 3 ≤ r.tries then failNamespace d k
          else submitRec (onRec (noteRetry d (k / 2)) n off (fun r => { r with tries := r.tries + 1 })) n r
  | _, _ => d

/-- The records of a segment as they lie in the store from offset 4,096 on. -/
def segData (g : Segment) : Bytes := joinBytes (g.records.map recBytes)

/-- SEGMENT_HEADER_WRITTEN: the header of segment n has been written; its blocks are durable and their pages free (R249). -/
def segmentHeaderWritten (n : Nat) (d : Dev) : Dev :=
  match d.store.segs, nameOf d.store n with
  | g :: rest, some k =>
    if g.number ≠ n ∨ (blockSt d 5 (k / 2)).phase = 1 then d
    else
      match g.header with
      | none => d
      | some h =>
        let s := d.store
        let pages := sumNat (g.records.map Rec.pages)
        let s := { s with segs := rest, held := sput s.held n ⟨h, segData g, false⟩, lastCheck := getF h SegHdr.headerCheck,
                          lastTick := max s.lastTick (getF h SegHdr.lastTick), free := s.free + pages }
        submitHeader (noteWritten (bumpStore { d with store := s } 1 g.records.length) 4096)
  | _, _ => d

/-- SEGMENT_CLOSE_TIME: SegmentCloseTime has passed since the open segment opened (R248). -/
def segmentCloseTime (d : Dev) : Dev :=
  match d.store.segs.find? (fun g => decide (g.reason = 0)) with
  | none => d
  | some g =>
    let due := g.openedAt + msec (ogetN d Obj.segmentCloseTime 0 0)
    if !canReach d due then d else drainStore (closeSegment (passUntil d due) 2)

/-! ### StoreCommand (R245, R248) -/

/-- CLOSE_SEGMENT: StoreCommand 2. -/
def closeSegmentCmd (d : Dev) : Dev := drainStore (closeSegment (accept d) 3)

/-- The namespaces attached, in the order of R244. -/
def attached (s : Store) : List Nat := (s.names.filter (fun p => decide (p.2.state ≠ 0))).map Prod.fst

/-- SlotsPerNamespace of a ring over some namespaces (R244). -/
def slotsPer (s : Store) (l : List Nat) : Nat := minNat (l.map (fun k => (nameSt s k).capacity / slotBytes)) - 1

/-- A store label (Table 12.6). -/
def labelOf (seconds slots lba count index identity : Nat) : Nat :=
  let h := setF (setF (setF 0 Label.formatSeconds seconds) Label.slotsPerNamespace slots) Label.lbaBytes lba
  let h := setF (setF (setF (setF h Label.namespaceCount count) Label.namespaceIndex index) Label.ringIdentity identity) Label.magic 0x51534C31
  setF h Label.labelCheck (crcTagged 2 0 ⟨4088, h / 2 ^ 64⟩)

/-- FORMAT: StoreCommand 1 writes a label to each namespace (R245). It is accepted only while StoreState is UNFORMATTED or
FOREIGN and FormatIdentity is not zero, with a namespace to format. -/
def formatStore (d : Dev) : Dev :=
  let s := d.store
  let id := ogetN d Obj.formatIdentity 0 0
  let l := attached s
  if s.ready ∨ s.formatting.isSome ∨ id = 0 ∨ slotsPer s l = 0 then refuse d abortState
  else
    let t := secondsOf d.time.net
    let d := accept { d with store := { s with formatting := some (id, t) } }
    (l.zipIdx).foldl (fun d (p : Nat × Nat) =>
      submit d p.1 1 0 ⟨4096, labelOf t (slotsPer s l) (nameSt s p.1).lba l.length p.2 id⟩) d

/-- FORMAT_COMPLETE: every label is written and every slot header zero; the store host takes the new ring into use. -/
def formatComplete (d : Dev) : Dev :=
  let s := d.store
  match s.formatting with
  | none => d
  | some (id, _) =>
    let l := attached s
    let names := s.names.map (fun p =>
      match l.findIdx? (fun k => decide (k = p.1)) with
      | some i => (p.1, { p.2 with state := 1, identity := id, place := i })
      | none => p)
    let per := slotsPer s l
    let s := { s with formatting := none, ready := true, identity := id, total := l.length * per, perName := per,
                      places := l.map some, names := names, next := 1, segs := [], held := [], lastCheck := 0, lastTick := 0 }
    drainStore { d with store := s }

/-- ADOPT: StoreCommand 3 labels an unlabelled namespace into a failed one's place, named by bits 7:4 of FormatIdentity's
low byte, and zeroes its slot headers (R245). -/
def adoptNamespace (d : Dev) : Dev :=
  let s := d.store
  let i := ogetN d Obj.formatIdentity 0 0 / 16 % 16
  match s.places[i]?, (s.names.filter (fun p => decide (p.2.state = 3) && decide ((s.perName + 1) * slotBytes ≤ p.2.capacity))).head? with
  | some old, some (k, x) =>
    if !s.ready ∨ (old.map (fun o => (nameSt s o).state)) = some 1 then refuse d abortState
    else
      let held := s.held.filter (fun p => decide (ringSlot s p.1 % s.places.length ≠ i))
      let names := sput s.names k { x with state := 1, identity := s.identity, place := i }
      let names := match old with
        | some o => if o = k then names else sput names o { nameSt s o with state := 0 }
        | none => names
      let d := accept { d with store := { s with places := s.places.set i (some k), names := names, held := held } }
      let d := submit d k 1 0 ⟨4096, labelOf (secondsOf d.time.net) s.perName x.lba s.places.length i s.identity⟩
      drainStore (clearStanding (clearStanding d [0x0A13] (old.getD k)) [0x0A14] 0)
  | _, _ => refuse d abortState

/-- Unit 96 + r applies an epoch with a target tick: the open segment of that port lists it (R247). -/
def storeEpoch (r epoch tick : Nat) (d : Dev) : Dev :=
  let s := d.store
  let add := fun (g : Segment) =>
    if g.reason = 0 ∧ (nameOf s g.number).map (· / 2) = some r then
      if g.epochs.length < 240 then { g with epochs := g.epochs ++ [(tick, epoch)] } else { g with overflow := true }
    else g
  { d with store := { s with segs := s.segs.map add, epochAt := sput s.epochAt r tick } }

/-! ### Starts (R251, R252) -/

/-- Every record that is not yet durable is lost, and so is every block that waits (Table 12.10). -/
def storeDrop (d : Dev) : Dev :=
  let s := d.store
  let l := s.segs.flatMap Segment.records ++ s.waiting
  let s := { (stopSeals d (fun _ => true)).store with segs := [], waiting := [], free := s.free + sumNat (l.map Rec.pages) }
  bumpStore { d with store := s } 3 l.length

/-- A partial segment that the scan finds after the newest header: its header is written with CloseReason 4 (R251). When
it opened is not known to the store host after the start, and is a free value. -/
def recoverPartial (d : Dev) (n : Nat) (l : List Rec) : Dev :=
  if l.isEmpty then d
  else
    let (a, d) := freshNat d
    let (b, d) := freshNat d
    let g : Segment :=
      { number := n, offset := 4096 + sumNat (l.map Rec.size), opened := ⟨b, a⟩, openedAt := now d, records := l, epochs := [],
        overflow := false, reason := 4, closed := netNow d, header := none, tries := 0 }
    let h := sealedHeader d g
    let k := (nameOf d.store n).getD 0
    let d := submit d k 1 (segLba d.store n) ⟨4096, h⟩
    let s := d.store
    { d with store := { s with next := n + 1, held := sput s.held n ⟨h, segData g, false⟩, lastCheck := getF h SegHdr.headerCheck,
                               lastTick := max s.lastTick (getF h SegHdr.lastTick) } }

/-- The headers that break the chain raise a notice each (R251). -/
def noteBreaks (d : Dev) (l : List (Nat × Held)) : Dev :=
  (l.filter (fun p => p.2.broken)).foldl (fun d p => report (bump d Obj.chainBreaks 0 0) 0 0x0A01 0 (p.1 % 2 ^ 32)) d

/-- The cold start scan: labels are checked against one another, and the write point is found (R251). -/
def storeScan (sc : Scan) (d : Dev) : Dev :=
  let lab := sc.names.filter (fun f => decide (f.identity ≠ 0))
  let base := { d.store with segs := [], waiting := [], held := [], formatting := none, ready := false }
  let nameWith := fun (f : FoundName) (st : Nat) => (f.slot, (⟨st, f.capacity, f.lba, f.identity, f.place⟩ : Namespace))
  match lab with
  | [] => { d with store := { base with names := sover [] (sc.names.map (fun f => nameWith f 3)) } }
  | a :: _ =>
    let agree := lab.all (fun f => decide (f.identity = a.identity) && decide (f.count = a.count) && decide (f.slots = a.slots))
    if !agree then
      { d with store := { base with names := sover [] (sc.names.map (fun f => nameWith f (if f.identity = 0 then 3 else 4))) } }
    else
      let places := (List.range a.count).map (fun i => (lab.find? (fun f => decide (f.place = i))).map FoundName.slot)
      let newest := maxNat (sc.held.map Prod.fst)
      let held := sover [] sc.held
      let s := { base with names := sover [] (sc.names.map (fun f => nameWith f (if f.identity = 0 then 3 else 1))), ready := true,
                           identity := a.identity, total := a.count * a.slots, perName := a.slots, places := places,
                           next := newest + 1, held := held,
                           lastCheck := ((sfind held newest).map (fun x => getF x.header SegHdr.headerCheck)).getD 0,
                           lastTick := maxNat (sc.held.map (fun p => getF p.2.header SegHdr.lastTick)) }
      let d := noteBreaks { d with store := s } sc.held
      drainStore (recoverPartial d (newest + 1) sc.partial_)

/-- A warm start with a dirty index: the segment at the write point is recovered as the scan finds it (R252). -/
def storeDirty (sc : Scan) (d : Dev) : Dev :=
  let n := (d.store.segs.map Segment.number).getLast?.getD d.store.next
  drainStore (recoverPartial (storeDrop d) n sc.partial_)

end Sys2Proof.Machine
end

