-- ==== Sys2Proof/Machine/Check.lean ====
section
/-! DEFINITION. The firmware jobs of the check-value channels (R240, R241). -/
namespace Sys2Proof.Machine

/-- The descriptor fields that must be zero (Table 12.2), and the values that have no meaning (Table 12.4). -/
def descMalformed (v : Nat) : Bool :=
  decide (bitsAt v 16 176 ≠ 0) || decide (bitsAt v 2 10 ≠ 0) || decide (getF v CheckDesc.tagMode = 3)
    || (decide (getF v CheckDesc.tagMode ≠ 0) && decide (getF v CheckDesc.first = 0))

/-- Whether a range lies wholly in the hearthstone of powered hearths or in trained DRAM (R240, Table 12.4). -/
def rangeReadable (d : Dev) (a n : Nat) : Bool :=
  (decide (0x20000000 ≤ a) && decide (a + n ≤ 0x20000000 + hearthsOf d * 0x400000))
    || (decide (0x10000000000 ≤ a) && decide (a + n ≤ dramTop d))

/-- A result record (Table 12.3). -/
def checkResult (desc k value reg bytes status : Nat) : Bytes :=
  let v := setF (setF (setF 0 CheckRes.cookie (getF desc CheckDesc.cookie)) CheckRes.value value) CheckRes.register reg
  bytesOf 32 (setF (setF (setF v CheckRes.bytesChecked bytes) CheckRes.channel k) CheckRes.status status)

/-- The result goes to ResultQueue with release; one that is refused or has no queue is counted (R241). -/
def pushResult (d : Dev) (desc k : Nat) (r : Bytes) : Dev :=
  let (d', ok) := qPushBytes d (getF desc CheckDesc.resultQueue) r
  if ok then d' else bump d' Obj.resultsRefused k 0

/-- CHECK_JOB_START: channel k, with no job and no seal job that waits for it (R242), pops a descriptor and starts to scan; a job that cannot be scanned gives its result at once
(R240, Table 12.4). -/
def checkJobStart (k : Nat) (d : Dev) : Dev :=
  let x := checkOf d k
  if checksOf d ≤ k ∨ x.on ∨ (sealWaiting d k).isSome ∨ (blockSt d 4 k).phase = 1 ∨ halted d then d
  else
    match takeItem d (196864 + k) with
    | (none, _) => d
    | (some i, d) =>
      let v := i.data.val
      if i.data.len ≠ 64 ∨ descMalformed v then
        pushResult (bump d Obj.jobsFailed k 0) v k (checkResult v k 0 0 0 1)
      else if getF v CheckDesc.length ≠ 0 ∧ rangeReadable d (getF v CheckDesc.startAddress) (getF v CheckDesc.length) = false then
        pushResult (bump d Obj.jobsFailed k 0) v k (checkResult v k 0 0 0 2)
      else setCheck d k { x with job := some ⟨v⟩ }

/-- The byte at an address, and whether its word carries POISON; no byte where the spec does not say what a device block
keeps there. -/
def scanByte (s : Sys) (a : Nat) : Option Nat × Bool :=
  match homeOf s.dev 0 a with
  | .code h off => (some (codeRead ((s.dev.start.image.map Image.digest).getD 0) (h * 0x100000 + off) 1), false)
  | .mem x => (some (cellsRead s.mem.ext x 1), setHas s.mem.extPsn (x / 8))
  | .endpoint off => (some (sliceBytes (epOf s.dev (off / 512)) (off % 512) 1), false)
  | .owned x => (ownedByte s.dev x, false)
  | _ => (none, false)

/-- The register after a scan of `n` bytes from `a`, whether it is known, and whether a word carried POISON. -/
def scanRun (s : Sys) (code : Nat) : Nat → Nat → Nat × Bool × Bool → Nat × Bool × Bool
  | 0, _, x => x
  | n + 1, a, (r, known, psn) =>
    match scanByte s a with
    | (some b, p) => scanRun s code n (a + 1) (crcByte code r b, known, psn || p)
    | (none, p) => scanRun s code n (a + 1) (r, false, psn || p)

/-- The register with which a job starts (R240): Init and the tag with FIRST, Seed without. -/
def startRegister (desc : Nat) : Nat :=
  let code := getF desc CheckDesc.polynomial
  if getF desc CheckDesc.first = 0 then getF desc CheckDesc.seed % 2 ^ crcWidth code
  else
    match getF desc CheckDesc.tagMode with
    | 1 => crcNum code (crcInit code) 8 (getF desc CheckDesc.tag)
    | 2 => crcNum code (crcInit code) 8 (getF desc CheckDesc.startAddress)
    | _ => crcInit code

/-- CHECK_JOB_COMPLETE: channel k ends its firmware job and pushes the result (R240, R241). What other agents wrote to the
range before this is scanned. How far a scan that meets POISON went is a free value. -/
def checkJobComplete (k : Nat) (s : Sys) : Sys :=
  let x := checkOf s.dev k
  match x.job with
  | none => s
  | some j =>
    if x.sealing.isSome ∨ (blockSt s.dev 4 k).phase = 1 then s
    else
      let v := j.desc
      let code := getF v CheckDesc.polynomial
      let n := getF v CheckDesc.length
      let (reg, known, psn) := scanRun s code n (getF v CheckDesc.startAddress) (startRegister v, true, false)
      let d := setCheck s.dev k { x with job := none }
      if psn then
        let d := report (bump d Obj.jobsFailed k 0) 1 0x0A10 k 0
        let (f, d) := freshNat d
        { s with dev := pushResult d v k (checkResult v k 0 0 (f % (n + 1)) 3) }
      else
        let (reg, d) := if known then (reg, d) else
          let (f, d) := freshNat d
          (f % 2 ^ crcWidth code, d)
        let value := if getF v CheckDesc.lastF = 1 then Nat.xor reg (crcXorOut code) else reg
        let tag := if getF v CheckDesc.first = 1 ∧ getF v CheckDesc.tagMode ≠ 0 then 8 else 0
        let d := bumpBy (bump d Obj.jobsDone k 0) Obj.bytesChecked k 0 (n + tag : Nat)
        { s with dev := pushResult d v k (checkResult v k value reg n 0) }

end Sys2Proof.Machine
end

