-- ==== Sys2Proof/Machine/Dsp.lean ====
section
/-! DEFINITION. Signals and subbands for the treatment of a channel (R90 to R106): fixed lengths, energies, and comparisons in
decibels, which are exact. -/
namespace Sys2Proof.Machine

/-- The 16-bit saturation of a sample. -/
def sat16 (x : Int) : Int := clampInt (-32768) 32767 x
/-- A list of exactly n samples of 16 bits: zeros where it falls short. -/
def satSamples (n : Nat) (l : List Int) : List Int := (List.range n).map (fun i => sat16 (l.getD i 0))
/-- The last n of some samples. -/
def lastOf (n : Nat) (l : List Int) : List Int := l.drop (l.length - n)

/-- Samples of a hop of 2 ms (R90). -/
def hopLen (wide : Bool) : Nat := if wide then 32 else 16
/-- Points of the transform, and subbands (R94). -/
def fftLen (wide : Bool) : Nat := if wide then 128 else 64
/-- Subbands. -/
def bandCount (wide : Bool) : Nat := if wide then 64 else 32
/-- Samples of 20 ms, which the detectors look at. -/
def windowLen (wide : Bool) : Nat := if wide then 320 else 160

/-- A vector of exactly as many subbands as the rate has. -/
def bandsOf (wide : Bool) (l : List (Int × Int)) : List (Int × Int) := (List.range (bandCount wide)).map (fun i => l.getD i (0, 0))
/-- The subbands of the last samples of a signal. -/
def analyse (wide : Bool) (l : List Int) : List (Int × Int) := bandsOf wide (Config.analysis wide (lastOf (fftLen wide) l))
/-- The samples of a hop from the subbands of the last hops. -/
def synthesise (wide : Bool) (l : List (List (Int × Int))) : List Int := satSamples (hopLen wide) (Config.synthesis wide l)

/-- The energy of one subband. -/
def bandEnergy (x : Int × Int) : Nat := (x.1 * x.1 + x.2 * x.2).toNat
/-- The energy of all subbands. -/
def energyOf (l : List (Int × Int)) : Nat := sumNat (l.map bandEnergy)
/-- The difference of two subband vectors. -/
def bandSub (a b : List (Int × Int)) : List (Int × Int) := a.mapIdx (fun i x => (x.1 - (b.getD i (0, 0)).1, x.2 - (b.getD i (0, 0)).2))

/-- Whether energy a exceeds energy b by at least db decibels: 10 log₁₀ (a / b) ≥ db. -/
def aboveBy (db a b : Nat) : Bool := decide (b ^ 10 * 10 ^ db ≤ a ^ 10) && decide (b < a)

/-- (1 − w) × a + w × b for w = i / n, rounded to a whole number (R96). -/
def blend (n i : Nat) (a b : Int) : Int :=
  let v := ((n : Int) - i) * a + i * b
  if v % n = 0 then v / n else v / n + b2n (Config.blendUp v n)

/-- The comfort-noise generator after one step: x³² + x²² + x² + x + 1, in the form whose feedback enters the lowest bit (R99). -/
def lfsrStep (v : Nat) : Nat :=
  let b := b2n (((v.testBit 31).xor (v.testBit 21)).xor ((v.testBit 1).xor (v.testBit 0)))
  v * 2 % 2 ^ 32 + b

/-- A place in a signal, in 1/16 ms since tick 0: sample `off` of tick t at a treatment rate. -/
def posAt (wide : Bool) (t off : Nat) : Nat := 40 * t + (if wide then off else 2 * off)

/-- One more hop of a run. -/
def Run.more (r : Run) (pos : Nat) (conceal : Bool) : Run :=
  if r.n = 0 then ⟨1, pos, conceal⟩ else ⟨r.n + 1, r.since, r.conceal || conceal⟩

end Sys2Proof.Machine
end

