-- ==== Sys2Proof/Machine/Cancel.lean ====
section
/-! DEFINITION. The echo canceller of a channel (R94 to R98, R103): one hop of its two banks, the swap and its cross-fade, and the bulk
delay. -/
namespace Sys2Proof.Machine

/-- What Table 5.3 has counted: SwapRequests, SwapsApplied, SwapsSuperseded, SwapsDiscarded. -/
structure Swaps where
  requests   : Nat
  applied    : Nat
  superseded : Nat
  discarded  : Nat
  deriving DecidableEq, Repr

/-- Nothing. -/
def Swaps.none : Swaps := ⟨0, 0, 0, 0⟩
/-- Both. -/
def Swaps.add (a b : Swaps) : Swaps :=
  ⟨a.requests + b.requests, a.applied + b.applied, a.superseded + b.superseded, a.discarded + b.discarded⟩

/-- What the canceller is given for a hop: the rate, the parameters, the received subbands and samples, the reference (its samples by
how many lie between their end and the hop's end, and how many there are), and whether adaptation is frozen. -/
structure EchoIn where
  wide   : Bool
  par    : Params
  bands  : List (Int × Int)
  rx     : List Int
  ref    : Nat → Nat → List Int
  frozen : Bool

/-- FadeLength in samples at a treatment rate. -/
def fadeSamples (p : Params) (wide : Bool) : Nat := p.fade * (if wide then 16 else 8)
/-- Taps of a tail: one per hop in each subband (R94). -/
def tapCount (tail : Nat) : Nat := tail / 2
/-- The subbands of the reference that the taps of a bank see. -/
def refBands (h : EchoIn) (tail : Nat) (b : Bank) : List (List (Int × Int)) :=
  (List.range (tapCount tail)).map (fun k => analyse h.wide (h.ref (b.place + k * hopLen h.wide) (fftLen h.wide)))
/-- The error of a bank. -/
def bankError (h : EchoIn) (tail : Nat) (b : Bank) : List (Int × Int) :=
  bandSub h.bands (bandsOf h.wide (Config.echoEstimate b.taps (refBands h tail b)))

/-- The background takes over: the foreground gets its coefficients and placement, and what it had goes on as the old ones (R96, 1). -/
def Canceller.swap (k : Canceller) (len left : Nat) : Canceller :=
  { k with old := k.fg, fg := k.bg, oldErrs := k.fgErrs, fgErrs := k.bgErrs, fgPower := k.bgPower, fadeLen := len, fadeLeft := left,
           apply := false }

/-- The start of a hop: a request that is applied begins its fade at the first sample (R96). -/
def Canceller.begin_ (k : Canceller) (len : Nat) : Canceller := if k.apply then k.swap len len else k

/-- The error vectors of a hop join those of the hops before. -/
def Canceller.noteErrors (k : Canceller) (h : EchoIn) : Canceller :=
  { k with fgErrs := (bankError h k.tail k.fg :: k.fgErrs).take 4, bgErrs := (bankError h k.tail k.bg :: k.bgErrs).take 4,
           oldErrs := if k.fadeLeft = 0 then [] else (bankError h k.tail k.old :: k.oldErrs).take 4 }

/-- The residual of a hop (R96, 2): the foreground's, blended with the old one's for the samples of a fade; from the sample at which
a fade ends with a request held, the background's joins in the same way. -/
def Canceller.residual (k : Canceller) (wide : Bool) (len : Nat) : List Int :=
  let new := synthesise wide k.fgErrs
  let old := synthesise wide k.oldErrs
  let next := synthesise wide k.bgErrs
  (List.range (hopLen wide)).map (fun i =>
    if i < k.fadeLeft then blend k.fadeLen (k.fadeLen - k.fadeLeft + i + 1) (old.getD i 0) (new.getD i 0)
    else if k.fadeLeft ≠ 0 ∧ k.held then blend len (i - k.fadeLeft + 1) (new.getD i 0) (next.getD i 0)
    else new.getD i 0)

/-- The fade after a hop, and whether one ran or ended in it (Table 5.3): a request held when a fade ends within the hop is applied at
the next sample. -/
def Canceller.fadeOn (k : Canceller) (wide : Bool) (len : Nat) : Canceller × Bool × Swaps :=
  let n := hopLen wide
  if k.fadeLeft = 0 then (k, false, Swaps.none)
  else if k.fadeLeft < n ∧ k.held then
    ({ k.swap len (len - (n - k.fadeLeft)) with held := false }, true, { Swaps.none with applied := 1 })
  else ({ k with fadeLeft := k.fadeLeft - n }, true, Swaps.none)

/-- The background adapts on its own error, unless the hop is frozen (R94). -/
def Canceller.adapt (k : Canceller) (h : EchoIn) : Canceller :=
  if h.frozen then k
  else
    let taps := Config.nlms k.bg.taps (refBands h k.tail k.bg) (k.bgErrs.headD [])
    { k with bg := { k.bg with taps := (taps.take (tapCount k.tail)).map (bandsOf h.wide) } }

/-- The comparison of the two banks at the end of a hop (R96), and whether it raises a swap request. -/
def Canceller.compare (k : Canceller) (h : EchoIn) : Canceller × Bool :=
  let fg := (energyOf (k.fgErrs.headD []) :: k.fgPower).take 16
  let bg := (energyOf (k.bgErrs.headD []) :: k.bgPower).take 16
  let k := { k with fgPower := fg, bgPower := bg }
  if h.frozen then (k, false)
  else
    let better := if aboveBy h.par.margin (Config.smoothed fg) (Config.smoothed bg) then k.better + 1 else 0
    if h.par.hold ≤ better then ({ k with better := 0 }, true) else ({ k with better := better }, false)

/-- A swap request (Table 5.3): `fading` tells whether a fade ran or ended in the hop. -/
def Canceller.request (k : Canceller) (fading : Bool) : Canceller × Swaps :=
  if !fading then ({ k with apply := true }, { Swaps.none with requests := 1, applied := 1 })
  else if k.held then (k, { Swaps.none with requests := 1, superseded := 1 })
  else ({ k with held := true }, { Swaps.none with requests := 1 })

/-- A fade that has ended with a request held: the request is applied at the first sample after it. -/
def Canceller.settle (k : Canceller) : Canceller × Swaps :=
  if k.fadeLeft = 0 ∧ k.held then ({ k with held := false, apply := true }, { Swaps.none with applied := 1 }) else (k, Swaps.none)

/-- A fade in progress ends at once with the new coefficients in force, and a held request is discarded (Table 5.3). -/
def Canceller.drop (k : Canceller) : Canceller × Swaps :=
  let k' := if k.apply then k.swap 0 0 else k
  ({ k' with fadeLeft := 0, held := false, oldErrs := [] }, { Swaps.none with discarded := b2n k.held })

/-- The canceller is bypassed from the next hop (R103). -/
def Canceller.bypass (k : Canceller) : Canceller × Swaps :=
  let (k, n) := k.drop
  ({ k with bypassed := true, bypassAt := none, silent := 0 }, n)

/-- Both banks are cleared for another tail length (R91). -/
def Canceller.retail (k : Canceller) (tail : Nat) : Canceller × Swaps :=
  let n := k.drop.2
  ({ Canceller.fresh tail with bypassed := k.bypassed, bypassAt := k.bypassAt, delay := k.delay, estimates := k.estimates,
                               silent := k.silent, fg := ⟨[], k.delay⟩, bg := ⟨[], k.delay⟩ }, n)

/-! ### The bulk delay (R95) -/

/-- An estimate of the delay after a hop, in samples: 20 ms to BulkDelayMax. -/
def delayFound (h : EchoIn) : Nat :=
  let ms := if h.wide then 16 else 8
  let most := h.par.bulkMax * ms
  max (20 * ms) (min most (Config.delayEstimate h.wide (h.ref 0 (most + windowLen h.wide)) h.rx))

/-- Whether the estimates of the last 500 ms of hops lie within one hop of each other. -/
def steady (hop : Nat) (l : List Nat) : Bool :=
  decide (250 ≤ l.length) && decide (l.foldl max 0 ≤ l.foldl min (l.headD 0) + hop)

/-- The delay after a hop: a steady estimate more than two hops away replaces it, and the background starts again there. -/
def Canceller.follow (k : Canceller) (h : EchoIn) : Canceller :=
  let x := delayFound h
  let n := hopLen h.wide
  let l := (x :: k.estimates).take 250
  if steady n l ∧ 2 * n < ((x : Int) - k.delay).natAbs then { k with estimates := l, delay := x, bg := ⟨[], x⟩ }
  else { k with estimates := l }

/-! ### One hop -/

/-- One hop of the canceller: the residual, the canceller after it, and what was counted. `off` tells that the hop ends with a
disable under R103, which comes before a request of the same hop. -/
def Canceller.hop (k : Canceller) (h : EchoIn) (off : Bool) : List Int × Canceller × Swaps :=
  let len := fadeSamples h.par h.wide
  let k := (k.begin_ len).noteErrors h
  let out := k.residual h.wide len
  let rx := energyOf h.bands
  let k := { k with converged := Config.converged rx (energyOf (k.fgErrs.headD [])) }
  let (k, fading, n) := k.fadeOn h.wide len
  let (k, asked) := (k.adapt h).compare h
  let k := k.follow h
  if off then
    let (k, m) := k.bypass
    (out, k, (n.add m).add { Swaps.none with requests := b2n asked, discarded := b2n asked })
  else
    let (k, m) := if asked then k.request fading else (k, Swaps.none)
    let (k, z) := k.settle
    (out, k, (n.add m).add z)

/-- One hop while bypassed (R103): the input passes, and 250 ms in which both signals stay below −36 dBm0 end the bypass. The flag
tells that they did. -/
def Canceller.idle (k : Canceller) (wide : Bool) (x ref : List Int) : Canceller × Bool :=
  let n := hopLen wide
  if Config.levelOf x < -36000 ∧ Config.levelOf ref < -36000 then
    let silent := k.silent + n
    if (if wide then 4000 else 2000) ≤ silent then ({ k with bypassed := false, silent := 0 }, true) else ({ k with silent := silent }, false)
  else ({ k with silent := 0 }, false)

end Sys2Proof.Machine
end

