-- ==== Sys2Proof/Machine/Detect.lean ====
section
/-! DEFINITION. The tone detectors (R100 to R104): what one hop does to each, and the events that it reports. -/
namespace Sys2Proof.Machine

/-- A tone event as a detector finds it (Table 5.5). -/
structure ToneEvent where
  event  : Nat
  tick   : Nat
  offset : Nat
  set    : Nat
  index  : Nat
  level  : Nat
  duration : Nat
  concealed : Bool
  truncated : Bool
  deriving DecidableEq, Repr

/-- The hop that a detector looks at: its rate, where it begins and ends in the signal (in 1/16 ms), whether it is CONCEALED, and the
20 ms of samples that end with it. -/
structure Look where
  wide : Bool
  pos  : Nat
  stop : Nat
  conceal : Bool
  win  : List Int
  deriving DecidableEq, Repr

/-- A level in dB below 0 dBm0, as an event record holds it. -/
def below0 (level : Int) : Nat := min 255 (-level / 1000).toNat
/-- The milliseconds between two places of a signal. -/
def msBetween (a b : Nat) : Nat := (b - a) / 16

/-- An event whose start is at a place of the signal (Table 5.5): ToneSet 0xFF and ToneIndex 0 except where the detector gives them. -/
def eventAt (wide : Bool) (code pos set index level duration : Nat) (concealed : Bool) : ToneEvent :=
  { event := code, tick := pos / 40, offset := if wide then pos % 40 else pos % 40 / 2, set := set, index := index, level := level,
    duration := duration, concealed := concealed, truncated := false }

/-! ### DTMF (R100) -/

/-- The nominal low tones. -/
def dtmfLow : List Nat := [697, 770, 852, 941]
/-- The nominal high tones. -/
def dtmfHigh : List Nat := [1209, 1336, 1477, 1633]
/-- The digit code of a row and a column. -/
def dtmfDigit (r c : Nat) : Nat := ([1, 2, 3, 12, 4, 5, 6, 13, 7, 8, 9, 14, 10, 0, 11, 15] : List Nat).getD (4 * r + c) 0

/-- Table 5.4 on one tone: accepted, rejected, or (none) either. -/
def dtmfTone (nominal : Nat) (freq level : Int) : Option Bool :=
  let dev := (freq - 1000 * nominal).natAbs
  if 35 * nominal < dev ∨ level < -42000 then some false
  else if 15 * nominal < dev ∨ level < -36000 ∨ 0 < level then none
  else some true

/-- Whether a digit is there: Table 5.4, where it allows either outcome the free one. -/
def dtmfThere (k : Look) (r c : Nat) : Bool :=
  let lo := dtmfLow.getD r 0
  let hi := dtmfHigh.getD c 0
  let a := Config.toneLevel k.wide k.win lo
  let b := Config.toneLevel k.wide k.win hi
  let x := dtmfTone lo (Config.toneFreq k.wide k.win lo) a
  let y := dtmfTone hi (Config.toneFreq k.wide k.win hi) b
  if x = some false ∨ y = some false ∨ a + 4000 < b ∨ b + 8000 < a ∨ min a b - 15000 ≤ Config.thirdLevel k.wide k.win lo hi then false
  else if x = some true ∧ y = some true then true
  else Config.dtmfEither k.wide k.win (dtmfDigit r c)

/-- The digit that a window holds. -/
def dtmfFind (k : Look) : Option Nat :=
  ((List.range 16).find? (fun i => dtmfThere k (i / 4) (i % 4))).map (fun i => dtmfDigit (i / 4) (i % 4))

/-- A digit that has been absent for 40 ms ends. -/
def dtmfEnd (k : Look) (s : DtmfState) (found : Option Nat) : DtmfState × List ToneEvent :=
  match s.on with
  | none => (s, [])
  | some g =>
    if found = some g then ({ s with gone := Run.none }, [])
    else
      let gone := s.gone.more k.pos k.conceal
      if gone.n < 20 then ({ s with gone := gone }, [])
      else ({ s with on := none, gone := Run.none },
            [eventAt k.wide 2 gone.since 0xFF g 0 (msBetween s.began gone.since) gone.conceal])

/-- A digit that has been valid for 40 ms is reported. -/
def dtmfBegin (k : Look) (s : DtmfState) (found : Option Nat) : DtmfState × List ToneEvent :=
  match found with
  | none => ({ s with valid := Run.none }, [])
  | some g =>
    if s.on = some g then ({ s with valid := Run.none }, [])
    else
      let r := if s.cand = g then s.valid else Run.none
      let valid := r.more k.pos k.conceal
      if valid.n < 20 ∨ s.on.isSome then ({ s with cand := g, valid := valid }, [])
      else ({ s with on := some g, began := valid.since, cand := g, valid := Run.none, gone := Run.none },
            [eventAt k.wide 1 valid.since 0xFF g (below0 (Config.levelOf k.win)) 0 valid.conceal])

/-- One hop of the DTMF detector. -/
def dtmfHop (k : Look) (s : DtmfState) : DtmfState × List ToneEvent :=
  let found := dtmfFind k
  let (s, l) := dtmfEnd k s found
  let (s, m) := dtmfBegin k s found
  (s, l ++ m)

/-! ### Call progress (R101) -/

/-- One hop of the call-progress detector: 25 hops in which the other state's condition held end a state. Each event carries the
duration of the state that it ends. -/
def cpHop (k : Look) (s : CpState) : CpState × List ToneEvent :=
  let band := Config.bandLevel k.wide k.win true
  let there := decide (-40000 < band) && decide (Config.bandLevel k.wide k.win false + 20000 < band)
  if there = s.on then ({ s with other := Run.none }, [])
  else
    let r := s.other.more k.pos k.conceal
    if r.n < 25 then ({ s with other := r }, [])
    else (⟨!s.on, r.since, Run.none⟩,
          [eventAt k.wide (if s.on then 4 else 3) r.since 0xFF 0 (if s.on then 0 else below0 band) (msBetween s.began r.since) r.conceal])

/-! ### Alert tones (R102) -/

/-- The highest frequency of a definition that is active at a rate: half of it, less 600 Hz. -/
def alertLimit (wide : Bool) : Nat := if wide then 7400 else 3400

/-- Whether one tone of a definition is there. -/
def alertTone (k : Look) (t : ToneDef) (f : Nat) : Bool :=
  decide ((Config.toneFreq k.wide k.win f - 1000 * f).natAbs ≤ t.tol * f) && decide (1000 * t.minLevel ≤ Config.toneLevel k.wide k.win f)

/-- Whether a window matches a definition. -/
def alertMatch (k : Look) (t : ToneDef) : Bool :=
  t.enable && decide (t.f1 ≤ alertLimit k.wide) && decide (t.f2 ≤ alertLimit k.wide) && alertTone k t t.f1
    && (decide (t.f2 = 0) || (alertTone k t t.f2
      && decide ((Config.toneLevel k.wide k.win t.f1 - Config.toneLevel k.wide k.win t.f2).natAbs ≤ 1000 * t.twist)))

/-- A continuous tone: reported after OnMin, and ended by 100 ms of absence. -/
def alertContinuous (k : Look) (t : ToneDef) (set i : Nat) (there : Bool) (s : AlertState) : AlertState × List ToneEvent :=
  if there = s.on then ({ s with run := Run.none }, [])
  else
    let r := s.run.more k.pos k.conceal
    if s.on then
      if r.n < 50 then ({ s with run := r }, [])
      else (AlertState.fresh, [eventAt k.wide 6 r.since set i 0 (msBetween s.began r.since) r.conceal])
    else if 2 * r.n < t.onMin then ({ s with run := r }, [])
    else ({ AlertState.fresh with on := true, began := r.since },
          [eventAt k.wide 5 r.since set i (below0 (Config.toneLevel k.wide k.win t.f1)) 0 r.conceal])

/-- Whether a period of so many hops lasted within limits in ms; a highest of 0 is none where `free`. -/
def lasted (n low high : Nat) (free : Bool) : Bool := decide (low ≤ 2 * n) && (decide (2 * n ≤ high) || (free && decide (high = 0)))

/-- A cadenced tone: full cycles in a row are counted, and the on period that comes after Cycles of them is reported at its start;
an off period beyond OffMax ends it. -/
def alertCadence (k : Look) (t : ToneDef) (set i : Nat) (there : Bool) (s : AlertState) : AlertState × List ToneEvent :=
  let first := Run.none.more k.pos k.conceal
  if there = s.present then
    let r := s.run.more k.pos k.conceal
    if !there && decide (t.offMax < 2 * r.n) then
      ({ s with on := false, run := r, good := false, cycles := 0 },
       if s.on then [eventAt k.wide 6 r.since set i 0 (msBetween s.began r.since) r.conceal] else [])
    else ({ s with run := r }, [])
  else if !there then
    let good := lasted s.run.n t.onMin t.onMax true
    ({ s with present := false, run := first, good := good, cycles := if good then s.cycles else 0 }, [])
  else
    let cycles := if s.good && lasted s.run.n t.offMin t.offMax false then s.cycles + 1 else 0
    let s := { s with present := true, run := first, good := false, cycles := cycles }
    if !s.on && decide (t.cycles ≤ cycles) then
      ({ s with on := true, began := k.pos },
       [eventAt k.wide 5 k.pos set i (below0 (Config.toneLevel k.wide k.win t.f1)) 0 k.conceal])
    else (s, [])

/-- One hop of the alert detectors: of the definitions that match, the lowest-numbered one is there. Only those whose Action asks for
it report. -/
def alertHop (k : Look) (set : Nat) (tones : List ToneDef) (l : List AlertState) : List AlertState × List ToneEvent :=
  let hit := tones.findIdx? (alertMatch k)
  let l := l.mapIdx (fun i s =>
    match tones[i]? with
    | none => (s, [])
    | some t =>
      let (s, ev) := if t.offMin = 0 then alertContinuous k t set i (decide (hit = some i)) s
        else alertCadence k t set i (decide (hit = some i)) s
      (s, if bitSet t.action 0 then ev else []))
  (l.map Prod.fst, l.flatMap Prod.snd)

/-- Whether an alert that is on is suppressed (Action bit 1). -/
def alertSuppressed (tones : List ToneDef) (l : List AlertState) : Bool :=
  (List.range l.length).any (fun i => (l[i]?).any AlertState.on && (tones[i]?).any (fun t => bitSet t.action 1))

/-! ### The answer tone (R103) -/

/-- One hop of the answer-tone detector: the tone is reported after 300 ms, and a phase reversal of the same tone once, where
AnswerToneDisable is set. The flag is the latter's. -/
def answerHop (k : Look) (disable : Bool) (s : Detect) : Detect × List ToneEvent × Bool :=
  let level := Config.toneLevel k.wide k.win 2100
  if decide (21000 < (Config.toneFreq k.wide k.win 2100 - 2100000).natAbs) || decide (level < -31000) then
    ({ s with answer := Run.none, told := 0 }, [], false)
  else
    let r := s.answer.more k.pos k.conceal
    if s.told = 0 then
      if r.n < 150 then ({ s with answer := r }, [], false)
      else ({ s with answer := r, told := 1 }, [eventAt k.wide 7 r.since 0xFF 0 (below0 level) 0 r.conceal], false)
    else
      let jump := Config.phaseJump k.wide k.win
      if s.told = 1 ∧ disable ∧ 155 ≤ jump ∧ jump ≤ 205 then
        ({ s with answer := r, told := 2 }, [eventAt k.wide 8 k.pos 0xFF 0 (below0 level) 0 k.conceal], true)
      else ({ s with answer := r }, [], false)

end Sys2Proof.Machine
end

