-- ==== Sys2Proof/Machine/Chain.lean ====
section
/-! DEFINITION. The treatment of a frame (R90, Table 5.1): decoding and concealment (R84), and stages 2 to 8 hop by hop. It depends on
samples and parameters only. -/
namespace Sys2Proof.Machine

/-! ### The frame that is treated (R84) -/

/-- A payload as the codec library is given it: its length is told by the highest bit. -/
def payloadOf (b : Bytes) : Nat := b.val + 2 ^ (8 * b.len)

/-- The k-th concealed frame in a row: the codec's own concealment, for ConcealFadeFrames; then one frame in which it fades to comfort
noise at the last measured level; then that noise. -/
def concealed (t : Treat) (codec k fade n : Nat) : List Int :=
  let own := satSamples n (Config.conceal codec t.decoder k)
  let noise := satSamples n (Config.fadeNoise t.lastLevel k)
  if k ≤ fade then own
  else if k = fade + 1 then
    (List.range n).map (fun i =>
      let w : Int := (min 65536 (Config.fadeWeight i n) : Nat)
      ((65536 - w) * own.getD i 0 + w * noise.getD i 0) / 65536)
  else noise

/-- The samples of a decided frame of n samples at its treatment rate. -/
def decodedFrame (t : Treat) (s : Slot) (n : Nat) : List Int :=
  match s.kind with
  | .fill => List.replicate n 0
  | .played _ => satSamples n (Config.decode s.codec t.decoder (payloadOf s.data))
  | .dtx => satSamples n (Config.dtxNoise s.codec t.decoder)
  | .missing => concealed t s.codec s.run s.params.concealFade n
  | .inserted => concealed t s.codec s.run s.params.concealFade n

/-- Whether a slot is CONCEALED. -/
def SlotKind.isConcealed : SlotKind → Bool
  | .missing => true
  | .inserted => true
  | _ => false
/-- Whether a slot is FILL. -/
def SlotKind.isFill : SlotKind → Bool
  | .fill => true
  | _ => false
/-- Whether a packet plays. -/
def SlotKind.isPlayed : SlotKind → Bool
  | .played _ => true
  | _ => false

/-- What the decoding of a frame leaves: the decoder's state, and the level of a frame that played. -/
def Treat.decoded (t : Treat) (s : Slot) (l : List Int) : Treat :=
  { t with decoder := Config.decoderNext s.codec t.decoder (if s.kind.isPlayed then payloadOf s.data + 1 else 0),
           lastLevel := if s.kind.isPlayed then Config.levelOf l else t.lastLevel }

/-! ### The reference (R93) -/

/-- The samples of slot t of a send stream at a treatment rate; a slot never produced reads as zeros. -/
def sentSlot (st : Option SendStream) (wide : Bool) (t : Nat) : List Int :=
  let n := if wide then 40 else 20
  match st with
  | none => List.replicate n 0
  | some s =>
    match sfind s.slots t with
    | none => List.replicate n 0
    | some l => satSamples n (if l.length = n then l else Config.resample wide (sget s.slots (t - 1) []) l)

/-- n samples of the reference before sample `stop`, for the frame of tick f, which may use slots up to f − 8. -/
def refSamples (st : Option SendStream) (wide : Bool) (f stop n : Nat) : List Int :=
  let w := if wide then 40 else 20
  (List.range n).map (fun i =>
    let k := stop + i - n
    if stop + i < n ∨ f < k / w + 8 then 0 else (sentSlot st wide (k / w)).getD (k % w) 0)

/-! ### Stages 4, 6, 7 and 8 on one hop -/

/-- The non-linear processor on one hop's residual (R99): a subband in which the reference exceeds the residual by NlpThreshold is
replaced. Where none is, the samples pass unchanged. -/
def nlpHop (p : Params) (wide quiet : Bool) (lfsr : Nat) (noise : List Nat) (res ref : List (Int × Int)) (x : List Int)
    (before : List (List (Int × Int))) : List Int × List (List (Int × Int)) :=
  let hit := fun (i : Nat) => quiet && aboveBy p.nlpThreshold (bandEnergy (ref.getD i (0, 0))) (bandEnergy (res.getD i (0, 0)))
  let bands := res.mapIdx (fun i r =>
    if hit i then (if p.nlpMode = 2 then Config.comfortBand (iterate lfsrStep (i + 1) lfsr) (noise.getD i 0) p.cnLimit else (0, 0)) else r)
  let l := (bands :: before).take 4
  (if (List.range (bandCount wide)).any hit then synthesise wide l else x, l)

/-- The smoothed energies, and the noise estimate, after a hop (R105). -/
def Treat.hear (t : Treat) (wide : Bool) (e : List Nat) (learn : Bool) : Treat :=
  let smooth := e.mapIdx (fun i x => Config.bandSmooth (t.smooth.getD i 0) x)
  let recent := (smooth :: t.recent).take 750
  let least := fun (i : Nat) => recent.foldl (fun m l => min m (l.getD i 0)) (smooth.getD i 0)
  { t with smooth := smooth, recent := recent, noise := if learn then (List.range (bandCount wide)).map least else t.noise }

/-- Noise reduction on one hop (R106). -/
def noiseHop (p : Params) (wide : Bool) (noise : List Nat) (bands : List (Int × Int)) (before : List (List (Int × Int))) :
    List Int × List (List (Int × Int)) :=
  let out := bands.mapIdx (fun i b => Config.attenuate (min (10 * p.noiseMax) (Config.attenuation (bandEnergy b) (noise.getD i 0))) b)
  let l := (out :: before).take 4
  (synthesise wide l, l)

/-- The adaptive gain after a hop, in 0.001 dB (R106): toward LevelTarget within GainMin and GainMax, at no more than the slew of one
hop of 2 ms. -/
def gainNext (p : Params) (gain level : Int) : Int :=
  let want := clampInt (1000 * p.gainMin) (1000 * p.gainMax) (1000 * p.target - level)
  gain + clampInt (-(2 * p.slewDown : Nat)) (2 * p.slewUp : Nat) (want - gain)

/-- The gain in force, in 0.001 dB. -/
def totalGain (p : Params) (gain : Int) : Int := if p.level then 500 * p.fixedGain + gain else 0

/-! ### The chain -/

/-- What a frame is treated with. -/
structure ChainIn where
  wide  : Bool
  par   : Params
  tick  : Nat
  conceal : Bool
  fill  : Bool
  samples : List Int
  send  : Option SendStream     -- the send stream of the channel's endpoint

/-- What treatment has made of a frame so far. -/
structure Chain where
  canc   : Canceller
  treat  : Treat
  out    : List Int             -- treated samples
  spoke  : List Bool            -- the hops' speech decisions, in order
  events : List ToneEvent
  swaps  : Swaps
  turned : Bool                 -- the canceller was disabled under R103
  erle   : Int

/-- Stages 2 and 3 on a hop: the residual, and the reference's subbands where stage 4 takes part. -/
def echoHop (c : ChainIn) (a : Chain) (k : Look) (x : List Int) (h : EchoIn) : Chain × List Int × Option (List (Int × Int)) :=
  if !c.par.echo then (a, x, none)
  else
    let (det, ev, off) := answerHop k c.par.answerDisable a.treat.detect
    let a := { a with treat := { a.treat with detect := det }, events := a.events ++ ev }
    if a.canc.bypassed then
      let (canc, back) := a.canc.idle c.wide x (h.ref (8 * (if c.wide then 40 else 20)) (hopLen c.wide))
      ({ a with canc := canc, events := a.events ++ (if back then [eventAt c.wide 9 k.pos 0xFF 0 0 0 k.conceal] else []) }, x, none)
    else
      let ref := analyse c.wide (h.ref a.canc.delay (fftLen c.wide))
      let (res, canc, n) := a.canc.hop h off
      let erle := Config.erle (energyOf h.bands) (energyOf (canc.fgErrs.headD []))
      ({ a with canc := canc, swaps := a.swaps.add n, turned := a.turned || off, erle := erle }, res, some ref)

/-- Stage 5 on a hop of the residual: the events, and whether the hop is marked for suppression. -/
def detectHop (c : ChainIn) (s : Detect) (k : Look) : Detect × List ToneEvent × Bool :=
  let p := c.par
  let mark := (p.dtmf && p.dtmfSuppress && s.dtmf.on.isSome) || (decide (p.toneSet ≠ 255) && alertSuppressed p.tones s.alerts)
  let (dt, e1) := if p.dtmf then dtmfHop k s.dtmf else (s.dtmf, [])
  let (cp, e2) := if p.callProgress then cpHop k s.cp else (s.cp, [])
  let (al, e3) := if p.toneSet ≠ 255 then alertHop k p.toneSet p.tones s.alerts else (s.alerts, [])
  ({ s with dtmf := dt, cp := cp, alerts := al }, e1 ++ e2 ++ e3, mark)

/-- One hop of the chain, in the order of Table 5.1. -/
def chainHop (c : ChainIn) (a : Chain) (i : Nat) : Chain :=
  let n := hopLen c.wide
  let w := windowLen c.wide
  let p := c.par
  let x := (List.range n).map (fun j => c.samples.getD (i * n + j) 0)
  let pos := 40 * c.tick + 32 * i
  let stop := (if c.wide then 40 else 20) * c.tick + (i + 1) * n
  let t := { a.treat with rx := lastOf w (a.treat.rx ++ x) }
  let bands := analyse c.wide t.rx
  let h : EchoIn := { wide := c.wide, par := p, bands := bands, rx := t.rx, frozen := c.conceal || c.fill,
                      ref := fun lag m => refSamples c.send c.wide c.tick (stop - lag) m }
  let look := fun (l : List Int) => (⟨c.wide, pos, pos + 32, c.conceal, l⟩ : Look)
  let quiet := !Config.speech c.wide (bands.map bandEnergy) t.noise
  let (a, res, ref) := echoHop c { a with treat := t } (look t.rx) x h
  let t := { a.treat with res := lastOf w (a.treat.res ++ res) }
  let (det, ev, mark) := detectHop c t.detect (look t.res)
  let resBands := analyse c.wide t.res
  let (y, nlpBands) := match ref with
    | some r => if p.nlpMode = 0 then (res, (resBands :: t.nlpBands).take 4) else nlpHop p c.wide quiet t.lfsr t.noise resBands r res t.nlpBands
    | none => (res, (resBands :: t.nlpBands).take 4)
  let t := { t with detect := det, nlp := lastOf w (t.nlp ++ y), nlpBands := nlpBands, lfsr := iterate lfsrStep (bandCount c.wide) t.lfsr }
  let yb := analyse c.wide t.nlp
  let e := yb.map bandEnergy
  let spoke := Config.speech c.wide e t.noise
  let t := t.hear c.wide e (!spoke && !c.conceal && !c.fill)
  let (z, outBands) := if p.noise then noiseHop p c.wide t.noise yb t.outBands else (y, (yb :: t.outBands).take 4)
  let z := if mark then satSamples n (Config.comfortSamples t.lfsr t.noise n) else z
  let gain := if p.level && spoke && !c.conceal then gainNext p t.gain (Config.levelOf z) else t.gain
  let out := satSamples n (if p.level then z.map (Config.applyGain (totalGain p gain)) else z)
  { a with treat := { t with outBands := outBands, gain := gain }, out := a.out ++ out, spoke := a.spoke ++ [spoke], events := a.events ++ ev }

/-- What a frame begins with: a canceller whose tail is another one starts again (R91), and so does everything that is held at another
treatment rate (R67). -/
def chainStart (c : ChainIn) (canc : Canceller) (t : Treat) : Chain :=
  let fresh := decide (t.wide ≠ c.wide)
  let (canc, n) := if fresh || decide (canc.tail ≠ c.par.tail) then canc.retail c.par.tail else (canc, Swaps.none)
  let t := if fresh then { Treat.fresh c.wide t.lfsr (40 * c.tick) with decoder := t.decoder, encoder := t.encoder, lastLevel := t.lastLevel,
                                                                        sentSilent := t.sentSilent, gain := t.gain } else t
  { canc := canc, treat := t, out := [], spoke := [], events := [], swaps := n, turned := false, erle := 0 }

/-- A frame treated: its hops of 2 ms (R90), 10 of a 20 ms frame and 5 of a 10 ms frame. -/
def treat (c : ChainIn) (canc : Canceller) (t : Treat) : Chain :=
  let ticks := c.samples.length / (if c.wide then 40 else 20)
  let a := (List.range (ticks * 5 / 4)).foldl (chainHop c) (chainStart c canc t)
  { a with treat := { a.treat with last := a.out } }

end Sys2Proof.Machine
end

