-- ==== Sys2Proof/Machine/Treatment.lean ====
section
/-! DEFINITION. What treatment means to the device: profile costs and parameters (R91, R92), the canceller's counters (R98, R103), tone
events (R104), the mix that a member sends (R110). -/
namespace Sys2Proof.Machine

/-- The cost of a profile in hundredths of a draught unit, from its parameters (R92, Table 5.2). -/
def profileCostOf (v : Row → Int) (wide : Bool) : Nat :=
  let echo := if v Obj.echoEnable ≠ 0 then
      (if wide then 80 else 90) + 20 * (((v (if wide then Obj.tailWideband else Obj.tailNarrowband)).toNat) / 16) + 5 else 0
  let dtmf := if v Obj.dtmfDetect ≠ 0 ∨ v Obj.callProgress ≠ 0 then 15 else 0
  let alert := if v Obj.toneSet ≠ 255 then 20 else 0
  let noise := if v Obj.noiseReduction ≠ 0 then 30 else 0
  let level := if v Obj.levelControl ≠ 0 then 20 else 0
  echo + dtmf + alert + noise + level + 20

/-- The cost of profile p in force. -/
def profileCost (d : Dev) (p : Nat) (wide : Bool) : Nat := profileCostOf (fun r => oget d r p 0) wide

/-- The profile of a channel. -/
def profileOf (x : Channel) : Nat := getF x.body ChBody.treatmentProfile

/-- Channels open or pending on a profile (0x2710:1C). -/
def channelsUsing (d : Dev) (p : Nat) : Nat :=
  let on := (d.chans.filter (fun c => decide (profileOf c.2 = p))).map Prod.fst
  let due := (d.setup.pending.filter (fun r =>
    (decide (r.kind = 3) || decide (r.kind = 5)) && decide (getF r.body.val ChBody.treatmentProfile = p))).map SetupRec.subject
  (on ++ due).eraseDups.length

/-! ### Parameters (R91) -/

/-- Definition k of tone set n in force in epoch unit u (0x2740). -/
def toneDefOf (d : Dev) (u n k : Nat) : ToneDef :=
  let v := fun (r : Row) => ogetU d u r (16 * n + k) 0
  { enable := v Obj.toneEnable != 0, f1 := (v Obj.toneFrequency1).toNat, f2 := (v Obj.toneFrequency2).toNat,
    tol := (v Obj.frequencyTolerance).toNat, minLevel := v Obj.minLevel, twist := (v Obj.maxTwist).toNat,
    onMin := (v Obj.toneOnMin).toNat, onMax := (v Obj.toneOnMax).toNat, offMin := (v Obj.toneOffMin).toNat,
    offMax := (v Obj.toneOffMax).toNat, cycles := (v Obj.toneCycles).toNat, action := (v Obj.toneAction).toNat }

/-- The parameters of profile p in force in epoch unit u, for a treatment rate. -/
def paramsOf (d : Dev) (u p : Nat) (wide : Bool) : Params :=
  let v := fun (r : Row) => ogetU d u r p 0
  let n := fun (r : Row) => (v r).toNat
  let set := n Obj.toneSet
  { echo := v Obj.echoEnable != 0, tail := n (if wide then Obj.tailWideband else Obj.tailNarrowband), bulkMax := n Obj.bulkDelayMax,
    fade := n Obj.fadeLength, margin := n Obj.swapMargin, hold := n Obj.swapHold, nlpMode := n Obj.nlpMode,
    nlpThreshold := n Obj.nlpThreshold, cnLimit := v Obj.comfortNoiseLimit, toneSet := set, dtmf := v Obj.dtmfDetect != 0,
    dtmfSuppress := v Obj.dtmfSuppress != 0, callProgress := v Obj.callProgress != 0, answerDisable := v Obj.answerToneDisable != 0,
    noise := v Obj.noiseReduction != 0, noiseMax := n Obj.noiseReductionMax, level := v Obj.levelControl != 0, target := v Obj.levelTarget,
    gainMax := v Obj.gainMax, gainMin := v Obj.gainMin, slewUp := n Obj.gainSlewUp, slewDown := n Obj.gainSlewDown,
    fixedGain := v Obj.fixedGain, concealFade := (ogetU d u Obj.concealFadeFrames 0 0).toNat,
    tones := if set < 16 then (List.range 16).map (toneDefOf d u set) else [] }

/-- The epoch unit of channel x: its hearth (Table 4.9). -/
def unitOf (x : Channel) : Nat := 48 + x.engine / 16

/-! ### Tone events (R104) -/

/-- The record of an event (Table 5.5). -/
def toneRecord (c seq : Nat) (e : ToneEvent) : Nat :=
  let v := setF (setF (setF (setF 0 ToneRec.startTick e.tick) ToneRec.channel c) ToneRec.duration (min 65535 e.duration))
    ToneRec.toneSet e.set
  let v := setF (setF (setF (setF v ToneRec.toneIndex e.index) ToneRec.event e.event) ToneRec.level e.level)
    ToneRec.truncated (b2n e.truncated)
  setF (setF (setF v ToneRec.concealed (b2n e.concealed)) ToneRec.sampleOffset e.offset) ToneRec.sequence seq

/-- The states begun and not ended, after an event: DTMF, call progress and alert states have an end event. -/
def toneStates (wide : Bool) (l : List (Nat × Nat × Nat × Nat)) (e : ToneEvent) : List (Nat × Nat × Nat × Nat) :=
  if e.event = 1 ∨ e.event = 3 ∨ e.event = 5 then (e.event, e.set, e.index, posAt wide e.tick e.offset) :: l
  else if e.event = 2 ∨ e.event = 4 ∨ e.event = 6 then
    l.filter (fun p => !(decide (p.1 + 1 = e.event) && decide (p.2.1 = e.set) && decide (p.2.2.1 = e.index)))
  else l

/-- A tone event of channel c: to ToneEventQueue, and to the evidence of a recorded channel (R104). -/
def toneEvent (d : Dev) (c : Nat) (e : ToneEvent) : Dev :=
  match chanOf d c with
  | none => d
  | some x =>
    let seq := x.events % 65536
    let rec_ := bytesOf 24 (toneRecord c seq e)
    let d := setChan d c { x with events := (x.events + 1) % 65536, tones := toneStates x.rate16 x.tones e }
    let d := bump (bump d Obj.toneEventsDetected 0 0) Obj.toneEvents c 0
    let q := ogetN d Obj.toneEventQueue 0 0
    let (d, ok) := if q = 0xFFFFFFFF then (d, false) else qPushBytes d q rec_
    let d := if ok then bump d Obj.toneEventsPushed 0 0 else bump d Obj.toneEventsRefused 0 0
    if x.recorded then offerEvent d (getF x.body ChBody.evidenceStream) e.tick 6 seq e.offset rec_ else d

/-- The states that end because channel c closes or leaves its group at tick n: their end events are TRUNCATED, and the detectors
start again. -/
def truncateTones (d : Dev) (c n : Nat) : Dev :=
  match chanOf d c with
  | none => d
  | some x =>
    let d := x.tones.foldl (fun d p =>
      toneEvent d c { event := p.1 + 1, tick := n, offset := 0, set := p.2.1, index := p.2.2.1, level := 0,
                      duration := msBetween p.2.2.2 (40 * n), concealed := false, truncated := true }) d
    onChan d c (fun x => { x with treat := { x.treat with detect := Detect.fresh (40 * n) } })

/-! ### The canceller's counters (R98) -/

/-- A change of channel c's canceller. -/
def onCanc (d : Dev) (c : Nat) (f : Canceller → Canceller) : Dev := onChan d c (fun x => { x with canceller := f x.canceller })

/-- What a hop or an event has counted for Table 5.3. -/
def countSwaps (d : Dev) (c : Nat) (n : Swaps) : Dev :=
  bumpBy (bumpBy (bumpBy (bumpBy d Obj.swapRequests c 0 n.requests) Obj.swapsApplied c 0 n.applied) Obj.swapsSuperseded c 0 n.superseded)
    Obj.swapsDiscarded c 0 n.discarded

/-- A fade in progress ends and a held request is discarded (Table 5.3). -/
def dropSwap (d : Dev) (c : Nat) : Dev :=
  match chanOf d c with
  | none => d
  | some x => countSwaps (onCanc d c (fun k => k.drop.1)) c x.canceller.drop.2

/-- The canceller of channel c is bypassed (R103). -/
def bypassCanceller (d : Dev) (c : Nat) : Dev :=
  match chanOf d c with
  | none => d
  | some x =>
    if x.canceller.bypassed then d
    else bump (countSwaps (onCanc d c (fun k => k.bypass.1)) c x.canceller.bypass.2) Obj.answerToneBypasses c 0

/-! ### The mix (R110) -/

/-- round_shift. -/
def roundShift (sh : Nat) (x : Int) : Int := if sh = 0 then x else (x + ((2 ^ (sh - 1) : Nat) : Int)) / ((2 ^ sh : Nat) : Int)

/-- The sums of a closed round as its result slot holds them: 40 sums of 32 bits from byte 64 on (Table 7.7). -/
def slotSum (r : OaResult) (i : Nat) : Int := toSigned 32 (sliceBytes r.slot (64 + 4 * i) 4)

/-- The samples that a member sends for tick t of group g (R110), under the MixShift in force at its close (R111), and how many of them
were saturated. Ticks with no result give zeros. -/
def mixTick (d : Dev) (g member t : Nat) : List Int × Nat :=
  let sh := (ogetPast d (t + 8) Obj.mixShift 0 0).toNat
  match sfind (oaOf d g).results t with
  | none => (List.replicate 40 0, 0)
  | some r =>
    let own := sget r.own member []
    let exact := (List.range 40).map (fun i => roundShift sh (slotSum r i - own.getD i 0))
    (exact.map (clampInt (-32768) 32767), (exact.filter (fun x => decide (x < -32768) || decide (32767 < x))).length)

end Sys2Proof.Machine
end

