-- ==== Sys2Proof/Machine/Cost.lean ====
section
/-! DEFINITION. The codec library (Table 4.7), the cost and the cipher load of a channel (R76 to R78), the check of a rise of
either, and the choice of engine and frame phase (R17, R78). -/
namespace Sys2Proof.Machine

/-- Encode hc per 20 ms frame (Table 4.7). -/
def encodeHc (codec : Nat) : Nat := [0, 2000, 2000, 24000, 30000, 32000, 52000, 90000, 70000].getD codec 0
/-- Decode hc per 20 ms frame. -/
def decodeHc (codec : Nat) : Nat := [0, 2000, 2000, 20000, 8000, 9000, 14000, 24000, 18000].getD codec 0

/-- The output rate of line port p, Hz (R258, Table 13.2). -/
def lineRate (d : Dev) (p : Nat) : Nat :=
  let k := ogetN d Obj.preset p 0
  if k < 4 then rateOfLM (presetL k) (presetM k)
  else rateOfLM (ogetN d Obj.cicLength p 0) (ogetN d Obj.firDecimation p 0)

/-- Whether codec `codec` of endpoint e has the 16 kHz treatment rate; codec 0 has its port's rate (R263). -/
def wideCodec (d : Dev) (e codec : Nat) : Bool :=
  if codec = 0 then decide (lineRate d (epF d e Ep.linePort) = 16000) else [3, 6, 7, 8].contains codec

/-- The largest payload of a frame of `ft` ticks (R76, Table 4.7). -/
def largestPayload (wide : Bool) (codec ft : Nat) : Nat :=
  let p := if codec = 0 then (if wide then 640 else 320) else [0, 160, 160, 160, 20, 20, 62, 322, 1275].getD codec 0
  if codec = 8 ∨ ft = 8 then p else p / 2

/-- Speech bits of an AMR-WB frame by mode (PRESUMED: RFC 4867, Table 2). -/
def amrWbBits (mode : Nat) : Nat := [132, 177, 253, 285, 317, 365, 397, 461, 477].getD mode 0

/-- The payload of a frame sent under a codec at CodecMode (R78); the payload formats are PRESUMED. -/
def sentPayload (codec mode options ft : Nat) : Nat :=
  let ms := ft * 5 / 2
  match codec with
  | 0 => 0
  | 4 => ms
  | 5 => ms
  | 6 => if options % 2 = 1 then 2 + ceilDiv (amrWbBits mode) 8 else ceilDiv (10 + amrWbBits mode) 8
  | 7 => ceilDiv (Config.evsBits mode) 8
  | 8 => mode * ms / 8
  | _ => 8 * ms

/-- Octets of an SRTP tag (Table 3.8). -/
def tagOctets (suite : Nat) : Nat := [10, 4, 10, 4, 16, 16].getD suite 0

/-- Octets of a media frame of endpoint e around a payload, from destination address to FCS (R78). -/
def frameOctets (d : Dev) (e payload : Nat) : Nat :=
  14 + (if epF d e Ep.vlan = 0 then 0 else 4) + (if epF d e Ep.kind = 1 then 40 else 20) + 8 + 12 + payload
    + epF d e Ep.mkiLength + tagOctets (epF d e Ep.srtpSuite) + 4

/-- The cipher load of a channel that receives from endpoint e and sends to `out`, bit/s (R78). -/
def cipherLoad (d : Dev) (e : Nat) (out : Option Nat) : Nat :=
  let one := fun (k payload : Nat) =>
    if epF d k Ep.kind = 2 then 0 else frameOctets d k payload * 3200 / max 1 (epF d k Ep.frameTicks)
  let codec := epF d e Ep.rxCodec
  let r := one e (largestPayload (wideCodec d e codec) codec (epF d e Ep.frameTicks))
  match out with
  | none => r
  | some o => r + one o (sentPayload (epF d o Ep.txCodec) (epF d o Ep.codecMode) (epF d o Ep.codecOptions) (epF d o Ep.frameTicks))

/-- CipherCommitted, bit/s. -/
def cipherCommitted (d : Dev) : Nat := sumNat (d.chans.map (fun c => c.2.cipher))

/-- The cost of a channel, hundredths of a draught unit (R77). -/
def channelCost (d : Dev) (e : Nat) (out : Option Nat) (profile : Nat) : Nat :=
  let rx := epF d e Ep.rxCodec
  let wide := wideCodec d e rx
  let base := decodeHc rx / 200 + profileCost d profile wide + 40
  match out with
  | none => base
  | some o =>
    let tx := epF d o Ep.txCodec
    base + encodeHc tx / 200 + (if wideCodec d o tx = wide then 0 else ogetN d Obj.rateConversionCost 0 0)

/-- What a channel would cost. -/
structure Plan where
  chan   : Nat
  cost   : Nat
  cipher : Nat
  deriving DecidableEq, Repr

/-- The plan of channel c as it stands, sending to `out` under a profile. -/
def planOf (d : Dev) (c : Nat) (x : Channel) (out : Option Nat) (profile : Nat) : Plan :=
  ⟨c, channelCost d x.endpoint out profile, cipherLoad d x.endpoint out⟩

/-- Hundredths that the plans add on engine e. -/
def addedOn (d : Dev) (l : List Plan) (e : Nat) : Nat :=
  sumNat (l.map (fun p => match chanOf d p.chan with
    | some x => if x.engine = e then p.cost - x.cost else 0
    | none => 0))

/-- The check of a rise on the channels' own engines (R77, Table 4.4): 0, or CIPHER, DEFICIT or CAPACITY. -/
def riseStatus (d : Dev) (l : List Plan) : Nat :=
  let old := sumNat (l.map (fun p => ((chanOf d p.chan).map Channel.cipher).getD 0))
  let new := sumNat (l.map Plan.cipher)
  if old < new ∧ 100000000000 < cipherCommitted d + new - old then 11
  else
    match (List.range 192).find? (fun e => decide (addedOn d l e ≠ 0) && (decide (deficitOf d e ≠ 0) || decide (freeOf d e < addedOn d l e))) with
    | none => 0
    | some e => if deficitOf d e ≠ 0 then 9 else 8

/-- A plan takes effect: the channel's cost and cipher load, its thread's Cost (R77). -/
def applyPlan (d : Dev) (p : Plan) : Dev :=
  match chanOf d p.chan with
  | none => d
  | some x =>
    let d := setChan d p.chan { x with cost := p.cost, cipher := p.cipher }
    match tcbOf d x.thread with
    | none => d
    | some k => if k.cost = p.cost then d else noteDeficit (setTcb d x.thread { k with cost := p.cost }) k.home

/-- The frame work of a channel per 20 ms, hc (R17): 200 hc for each hundredth of a draught unit of its cost. -/
def frameWorkHc (x : Channel) : Nat := x.cost * 200

/-- The frame work committed to phase q of engine e (R17). -/
def phaseWork (d : Dev) (e q : Nat) : Nat :=
  sumNat (d.chans.map (fun c =>
    if c.2.engine ≠ e then 0
    else if c.2.frameTicks = 8 then (if c.2.phase = q then frameWorkHc c.2 else 0)
    else if c.2.phase % 4 = q % 4 then frameWorkHc c.2 / 2 else 0))

/-- The frame phase of a new channel on engine e (R17): the least committed frame work, the lowest phase on a tie. -/
def choosePhase (d : Dev) (e ft : Nat) : Nat :=
  let work := fun (q : Nat) => if ft = 8 then phaseWork d e q else phaseWork d e q + phaseWork d e (q + 4)
  (List.range (if ft = 8 then 8 else 4)).foldl (fun best q => if work q < work best then q else best) 0

/-- The powered engines that HearthHint allows. -/
def eligibleEngines (d : Dev) (hint : Nat) : List Nat :=
  (List.range (enginesOf d)).filter (fun e => decide (hint = 0xFF) || decide (e / 16 = hint))

/-- The engine of a new channel (R78): an engine, or the status THREADS, DEFICIT or CAPACITY. -/
def chooseEngine (d : Dev) (cost hint : Nat) : Nat ⊕ Nat :=
  let all := eligibleEngines d hint
  let roomy := all.filter (fun e => decide (deficitOf d e = 0) && decide (cost ≤ freeOf d e))
  match roomy.filter (fun e => decide (runnableOn d e < 512)) with
  | e :: r => .inl (r.foldl (fun best e => if freeOf d best < freeOf d e then e else best) e)
  | [] =>
    if !roomy.isEmpty then .inr 12
    else if all.any (fun e => decide (deficitOf d e ≠ 0)) then .inr 9
    else .inr 8

end Sys2Proof.Machine
end

