-- ==== Sys2Proof/Machine/Inputs.lean ====
section
/-! DEFINITION. The payloads of commands: what comes in from outside the device, as the chapter that takes it lays it out. -/
namespace Sys2Proof.Machine

/-- What a PTP message tells (R23). Times are network times of the master, intervals and corrections, in 2⁻¹⁶ ns. -/
inductive PtpKind where
  | announce (data : ClockData) (interval : Nat)
  | grant (service : Nat) (on : Bool)            -- unicast negotiation: 0 Announce, 1 Sync, 2 Delay_Resp granted or cancelled
  | sync (seq : Nat) (twoStep : Bool) (origin : Nat) (corr : Int)
  | followUp (seq : Nat) (origin : Nat) (corr : Int)
  | delayResp (seq : Nat) (receipt : Nat) (corr : Int)
  | pdelayResp (seq : Nat) (turnaround : Int) (corr : Int)
  | management
  deriving DecidableEq, Repr

/-- A PTP message with what selects its slot: domainNumber, transport code of 0x2201:05 and VLAN. -/
structure PtpMsg where
  domain    : Nat
  transport : Nat
  vlan      : Nat
  kind      : PtpKind
  deriving DecidableEq, Repr

/-- What a UDP payload to a media address holds, and what the cipher pipeline finds: whether its tag verifies under the
receive key, and under the previous one (R51, R66, Table 3.9). -/
structure MediaInfo where
  ssrc     : Nat
  pt       : Nat              -- RTP payload type; RTCP packet type
  seq      : Nat
  ts       : Nat
  marker   : Bool
  sid      : Bool             -- the payload is a SID frame of RxCodec
  mki      : Nat
  okNew    : Bool
  okPrev   : Bool
  index    : Nat              -- SRTCP: its index
  overflow : Bool             -- the pipeline's input queue was full (Table 3.9)
  payload  : Bytes            -- decrypted payload
  deriving DecidableEq, Repr

/-- What a received frame is, so far as Table 3.6 asks. -/
inductive FrameKind where
  | pause (dst quanta : Nat)                        -- IEEE 802.3 PAUSE: destination address and pause time
  | pfc (dst enable : Nat) (quanta : List Nat)      -- IEEE 802.1Qbb: class enable vector and eight times
  | control (dst : Nat)                             -- another MAC control frame
  | ptp (m : PtpMsg)
  | twin                                            -- twin-link traffic; its content comes in commands of its own
  | udp (m : MediaInfo)
  | plain
  deriving DecidableEq, Repr

/-- A received frame: its octets, and what the MAC, the PCS and the parser find. -/
structure Frame where
  data   : Bytes              -- without its FCS
  fcs    : Nat                -- the FCS, first octet lowest
  fixed  : Nat                -- codewords that FEC has corrected on the port since the frame before
  lost   : Nat                -- codewords that it could not correct
  fcsBad : Bool
  align  : Option Nat         -- octet at which an alignment error stands
  code   : Option Nat         -- octet at which a code error stands
  full   : Bool               -- no room in the ingress crossing FIFO
  tags   : Nat                -- IEEE 802.1Q or 802.1ad tags
  prio   : Nat                -- Ethernet priority
  key    : Nat                -- its flow key (Table 3.7), every field
  srcMac : Nat
  prp    : Option Nat         -- sequence number of its redundancy control trailer
  kind   : FrameKind
  deriving DecidableEq, Repr

end Sys2Proof.Machine
end

