-- ==== Sys2Proof/Machine/Octets.lean ====
section
/-! DEFINITION. The octets of frames that the device builds: network order, checksums, UDP packets and PTP messages. The layouts
are those of the protocols' own standards (PRESUMED, log entry 76), and what the spec leaves of them open is in Config. -/
namespace Sys2Proof.Machine

/-- A list of octets, first octet first, as bytes. -/
def octets (l : List Nat) : Bytes := ⟨l.length, l.foldr (fun b v => b % 256 + 256 * v) 0⟩
/-- A number as `n` octets in network order. -/
def netOctets : Nat → Nat → List Nat
  | 0, _ => []
  | n + 1, v => v / 256 ^ n % 256 :: netOctets n v
/-- The octets of a record whose first octet lies at the lowest byte. -/
def lowOctets (n v : Nat) : List Nat := (List.range n).map (fun i => bitsAt v (8 * i) 8)
/-- The ones-complement sum of the 16-bit words of some octets (RFC 1071). -/
def wordSum : List Nat → Nat
  | a :: b :: r => a * 256 + b + wordSum r
  | [a] => a * 256
  | [] => 0
/-- The internet checksum of a sum. -/
def checksumOf (s : Nat) : Nat :=
  let s := s % 65536 + s / 65536
  let s := s % 65536 + s / 65536
  65535 - (s % 65536 + s / 65536)

/-- A UDP packet from the IP header on, between two addresses of 4 or 16 octets. -/
def udpPacket (six : Bool) (src dst : List Nat) (sport dport : Nat) (body : List Nat) : List Nat :=
  let len := 8 + body.length
  let ports := netOctets 2 sport ++ netOctets 2 dport ++ netOctets 2 len
  let ck := checksumOf (wordSum (src ++ dst) + 17 + len + wordSum (ports ++ body))
  let udp := ports ++ netOctets 2 (if ck = 0 then 65535 else ck) ++ body
  if six then
    netOctets 4 (6 * 2 ^ 28 + Config.ipField 0 % 256 * 2 ^ 20 + Config.ipField 2 % 2 ^ 20) ++ netOctets 2 len
      ++ [17, Config.ipField 1 % 256] ++ src ++ dst ++ udp
  else
    let a := [69, Config.ipField 0 % 256] ++ netOctets 2 (20 + len) ++ [0, 0, 64, 0, Config.ipField 1 % 256, 17]
    a ++ netOctets 2 (checksumOf (wordSum (a ++ [0, 0] ++ src ++ dst))) ++ src ++ dst ++ udp

/-- An Ethernet frame without its FCS: addresses, an 802.1Q tag where there is one, the EtherType, what it carries. -/
def etherFrame (dst src : List Nat) (tag : Option Nat) (etherType : Nat) (body : List Nat) : List Nat :=
  dst ++ src ++ (match tag with
    | some t => [0x81, 0] ++ netOctets 2 t
    | none => []) ++ netOctets 2 etherType ++ body

/-- A Delay_Req, or a Pdelay_Req with its ten reserved octets (IEEE 1588-2019, clause 13): message type, version 2.1, length,
domain, flags, correction, source port identity, sequenceId, control field and interval, and an origin timestamp of zero. -/
def ptpRequest (peer : Bool) (domain identity port seq : Nat) (unicast : Bool) : List Nat :=
  let len := if peer then 54 else 44
  [if peer then 2 else 1, 0x12] ++ netOctets 2 len ++ [domain % 256, 0, if unicast then 4 else 0, 0] ++ List.replicate 12 0
    ++ netOctets 8 identity ++ netOctets 2 port ++ netOctets 2 seq ++ [if peer then 5 else 1, 0x7F] ++ List.replicate (len - 34) 0

/-- The multicast address of a PTP message over Ethernet: 01-80-C2-00-00-0E for peer delay messages and for transport 1, else
01-1B-19-00-00-00 (Table 2.2, 0x2201:05). -/
def ptpMac (peer : Bool) (transport : Nat) : List Nat :=
  if peer || decide (transport = 1) then [0x01, 0x80, 0xC2, 0, 0, 0x0E] else [0x01, 0x1B, 0x19, 0, 0, 0]

end Sys2Proof.Machine
end

