-- ==== Sys2Proof/Machine/TimeOps.lean ====
section
/-! DEFINITION. Network time and media time: slots, measurements, steps, re-routes and holdover (R21 to R34), ticks (R29 to
R32), trigger units and PPS_OUT as time moves (R35, R36, R38), captures (R39). -/
namespace Sys2Proof.Machine

/-- The device with its time unit changed. -/
def onTime (d : Dev) (f : TimeUnit → TimeUnit) : Dev := { d with time := f d.time }
/-- Slot i. -/
def slotAt (d : Dev) (i : Nat) : TimeSlot := d.time.slots.getD i TimeSlot.reset
/-- The device with slot i changed. -/
def setSlot (d : Dev) (i : Nat) (s : TimeSlot) : Dev := onTime d (fun t => { t with slots := t.slots.set i s })
/-- The other slot. -/
def otherSlot (i : Nat) : Nat := 1 - i

/-- What steers the oscillator in HOLDOVER (R34): the holdover DAC, at its mean code over the last HoldoverAverage of LOCKED
operation, or REF10M_IN while Ref10mEnable is set. The code is a free value drawn as HOLDOVER begins, since its inputs are
analogue; outside HOLDOVER the DAC is not held. -/
def steerHold (d : Dev) : Dev :=
  onTime d (fun t => { t with dacHeld := decide (t.state = 4) && !ogetB d Obj.ref10mEnable 0 0 })

/-- NetworkTimeState takes a value; a change is a TIME_STATE notice (R34). -/
def setNetState (d : Dev) (st : Nat) : Dev :=
  if d.time.state = st then d
  else
    let d := onTime d (fun t => { t with state := st })
    let d := if st = 4 then
        let (code, d) := freshNat d
        onTime d (fun t => { t with dacCode := code % 2 ^ 20 })
      else d
    report (steerHold d) 0 0x0204 0 st

/-! ### Trigger units as time moves (R35, R36) -/

/-- Trigger unit k. -/
def triggerOf (d : Dev) (k : Nat) : Trigger := sget d.time.triggers k Trigger.reset
/-- The device with unit k changed. -/
def setTrigger (d : Dev) (k : Nat) (x : Trigger) : Dev := onTime d (fun t => { t with triggers := sput t.triggers k x })

/-- Whether unit k runs in media time. -/
def trigMedia (d : Dev) (k : Nat) : Bool := oget d Obj.trigTimeBase k 0 = 1
/-- The first firing that unit k is set to, in its own time base. -/
def trigStart (d : Dev) (k : Nat) : Nat :=
  if trigMedia d k then ogetN d Obj.trigStartSeconds k 0 * tickLen + ns (ogetN d Obj.trigStartNanoseconds k 0)
  else secs (ogetN d Obj.trigStartSeconds k 0) + ns (ogetN d Obj.trigStartNanoseconds k 0)
/-- The period of unit k. -/
def trigPeriod (d : Dev) (k : Nat) : Nat := ns (ogetN d Obj.trigPeriod k 0)

/-- The last offset of a tick at which a unit in media time can fire: offsets lie below 2.5 ms (R35). -/
def lastOffset : Nat := tickLen - 1
/-- Tick time: the tick in progress times 2.5 ms plus the media time since its start, which stays below the next tick's where a
re-anchor makes the tick longer (R31, R35). -/
def tickTime (d : Dev) : Nat :=
  curTick d * tickLen + (if d.time.ticking then min lastOffset (d.time.media - d.time.tickStart) else 0)
/-- The present in the time base of unit k. -/
def trigNow (d : Dev) (k : Nat) : Nat := if trigMedia d k then tickTime d else d.time.net

/-- The first point start + k × period strictly after x. -/
def pointAfter (start period x : Nat) : Nat :=
  if x < start then start else if period = 0 then start else start + ((x - start) / period + 1) * period
/-- The first such point at or after x. -/
def pointFrom (start period x : Nat) : Nat :=
  if x ≤ start then start else if period = 0 then start else start + ceilDiv (x - start) period * period

/-- Unit k takes its settings (R36, Table 2.6): idle in Mode 0; otherwise armed, with a passed once time firing late and
a passed periodic start going on at the first point after the present. -/
def armTrigger (d : Dev) (k : Nat) : Dev :=
  let x := triggerOf d k
  let start := trigStart d k
  match ogetN d Obj.trigMode k 0 with
  | 0 => setTrigger d k { x with armed := false, done := false, next := 0, late := false }
  | 1 => setTrigger d k { x with armed := true, done := false, next := start, late := decide (start < trigNow d k) }
  | _ =>
    let next := if start < trigNow d k then pointAfter start (trigPeriod d k) (trigNow d k) else start
    setTrigger d k { x with armed := true, done := false, next := next, late := false }

/-- Whether unit k owns a TIME_OUT pin (R36). -/
def ownsPin (d : Dev) (k : Nat) : Bool := decide (ogetN d Obj.trigMode k 0 ≠ 0) && bitSet (ogetN d Obj.trigTarget k 0) 0

/-- The pin that unit k owns, where it owns one. -/
def pinOf (d : Dev) (k : Nat) : Option Nat := if ownsPin d k then some (ogetN d Obj.trigOutPin k 0) else none

/-- Unit k gives up a pin that it does not own any more: a running pulse ends with it, and the pin holds the inactive level of
its polarity (R36). -/
def leavePin (d : Dev) (k : Nat) : Dev :=
  let x := triggerOf d k
  match x.pin with
  | none => d
  | some p =>
    if pinOf d k = some p then d
    else
      let rest := (d.time.pins.getD p ⟨false, false⟩).rest
      onTime (setTrigger d k { x with pin := none, pulseEnd := none }) (fun t => { t with pins := t.pins.set p ⟨rest, rest⟩ })

/-- The pin that unit k owns rests at the inactive level of its polarity; a pulse that runs on it goes on (R36). -/
def restPin (d : Dev) (k : Nat) : Dev :=
  match pinOf d k with
  | none => d
  | some p =>
    let x := triggerOf d k
    let rest := decide (ogetN d Obj.trigPolarity k 0 = 1)
    let level := if x.pulseEnd.isSome then (d.time.pins.getD p ⟨false, false⟩).level else rest
    onTime (setTrigger d k { x with pin := some p }) (fun t => { t with pins := t.pins.set p ⟨level, rest⟩ })

/-- Unit k in network time after a step from `old` to the present (Table 2.6). -/
def stepTrigger (old : Nat) (d : Dev) (k : Nat) : Dev :=
  let x := triggerOf d k
  let new := d.time.net
  if !x.armed || trigMedia d k then d
  else if ogetN d Obj.trigMode k 0 = 1 then
    if old < new ∧ x.next < new then setTrigger d k { x with late := true } else d
  else
    let start := trigStart d k
    if old < new then
      let next := if x.next < new then pointFrom start (trigPeriod d k) new else x.next
      let passed := if trigPeriod d k = 0 then 0 else (next - x.next) / trigPeriod d k
      bumpBy (setTrigger d k { x with next := next }) Obj.trigSkipped k 0 passed
    else setTrigger d k { x with next := pointAfter start (trigPeriod d k) new }

/-- PPS_OUT after a step (R38). -/
def stepPps (old : Nat) (d : Dev) : Dev :=
  let new := d.time.net
  let next := if old < new then (if d.time.ppsNext < new then ceilDiv new (secs 1) * secs 1 else d.time.ppsNext)
    else (new / secs 1 + 1) * secs 1
  onTime d (fun t => { t with ppsNext := next })

/-- A slot's measurements after a step of network time by `x`: all are offsets from network time. -/
def TimeSlot.stepped (s : TimeSlot) (x : Int) : TimeSlot :=
  { s with offset := s.offset - x, base := s.base - x, cands := s.cands.map (· - x), acquire := s.acquire.map (· - x) }

/-- Network time steps by `x` (R26, R27): the generation becomes `gen`, every slot's view stands nearer or farther by it, a slew
ends, and trigger units and PPS_OUT follow Table 2.6. Where a tick starts at the same instant, its start is stamped first, in
the old generation. -/
def stepTo (d : Dev) (x : Int) (gen : Nat) : Dev :=
  let old := netNow d
  let stamped := if d.time.started && decide (d.time.nextTick ≤ d.time.media) && d.time.stamped.isNone then some old
    else d.time.stamped
  let d1 := onTime d (fun t =>
    { t with net := ((t.net : Int) + x).toNat, gen := gen, mediaLocked := false, slew := 0, stamped := stamped,
             stepAt := t.elapsed, stepOld := old, slots := t.slots.map (fun s => s.stepped x) })
  stepPps old.t ((List.range 16).foldl (stepTrigger old.t) d1)

/-- A step of network time: the generation rises by one (R27). -/
def stepTime (d : Dev) (x : Int) : Dev := stepTo d x ((d.time.gen + 1) % 2 ^ 32)

/-! ### Selection and holdover (R24, R25, R33, R34) -/

/-- Select slot i and slew network time to its view; the state becomes LOCKED (R25). What the slew has still to cover is no step
of the master: offsets are judged against it until network time has caught up (log entry 77). -/
def selectSlew (d : Dev) (i : Nat) : Dev :=
  let s := slotAt d i
  let d := setSlot d i { s with base := s.offset }
  setNetState (onTime d (fun t => { t with selected := i, slew := s.offset, awaits := false })) 2

/-- Enter HOLDOVER, awaiting a choice or not (R34). -/
def enterHoldover (d : Dev) (awaits : Bool) : Dev :=
  setNetState (onTime d (fun t => { t with slew := 0, awaits := awaits })) 4

/-- Whether two slots' views differ by less than 1 µs (R25). -/
def viewsClose (d : Dev) (i j : Nat) : Bool := decide (((slotAt d i).offset - (slotAt d j).offset).natAbs < usec 1)

/-- The selected slot i no longer steers: rows 2, 3 and 5 of Table 2.4. -/
def stopSteering (d : Dev) (i : Nat) : Dev :=
  let o := otherSlot i
  if d.time.state = 0 ∨ d.time.state = 4 then d
  else if (slotAt d o).state ≠ 2 then enterHoldover d false
  else if viewsClose d i o then selectSlew (setNetState d 3) o
  else report (enterHoldover d true) 0 0x0203 i 0

/-- The selection goes back to PreferredDomain when its slot is LOCKED (R24, R25). -/
def reselect (d : Dev) : Dev :=
  let p := ogetN d Obj.preferredDomain 0 0
  if d.time.state = 2 ∧ d.time.selected ≠ p ∧ (slotAt d p).state = 2 then
    if viewsClose d p d.time.selected then selectSlew d p
    else report (enterHoldover d true) 0 0x0203 p 0
  else d

/-- A HOLDOVER that awaits no choice ends at a measurement of a LOCKED slot, by slew or by asking for a choice (R34). -/
def holdoverExit (d : Dev) : Dev :=
  let p := ogetN d Obj.preferredDomain 0 0
  let pick := if (slotAt d p).state = 2 then some p else if (slotAt d (otherSlot p)).state = 2 then some (otherSlot p) else none
  match pick with
  | none => d
  | some i =>
    if d.time.state ≠ 4 ∨ d.time.awaits = true then d
    else if (slotAt d i).offset.natAbs < usec 1 then selectSlew d i
    else report (onTime d (fun t => { t with awaits := true })) 0 0x0203 i 0

/-- A slot becomes LOCKED. -/
def lockSlot (d : Dev) (i : Nat) : Dev :=
  reselect (setSlot d i { slotAt d i with state := 2, agree := none, acquire := [], cands := [] })

/-- The mean of a list in 2⁻¹⁶ ns, rounded down (DESIGN CHOICE, log entry 77: R26 gives no rounding). -/
def meanInt (l : List Int) : Int := if l.isEmpty then 0 else l.foldl (· + ·) 0 / l.length

/-- A run of consistent values grows by x, or begins again with it (R26, R28). -/
def runWith (d : Dev) (l : List Int) (x : Int) : List Int :=
  match l with
  | [] => [x]
  | f :: _ => if (x - f).natAbs ≤ ns (ogetN d Obj.stepConsistency 0 0) then l ++ [x] else [x]

/-- The servo applies a measurement of the selected slot (R21, R26); its range is ±100 ppm of 2 ns. -/
def servoApply (d : Dev) (off : Int) : Dev :=
  onTime d (fun t => { t with addend := clampInt (-858993) 858993 (Config.servo t.addend off) })

/-- A measurement in FREERUN, or of a slot that has not locked: the eighth consistent one locks the slot; in FREERUN it
steps network time and selects the slot (R28). Where both slots end FREERUN at one instant the step is that of PreferredDomain. Out
of FREERUN a slot that is LISTENING or LOST needs eight measurements as R28 has them (DEDUCED, log entry 45: no rule gives
another count). -/
def acquireWith (d : Dev) (i : Nat) (off : Int) : Dev :=
  let run := runWith d (slotAt d i).acquire off
  let d1 := setSlot d i { slotAt d i with acquire := run, offset := off, base := 0, measured := true }
  let both := decide (d.time.acquired = some (now d)) && decide (d.time.selected ≠ i)
    && decide (i = ogetN d Obj.preferredDomain 0 0)
  if run.length < 8 then d1
  else if d.time.state = 0 ∨ both then
    let d2 := stepTo d1 (meanInt run) (if both then d.time.gen else (d.time.gen + 1) % 2 ^ 32)
    let d3 := onTime d2 (fun t => { t with selected := i, acquired := some (now d) })
    setNetState (report (lockSlot d3 i) 0 0x0201 i 0) 2
  else holdoverExit (lockSlot d1 i)

/-- A measurement of a LOCKED slot: a step candidate, or applied (R26, Table 2.3). Its magnitude is that beyond `base`: 0, but what
an accepted step of the slot while it was not selected has re-based, and what a slew has still to cover (DESIGN CHOICE, log
entry 77). -/
def lockedMeasure (d : Dev) (i : Nat) (off : Int) : Dev :=
  let s := slotAt d i
  let here := decide (d.time.selected = i) && decide (d.time.state = 2)
  if ns (ogetN d Obj.stepThreshold 0 0) < (off - s.base).natAbs then
    let run := runWith d s.cands off
    if run.length < 8 then setSlot d i { s with cands := run, offset := off, measured := true }
    else
      let mean := meanInt run
      let d1 := bump (setSlot d i { s with cands := [], offset := off, measured := true, base := mean }) Obj.stepsAccepted i 0
      let d2 := if here then stepTime d1 mean else d1
      report d2 0 0x0201 i 0
  else
    let d1 := bumpIf (!s.cands.isEmpty) d Obj.stepsRejected i 0
    let d2 := setSlot d1 i { s with cands := [], offset := off, measured := true }
    if here && decide (d.time.slew = 0) then servoApply d2 off else d2

/-- A measurement of a SUSPECT slot: step candidates are discarded, and agreement within 100 ns with the followed slot, or
with network time while none steers, is judged (R33). -/
def suspectMeasure (d : Dev) (i : Nat) (off : Int) : Dev :=
  let s := slotAt d i
  let follow := if d.time.state = 2 then (slotAt d d.time.selected).offset else 0
  let agrees := decide ((off - follow).natAbs ≤ ns 100)
  if ns (ogetN d Obj.stepThreshold 0 0) < off.natAbs then setSlot d i { s with agree := some (now d) }
  else setSlot d i { s with offset := off, measured := true, agree := if agrees then s.agree else some (now d) }

/-- An offset measurement of slot i: its view less network time. -/
def measure (d : Dev) (i : Nat) (off : Int) : Dev :=
  let s := slotAt d i
  if s.state = 0 then d
  else if d.time.state = 0 then acquireWith d i off
  else
    match s.state with
    | 2 => holdoverExit (lockedMeasure d i off)
    | 3 => suspectMeasure d i off
    | _ => acquireWith d i off

/-- A slot re-routes (R33, Table 2.4). A slot that has no offset to follow, LISTENING or LOST, keeps its state (DESIGN CHOICE, log
entry 77: R33 makes a re-routed slot SUSPECT, and SUSPECT leads to LOCKED without the measurements of R28). -/
def reroute (d : Dev) (i : Nat) : Dev :=
  let s := slotAt d i
  let o := slotAt d (otherSlot i)
  let both := o.reroute.any (fun t => decide (now d < t + secs 10))
  let s1 := if s.state = 2 ∨ s.state = 3 then { s with state := 3, cands := [], agree := some (now d) } else s
  let d1 := bump (setSlot d i { s1 with reroute := some (now d) }) Obj.reroutesDetected i 0
  let d2 := report d1 0 0x0202 i 0
  if d.time.state = 0 then d2
  else if both then (if d.time.state = 4 then d2 else enterHoldover d2 false)
  else if d.time.selected = i ∧ d.time.state = 2 then stopSteering d2 i
  else d2

/-- A new estimate of a slot's mean path delay (R33). -/
def delayEstimate (d : Dev) (i : Nat) (raw : Int) : Dev :=
  let s := slotAt d i
  match s.mpd with
  | none => setSlot d i { s with mpd := some raw }
  | some old =>
    let new := Config.delayFilter old raw
    let d1 := setSlot d i { s with mpd := some new }
    if ns (ogetN d Obj.rerouteThreshold 0 0) < (new - old).natAbs then reroute d1 i else d1

/-! ### PTP messages (R23) -/

/-- Whether a profile has a transport (Table 2.2): 0 and 1 Ethernet, 2 and 3 UDP. -/
def carries (profile transport : Nat) : Bool :=
  match profile with
  | 0 => true
  | 3 => decide (2 ≤ transport)
  | _ => decide (transport < 2)

/-- Whether a data set precedes another for a profile's best-master algorithm (PRESUMED, log entry 76): that of IEEE 1588-2019 for
profiles 0 and 1, and the alternate one of ITU-T G.8275, without priority1 and with every local priority alike, for 2 and 3. -/
def ClockData.better (profile : Nat) (a b : ClockData) : Bool :=
  let first := if profile < 2 then [(a.priority1, b.priority1)] else []
  let keys := first ++ [(a.class_, b.class_), (a.accuracy, b.accuracy), (a.variance, b.variance), (a.priority2, b.priority2),
    (a.identity, b.identity), (a.steps, b.steps)]
  match keys.find? (fun p => decide (p.1 ≠ p.2)) with
  | some p => decide (p.1 < p.2)
  | none => false

/-- Whether a master is still heard: its Announce messages have not stopped for three of its intervals (IEEE 1588-2019,
announceReceiptTimeout). -/
def PtpMaster.heardNow (d : Dev) (m : PtpMaster) : Bool := decide (now d ≤ m.heard + 3 * m.every)

/-- An Announce message for slot i: a master that was heard before, within four of its intervals, is qualified, and is followed
where the slot follows none, the one followed is heard no more, or it is better (R23, PRESUMED, log entry 76). -/
def announced (d : Dev) (i : Nat) (m : PtpMaster) : Dev :=
  let s := slotAt d i
  let same := fun (x : PtpMaster) => decide (x.data.identity = m.data.identity) && decide (x.port = m.port)
  let rest := s.foreign.filter (fun x => !same x)
  if s.master.any same then setSlot d i { s with master := some m }
  else if s.foreign.any (fun x => same x && decide (now d ≤ x.heard + 4 * m.every)) then
    let take := match s.master with
      | none => true
      | some x => !x.heardNow d || m.data.better (ogetN d Obj.slotProfile i 0) x.data
    if take then setSlot d i { s with master := some m, foreign := rest } else setSlot d i { s with foreign := m :: rest }
  else setSlot d i { s with foreign := (m :: rest).take 8 }

/-- Whether slot i may use a service: under unicast negotiation (profile 3) only once it is granted (R23). -/
def granted (d : Dev) (i service : Nat) : Bool := decide (ogetN d Obj.slotProfile i 0 ≠ 3) || (slotAt d i).grants.contains service

/-- Whether a message heard on port p belongs to slot i. -/
def ptpForSlot (d : Dev) (p : Nat) (m : PtpMsg) (i : Nat) : Bool :=
  decide ((slotAt d i).state ≠ 0) && bitSet (ogetN d Obj.portMask i 0) p && decide (ogetN d Obj.domainNumber i 0 = m.domain)
    && decide (ogetN d Obj.transport i 0 = m.transport) && decide (ogetN d Obj.vlanId i 0 = m.vlan)
    && carries (ogetN d Obj.slotProfile i 0) m.transport

/-- The asymmetry constant of a port, 2⁻¹⁶ ns from ps (R22). -/
def asymmetry (d : Dev) (p : Nat) : Int := oget d Obj.portAsymmetry 0 p * 65536 / 1000

/-- A Sync with its origin time known: an offset measurement, once the path delay is known. -/
def syncDone (d : Dev) (i : Nat) (x : PtpExchange) (origin : Nat) (corr : Int) : Dev :=
  let s := slotAt d i
  let t1 : Int := (origin : Int) + corr + x.corr
  let d1 := setSlot d i { s with sync := none, lastSync := some { x with corr := t1 } }
  match s.mpd with
  | none => d1
  | some mpd => measure d1 i (t1 + mpd - (x.stamp : Int))

/-- A message consumed for slot i; `stamp` is its ingress timestamp. The delay mechanism is that of the slot's profile (Table
2.2): peer delay for profile 1, else delay request-response. -/
def ptpSlot (d : Dev) (p i : Nat) (stamp : NetStamp) (m : PtpKind) : Dev :=
  let s := slotAt d i
  let mine := s.master.any (fun x => decide (x.port = p))
  let peer := decide (ogetN d Obj.slotProfile i 0 = 1)
  match m with
  | .management => bump d Obj.managementIgnored i 0
  | .grant service on =>
    let rest := s.grants.filter (· ≠ service)
    setSlot d i { s with grants := if on then service :: rest else rest }
  | .announce data interval => if granted d i 0 then announced d i ⟨data, p, now d, interval⟩ else d
  | .sync seq two origin corr =>
    if !mine || !granted d i 1 then d
    else
      let x : PtpExchange := { seq := seq, stamp := stamp.t, corr := asymmetry d p + (if two then corr else 0) }
      if two then setSlot d i { s with sync := some x } else syncDone d i x origin corr
  | .followUp seq origin corr =>
    match s.sync with
    | some x => if mine && decide (x.seq = seq) then syncDone d i x origin corr else d
    | none => d
  | .delayResp seq receipt corr =>
    match s.delay, s.lastSync with
    | some x, some y =>
      if !mine || peer || !granted d i 2 || decide (x.seq ≠ seq) then d
      else
        let raw := (((y.stamp : Int) - y.corr) + ((receipt : Int) - x.stamp - corr + x.corr)) / 2
        delayEstimate (setSlot d i { s with delay := none }) i raw
    | _, _ => d
  | .pdelayResp seq turnaround corr =>
    match s.delay with
    | some x =>
      if !peer || decide (x.seq ≠ seq) then d
      else delayEstimate (setSlot d i { s with delay := none }) i (((stamp.t : Int) - x.stamp - turnaround - corr) / 2)
    | none => d

/-- A PTP message on port p: consumed by the slots it belongs to, PreferredDomain's first (R28); the flag tells whether any took
it (R23). -/
def ptpReceive (d : Dev) (p : Nat) (stamp : NetStamp) (m : PtpMsg) : Dev × Bool :=
  let mine := (if ogetN d Obj.preferredDomain 0 0 = 1 then [1, 0] else [0, 1]).filter (ptpForSlot d p m)
  (mine.foldl (fun d i => ptpSlot d p i stamp m.kind) d, !mine.isEmpty)

/-- The Delay_Req, or Pdelay_Req, that slot i sends on port p (R23): over Ethernet, or as a UDP packet to the event port 319. The
destination over UDP is the multicast group of PTP, 224.0.1.129 or FF0E::181; that of a unicast master is not in the spec and is
opaque, as are the slot's clock identity and source address (log entry 76). -/
def delayFrame (d : Dev) (i p : Nat) : List Nat :=
  let profile := ogetN d Obj.slotProfile i 0
  let transport := ogetN d Obj.transport i 0
  let peer := decide (profile = 1)
  let msg := ptpRequest peer (ogetN d Obj.domainNumber i 0) (Config.ptpSource i 0) (p + 1) (slotAt d i).delaySeq (decide (profile = 3))
  let src := lowOctets 6 (ogetN d Obj.macAddress p 0)
  let vlan := ogetN d Obj.vlanId i 0
  let tag := if vlan = 0 then none else some vlan
  let unicast := fun (n k : Nat) => netOctets n (Config.ptpSource i k)
  if transport < 2 then etherFrame (ptpMac peer transport) src tag 0x88F7 msg
  else if transport = 2 then
    let (mac, dst) := if profile = 3 then (unicast 6 3, unicast 4 4) else ([0x01, 0, 0x5E, 0, 1, 0x81], [224, 0, 1, 129])
    etherFrame mac src tag 0x0800 (udpPacket false (unicast 4 1) dst 319 319 msg)
  else
    let (mac, dst) := if profile = 3 then (unicast 6 3, unicast 16 5)
      else ([0x33, 0x33, 0, 0, 1, 0x81], [0xFF, 0x0E] ++ List.replicate 12 0 ++ [1, 0x81])
    etherFrame mac src tag 0x86DD (udpPacket true (unicast 16 2) dst 319 319 msg)

/-- A frame of the device's own that no egress queue holds leaves port p; it is counted with its FCS, padded to 64 octets (R46). -/
def sendDirect (d : Dev) (p code : Nat) (frame : List Nat) : Dev :=
  bumpBy (bump (emit d (.mac p code (octets frame))) Obj.txCounters p 0) Obj.txCounters p 1 (max 64 (frame.length + 4) : Nat)

/-- DELAY_REQ_TX: an enabled slot sends its Delay_Req, or Pdelay_Req, and takes its egress timestamp (R23). Under unicast
negotiation it does so once Delay_Resp is granted. -/
def delayReqTx (i : Nat) (d : Dev) : Dev :=
  let s := slotAt d i
  match s.master with
  | none => d
  | some m =>
    if s.state = 0 ∨ 2 ≤ i ∨ (sfind d.fwd.ports m.port).any Port.linkUp = false ∨ granted d i 2 = false then d
    else
      let x : PtpExchange := { seq := s.delaySeq, stamp := (egressStamp d m.port).t, corr := asymmetry d m.port }
      let frame := delayFrame d i m.port
      sendDirect (setSlot d i { s with delay := some x, delaySeq := (s.delaySeq + 1) % 65536 }) m.port 0x88F7 frame

/-! ### Slots and commands -/

/-- SUSPECT_CLEAR_TIME_EXPIRY: every measurement over SuspectClearTime agreed, and the slot returns to LOCKED (R33). -/
def suspectClear (i : Nat) (d : Dev) : Dev :=
  let s := slotAt d i
  match s.state, s.agree with
  | 3, some t0 =>
    let due := t0 + secs (ogetN d Obj.suspectClearTime 0 0)
    if canReach d due then lockSlot (passUntil d due) i else d
  | _, _ => d

/-- SLOT_LOST: a slot that has locked is LOST; where it is the selected one, it stops steering (R24). -/
def slotLost (i : Nat) (d : Dev) : Dev :=
  let s := slotAt d i
  if s.state = 2 ∨ s.state = 3 then
    let d1 := setSlot d i { s with state := 4, master := none, foreign := [], grants := [], acquire := [], cands := [],
                                   agree := none, measured := false }
    if d.time.selected = i then stopSteering d1 i else d1
  else d

/-- A slot is enabled or disabled by an epoch or at the defaults step (R24): where it is the selected one, its view is compared with
the other's as it stops steering. -/
def slotEnabling (d : Dev) (i : Nat) : Dev :=
  let s := slotAt d i
  if ogetB d Obj.slotEnable i 0 then (if s.state = 0 then setSlot d i { TimeSlot.reset with state := 1 } else d)
  else if s.state = 0 then d
  else
    let d1 := setSlot d i { s with state := 0 }
    setSlot (if d.time.selected = i then stopSteering d1 i else d1) i TimeSlot.reset

/-- DomainSwitchCommand 1 to 4: refused for a slot that has no offset to follow (R25). -/
def domainSwitch (d : Dev) (i : Nat) (step : Bool) : Dev :=
  let s := slotAt d i
  if s.state ≠ 2 ∧ s.state ≠ 3 then refuse d abortState
  else
    let d := accept (setSlot d i { s with state := 2, agree := none })
    if step then
      let d1 := onTime (stepTime d s.offset) (fun t => { t with selected := i, awaits := false })
      setNetState (report d1 0 0x0201 i 0) 2
    else selectSlew d i

/-- DOMAIN_SWITCH_SLEW: DomainSwitchCommand 1 or 2. -/
def domainSwitchSlew (i : Nat) (d : Dev) : Dev := domainSwitch d i false
/-- DOMAIN_SWITCH_STEP: DomainSwitchCommand 3 or 4. -/
def domainSwitchStep (i : Nat) (d : Dev) : Dev := domainSwitch d i true
/-- DOMAIN_SWITCH_HOLDOVER: DomainSwitchCommand 5, a HOLDOVER that awaits a choice (R34). It is accepted in FREERUN too, and ends it
(DESIGN CHOICE, log entry 77: no rule refuses it). -/
def domainSwitchHoldover (d : Dev) : Dev := enterHoldover (accept d) true
/-- DOMAIN_SWITCH_CLEAR_SUSPECT: DomainSwitchCommand 6 or 7 (R33). On a slot that is not SUSPECT it is accepted and changes nothing
(DESIGN CHOICE, log entry 77). -/
def domainSwitchClearSuspect (i : Nat) (d : Dev) : Dev :=
  if (slotAt d i).state = 3 then lockSlot (accept d) i else accept d

/-- MEDIA_LOCK: |D| falls below 10 ns and media time is LOCKED to network time (R30); where that point lies before the
next tick, time goes on to it. -/
def mediaLock (d : Dev) : Dev :=
  let t := d.time
  let gap := (mediaD t).natAbs
  let lock := fun (d : Dev) => onTime d (fun t => { t with mediaLocked := true })
  if !t.started || t.mediaLocked || decide (msec 100 < gap) then d
  else if gap < ns 10 then lock d
  else
    let rate := max 1 (slewRate d)
    let dm := ceilDiv ((gap - ns 10 + 1) * 1000000000) rate
    if t.ticking && decide (t.media + dm ≤ t.nextTick) then lock { d with time := t.advanceMedia rate dm } else d

/-! ### Ticks (R29, R31) -/

/-- Whether media time re-anchors at the coming boundary (R31): by network time as the start of the tick found it. -/
def reanchors (t : TimeUnit) : Bool :=
  t.ticking && decide (msec 100 < ((t.media : Int) - ((t.stamped.map NetStamp.t).getD t.net : Nat)).natAbs)

/-- The time unit at the start of the next tick, its stamp taken (R27, R29, R31). Where network time has stepped at the same
instant, the tick starts by the time before that step. The spec does not say how many stamps are kept: the model keeps those of
the last 1,024 ticks (DESIGN CHOICE, log entry 77). -/
def nextTickTime (t : TimeUnit) (rate : Nat) : TimeUnit :=
  let t := t.advanceMedia rate (t.nextTick - t.media)
  let n := if t.ticking then t.tick + 1 else t.firstTick
  let x := t.stamped.getD ⟨t.gen, t.net⟩
  let u := { t with tick := n, stamps := ((n, x) :: t.stamps).take 1024, stamped := none }
  if reanchors t then
    let next := ceilDiv (x.t + tickLen) tickLen * tickLen
    { u with media := x.t, mediaLocked := t.stamped.isNone, tickStart := x.t, nextTick := next,
             tickOffset := (n : Int) + 1 - (next / tickLen : Nat) }
  else { u with ticking := true, tickStart := t.nextTick, nextTick := t.nextTick + tickLen }

/-- The next tick starts; the second value tells whether media time re-anchored (R31). -/
def startTick (d : Dev) : Dev × Bool :=
  let t := d.time.advanceMedia (slewRate d) (toTick d)
  let jump := reanchors t
  let d1 := onTime d (fun t => nextTickTime t (slewRate d))
  if jump then (report (bump d1 Obj.discontinuityCount 0 0) 0 0x0205 0 (d1.time.tick % 2 ^ 32), true) else (d1, false)

/-! ### Pins and captures (R36, R38, R39) -/

/-- Whether network time `at_` can be reached without crossing the start of the next tick. -/
def netReachable (d : Dev) (at_ : Nat) : Bool :=
  decide (at_ ≤ d.time.net) || !d.time.started ||
    decide ((d.time.advanceNet (slewRate d) (at_ - d.time.net)).media ≤ d.time.nextTick)
/-- Time goes on to network time `at_`. -/
def passNet (d : Dev) (at_ : Nat) : Dev := onTime d (fun t => t.advanceNet (slewRate d) (at_ - t.net))

/-- TRIGGER_PULSE_END: the pulse of unit k ends after Width and its pin returns to the inactive level (R36). -/
def triggerPulseEnd (k : Nat) (d : Dev) : Dev :=
  let x := triggerOf d k
  match x.pulseEnd with
  | none => d
  | some due =>
    if !canReach d due then d
    else
      let d := setTrigger (passUntil d due) k { x with pulseEnd := none }
      match x.pin with
      | none => d
      | some p =>
        let rest := (d.time.pins.getD p ⟨false, false⟩).rest
        onTime d (fun t => { t with pins := t.pins.set p ⟨rest, rest⟩ })

/-- PPS_OUT_PULSE: PPS_OUT pulses at the next whole second of network time, under PpsOutMode (R38). -/
def ppsPulse (d : Dev) : Dev :=
  let at_ := d.time.ppsNext
  if !netReachable d at_ || quenched d || d.start.resetLow then d
  else
    let d := passNet d at_
    let m := ogetN d Obj.ppsOutMode 0 0
    let on := decide (m = 2) || (decide (m = 1) && decide (d.time.state ≠ 0))
    let stop := now d + ns (ogetN d Obj.ppsOutWidth 0 0)
    onTime d (fun t => { t with ppsNext := t.ppsNext + secs 1, ppsOut := t.ppsOut || on,
                                ppsEnd := if on then some stop else t.ppsEnd })

/-- PPS_OUT_PULSE_END: the pulse ends after PpsOutWidth (R38). -/
def ppsPulseEnd (d : Dev) : Dev :=
  match d.time.ppsEnd with
  | none => d
  | some due =>
    if canReach d due then onTime (passUntil d due) (fun t => { t with ppsOut := false, ppsEnd := none }) else d

/-- One capture record (Table 2.7). -/
def captureRecord (d : Dev) (k seq : Nat) (rising lost : Bool) : Nat :=
  let st := d.time.state
  let t := ((d.time.net : Int) - psUnits (oget d Obj.timeInLatency 0 k)).toNat
  let v := setF (setF (setF 0 CaptureRec.seconds (secondsOf t)) CaptureRec.nanoseconds (nanosOf t))
    CaptureRec.generation d.time.gen
  let v := setF (setF (setF v CaptureRec.sequence seq) CaptureRec.lostBefore (b2n lost)) CaptureRec.freerun (b2n (decide (st = 0)))
  let v := setF (setF v CaptureRec.holdover (b2n (decide (st = 4)))) CaptureRec.uncertain (b2n (decide (st = 3)))
  setF (setF v CaptureRec.source k) CaptureRec.edge (if rising then 1 else 2)

/-- Capture input k. -/
def captureOf (d : Dev) (k : Nat) : Capture := sget d.time.captures k Capture.reset
/-- The device with capture input k changed. -/
def setCapture (d : Dev) (k : Nat) (c : Capture) : Dev := onTime d (fun t => { t with captures := sput t.captures k c })

/-- TIME_IN_EDGE: `dt` after the last event an edge comes on capture input k (R39). The spec gives 100 ns as the least
interval between captured edges: whether one that follows sooner is taken is a free value. The first edge has Sequence 0 (DESIGN
CHOICE, log entry 77: Table 2.7 does not say whether the count begins at 0 or 1). -/
def timeInEdge (k : Nat) (rising : Bool) (dt : Nat) (d : Dev) : Dev :=
  let d := passTime d dt
  if 5 ≤ k ∨ d.start.resetLow = true then d
  else
    let sel := bitSet (ogetN d Obj.capEdge k 0) (if rising then 0 else 1)
    let c := captureOf d k
    let soon := c.lastEdge.any (fun t => decide (now d < t + ns 100))
    let (x, d) := if soon then freshNat d else (1, d)
    if !sel || decide (x % 2 = 0) then d
    else if 64 ≤ c.records.length then
      bump (setCapture d k { c with seq := (c.seq + 1) % 65536, lost := true, lastEdge := some (now d) }) Obj.capLost k 0
    else
      let r := captureRecord d k c.seq rising c.lost
      bump (setCapture d k { records := c.records ++ [r], seq := (c.seq + 1) % 65536, lost := false, lastEdge := some (now d) })
        Obj.capCaptured k 0

/-- CAPTURE_RECORDS_READ: the records held by capture input k, oldest first; the read frees them (R39). -/
def captureRead (k : Nat) (d : Dev) : Dev :=
  if 5 ≤ k then d
  else
    let c := captureOf d k
    answer (setCapture d k { c with records := [] }) 0 (joinBytes (c.records.map (bytesOf 24)))

end Sys2Proof.Machine
end

