-- ==== Sys2Proof/Machine/Playout.lean ====
section
/-! DEFINITION. The jitter buffer and playout (R79 to R85), with the union of the twins' ledgers (R211, R214). -/
namespace Sys2Proof.Machine

/-- The RTP clock of a codec in Hz (PRESUMED for all but Opus: the payload formats of RFC 3551, RFC 4867 and EVS; R76 gives
Opus). -/
def rtpClock : Nat → Nat
  | 6 => 16000
  | 7 => 16000
  | 8 => 48000
  | _ => 8000

/-- The RTP clock of channel x's received stream; a line port counts samples at its treatment rate. -/
def chanClock (d : Dev) (x : Channel) : Nat :=
  let codec := epF d x.endpoint Ep.rxCodec
  if codec = 0 then (if x.rate16 then 16000 else 8000) else rtpClock codec

/-- The length of a frame, ms. -/
def frameMs (x : Channel) : Nat := x.frameTicks * 5 / 2

/-- S: RTP clock units per frame (R79). -/
def clockPerFrame (d : Dev) (x : Channel) : Nat := chanClock d x * frameMs x / 1000

/-- The difference of two RTP timestamps, modulo 2³². -/
def tsDiff (a b : Nat) : Int := toSigned 32 (toUnsigned 32 ((a : Int) - b))

/-- Whether channel x receives from a line port. -/
def isLine (d : Dev) (x : Channel) : Bool := decide (epF d x.endpoint Ep.kind = 2)

/-- The frame tick to which a packet maps (R79), where the stream is anchored; the timestamp of a line frame is the
number of its frame tick (R264). -/
def mappedTick (d : Dev) (x : Channel) (p : Packet) : Option Int :=
  if isLine d x then some ((curTick d : Int) + tsDiff p.ts (curTick d % 2 ^ 32))
  else x.anchor.map (fun a => a.fa + (x.frameTicks : Int) * (tsDiff p.ts a.ts / ((max 1 (clockPerFrame d x) : Nat) : Int)))

/-- The first frame tick of a channel at or after t. -/
def frameTickFrom (x : Channel) (t : Int) : Int := t + ((x.phase : Int) - t) % x.frameTicks
/-- The last frame tick of a channel at or before t. -/
def frameTickTo (x : Channel) (t : Int) : Int := t - (t - x.phase) % x.frameTicks

/-- The start stamp of tick n, where it is kept. -/
def tickStamp (d : Dev) (n : Nat) : Option NetStamp := (d.time.stamps.find? (fun p => decide (p.1 = n))).map Prod.snd

/-- Whether the device is strapped as a twin. -/
def twinned (d : Dev) : Bool := decide (d.start.straps.twin % 4 = 1) || decide (d.start.straps.twin % 4 = 2)
/-- Whether playout works on the union of two ledgers (R214): JOINING, FEEDING or PAIRED. -/
def unionOn (d : Dev) : Bool := decide (2 ≤ d.twin.state) && decide (d.twin.state ≤ 4)

/-- How long before its tick's start the playout deadline lies (R80, R211). -/
def playoutLead (d : Dev) : Nat := ns 5000 + (if twinned d then ns 1000000 else 0)

/-- Whether a stamp is at or before the deadline of frame tick n (R27, R80). -/
def stampMeets (d : Dev) (s : NetStamp) (n : Nat) : Bool :=
  match tickStamp d n with
  | none => false
  | some x => decide (s.gen < x.gen) || (decide (s.gen = x.gen) && decide (s.t + playoutLead d ≤ x.t))

/-- The partner's entry for a packet, in its ledgers of intervals up to n. -/
def partnerEntry (d : Dev) (c : Nat) (p : Packet) (n : Nat) : Option LedgerEntry :=
  (d.twin.partner.filter (fun l => decide (l.tick ≤ n))).findSome? (fun l =>
    l.entries.find? (fun e => decide (e.channel = c) && decide (e.seq = p.seq) && decide (e.ts = p.ts)))

/-- Whether a packet meets the deadline of frame tick n: by its own stamp, or, on the union, by the partner's, which the
partner's ledger of an interval up to n lists (R80, R214). -/
def meets (d : Dev) (c : Nat) (p : Packet) (n : Nat) : Bool :=
  (!p.fetched && stampMeets d p.stamp n) || (unionOn d && (partnerEntry d c p n).isSome)

/-- The timestamp that anchors and relative delays use (R214): on the union, that of twin A where twin A listed it. -/
def unionStamp (d : Dev) (c : Nat) (p : Packet) : NetStamp :=
  if unionOn d && decide (d.start.straps.twin % 4 = 2) then
    ((partnerEntry d c p (curTick d + 1)).map LedgerEntry.stamp).getD p.stamp
  else p.stamp

/-- The packets that channel c's jitter queue holds, with their places, oldest first. -/
def heldPackets (d : Dev) (c : Nat) : List (Nat × Packet) :=
  let l := (queueOf d c).items.mapIdx (fun i x => (i, x.info))
  l.filterMap (fun p => match p.2 with
    | .packet k => some (p.1, k)
    | _ => none)

/-- PacketsHeld: those to which Table 4.8 has been applied. -/
def heldCount (d : Dev) (c : Nat) : Nat := ((heldPackets d c).filter (fun p => p.2.judged)).length

/-- A packet leaves channel c's jitter queue. -/
def dropPacket (d : Dev) (c : Nat) (p : Packet) : Dev :=
  match (heldPackets d c).find? (fun k => decide (k.2 = p)) with
  | some (i, _) => eraseItem d c i
  | none => d

/-- A count of packet events of channel c: 0 Queued, 1 Late, 2 Duplicate, 3 Early, 4 Flushed, 6 JitterOverflow, 7 Resyncs. -/
def pktCount (d : Dev) (c i n : Nat) : Dev := bumpBy d Obj.packetCounters c i n
/-- A count of frame events: 0 Due, 1 Played, 2 Dtx, 3 Missing, 4 Inserted, 5 Skipped. -/
def frmCount (d : Dev) (c i : Nat) : Dev := bump d Obj.frameCounters c i

/-- Every held packet of channel c is discarded into PacketsFlushed (R68); one that had yet to be judged was queued too (R85). -/
def flushPackets (d : Dev) (c : Nat) : Dev :=
  let n := (queueOf d c).items.length
  pktCount (pktCount (flushQueue d c) c 4 n) c 0 (n - heldCount d c)

/-! ### Arrivals (Table 4.8) -/

/-- What Table 4.8 makes of a packet at its arrival. -/
inductive Verdict where
  | duplicate | replaces (old : Packet) | early | behind | played | anchor | kept
  deriving DecidableEq, Repr

/-- JitterMax in ticks. -/
def jitterTicks (x : Channel) : Int := (x.jmax * 2 / 5 : Nat)

/-- Whether a packet comes too late for frame tick m, judged at its arrival (R81): the frame is decided, or its tick is the next one,
whose deadline the stamp lies beyond. -/
def comesLate (d : Dev) (x : Channel) (p : Packet) (m : Int) : Bool :=
  let next := (d.time.advanceMedia (slewRate d) (toTick d)).net
  x.slot.any (fun s => decide (m < (s.tick + x.frameTicks : Nat)))
    || (decide (m ≤ (curTick d + 1 : Nat)) && decide (p.stamp.gen = d.time.gen) && decide (next < p.stamp.t + playoutLead d))

/-- The verdict on a packet of channel c that is not isolated, in the order of R81. -/
def verdict (d : Dev) (c : Nat) (x : Channel) (p : Packet) : Verdict :=
  let held := ((heldPackets d c).map Prod.snd).filter Packet.judged
  match held.find? (fun k => decide (k.ts = p.ts)), mappedTick d x p with
  | some k, _ => if unionOn d && decide (toSigned 16 (toUnsigned 16 ((p.seq : Int) - k.seq)) < 0) then .replaces k else .duplicate
  | none, none => .anchor
  | none, some m =>
    if x.played.contains p.ts then .duplicate
    else
      let cur := frameTickTo x (curTick d)
      if cur + jitterTicks x < m then .early
      else if m < cur - jitterTicks x then .behind
      else if 0 ≤ m ∧ x.playedAt.contains m.toNat then .played
      else
        if p.marker && held.isEmpty && !comesLate d x p m then .anchor else .kept

/-- A packet's relative delay joins the list (R82). -/
def noteDelay (d : Dev) (c : Nat) (x : Channel) (p : Packet) : Channel :=
  match x.anchor with
  | none => x
  | some a =>
    let rtp := tsDiff p.ts a.ts * (secs 1 : Nat) / ((max 1 (chanClock d x) : Nat) : Int)
    let delay := ((unionStamp d c p).t : Int) - a.stamp.t - rtp
    { x with delays := (delay :: x.delays).take 1024 }

/-- A packet becomes the anchor (R79). A frame tick already decided is not used again. -/
def anchorAt (d : Dev) (c : Nat) (x : Channel) (p : Packet) : Channel :=
  let stamp := unionStamp d c p
  let a := tickAt d.time.stamps stamp
  let fa := frameTickFrom x ((a + x.depth * 2 / 5 : Nat) : Int)
  let fa := match x.slot with
    | some s => max fa ((s.tick + x.frameTicks : Nat) : Int)
    | none => fa
  let first := match x.firstFa with
    | some f => some f
    | none => some fa
  let x := { x with anchor := some { fa := fa, ts := p.ts, stamp := stamp }, firstFa := first, early := 0, delays := [] }
  noteDelay d c { x with played := p.ts :: x.played } p

/-- The held packets of channel c that are judged are discarded into PacketsFlushed; those that the union has yet to judge stay
(R83, R214). -/
def flushJudged (d : Dev) (c : Nat) : Dev :=
  let n := heldCount d c
  if n = (queueOf d c).items.length then flushPackets d c
  else pktCount (((heldPackets d c).filter (fun p => p.2.judged)).foldl (fun d p => dropPacket d c p.2) d) c 4 n

/-- The stream of channel c starts again with its next packet (R83). -/
def resync (d : Dev) (c : Nat) : Dev :=
  let d := flushJudged (pktCount d c 7 1) c
  onChan d c (fun x => { x with anchor := none, early := 0, dtx := false, played := [], delays := [] })

/-- Table 4.8 for a packet of channel c that has verdict v; a packet that stays is queued already. -/
def applyVerdict (d : Dev) (c : Nat) (p : Packet) (v : Verdict) : Dev :=
  match v with
  | .duplicate => onChan (pktCount d c 2 1) c (fun x => { x with early := 0 })
  | .replaces old => onChan (dropPacket (pktCount d c 2 1) c old) c (fun x => { x with early := 0 })
  | .early =>
    let d := onChan (pktCount d c 3 1) c (fun x => { x with early := x.early + 1 })
    if (chanOf d c).any (fun x => decide (ogetN d Obj.earlyResyncCount 0 0 ≤ x.early)) then resync d c else d
  | .behind => resync (pktCount d c 1 1) c
  | .played => onChan (pktCount d c 1 1) c (fun x => { x with early := 0 })
  | .anchor => onChan d c (fun x => anchorAt d c x p)
  | .kept => onChan d c (fun x => noteDelay d c { x with early := 0, played := p.ts :: x.played } p)

/-- Whether a verdict leaves the packet in the queue. -/
def Verdict.stays : Verdict → Bool
  | .replaces _ => true
  | .anchor => true
  | .kept => true
  | _ => false

/-- A packet is pushed to channel c's jitter queue with its payload; a PACKET entry goes to the channel's thread (R169).
What the descriptor's bytes hold is a free value. -/
def jitterPush (d : Dev) (c thread : Nat) (p : Packet) (payload : Bytes) : Dev × Bool :=
  let (v, d) := freshNat d
  let i := QItem.of (catBytes (bytesOf 32 v) payload) (.packet p)
  let (d, ok) := qPush d c false i
  (if ok then hwPost d 16 thread 3 c else d, ok)

/-- A media packet that passed lookup and authentication comes to channel c. On the union it is judged with its ledger
(R214); an isolated channel only holds it (R68). -/
def packetArrives (d : Dev) (c : Nat) (p : Packet) (payload : Bytes) : Dev :=
  match chanOf d c with
  | none => d
  | some x =>
    let put := fun (d : Dev) (p : Packet) =>
      let (d, ok) := jitterPush d c x.thread p payload
      (if ok then d else pktCount d c 6 1, ok)
    if x.state = 2 then
      let (d, ok) := put d { p with judged := true }
      if ok then pktCount d c 0 1 else d
    else if unionOn d then (put d { p with judged := false }).1
    else
      let v := verdict d c x p
      if v.stays then
        let (d, ok) := put d { p with judged := true }
        if ok then applyVerdict (pktCount d c 0 1) c p v else onChan d c (fun x => { x with early := 0 })
      else applyVerdict (pktCount d c 0 1) c p v

/-- Mark the packet at place i of channel c's queue as judged. -/
def markJudged (d : Dev) (c i : Nat) : Dev :=
  let x := queueOf d c
  let f := fun (it : QItem) => match it.info with
    | .packet p => { it with info := .packet { p with judged := true } }
    | _ => it
  setQueue d c { x with items := x.items.modify i f }

/-- One packet goes before another in the order of the union: by union timestamp, then sequence (R214). -/
def unionBefore (d : Dev) (c : Nat) (a b : Packet) : Bool :=
  let x := unionStamp d c a
  let y := unionStamp d c b
  x.lt y || (decide (x = y) && decide (a.seq ≤ b.seq))

/-- Packets in the order of the union. -/
def unionSort (d : Dev) (c : Nat) (l : List Packet) : List Packet :=
  l.foldl (fun acc p => (acc.takeWhile (fun q => unionBefore d c q p)) ++ p :: acc.dropWhile (fun q => unionBefore d c q p)) []

/-- The packets of channel c that its own ledger or the partner's lists for an interval up to n are judged (R214). -/
def judgeUnion (d : Dev) (c n : Nat) : Dev :=
  let l := ((heldPackets d c).map Prod.snd).filter (fun p => !p.judged && (!unionOn d || meets d c p n))
  (unionSort d c l).foldl (fun d p =>
    match chanOf d c, (heldPackets d c).find? (fun k => decide (k.2 = p)) with
    | some x, some (i, _) =>
      let v := verdict d c x p
      let d := pktCount d c 0 1
      let d := if v.stays then markJudged d c i else eraseItem d c i
      applyVerdict d c p v
    | _, _ => d) d

/-! ### Frame ticks -/

/-- A number placed in a rising list. -/
def insertInt (x : Int) : List Int → List Int
  | [] => [x]
  | y :: r => if x ≤ y then x :: y :: r else y :: insertInt x r

/-- The AdaptPercentile point of the relative delays (R82). The rule does not say how a point between two ranks is taken: it is
free between the delays at the ranks on either side. -/
def percentile (pct : Nat) (l : List Int) : Int :=
  let s := l.foldr insertInt []
  let at_ := fun (k : Nat) => s.getD (max 1 k - 1) 0
  clampInt (at_ (pct * l.length / 100)) (at_ (ceilDiv (pct * l.length) 100)) (Config.percentilePoint pct l)

/-- After a played frame at tick n: the target depth, and whether a frame is to be inserted (R82). The buffer of a line
port's channel does not adapt (R264). -/
def adaptDepth (d : Dev) (x : Channel) (n : Nat) : Channel :=
  if isLine d x then x else
  let l := x.delays.take (ogetN d Obj.adaptWindow 0 0)
  match l with
  | [] => x
  | a :: r =>
    let low := r.foldl min a
    let spread := (percentile (ogetN d Obj.adaptPercentile 0 0) l - low).toNat
    let frame := frameMs x
    let want := ceilDiv (spread + msec (ogetN d Obj.adaptMargin 0 0)) (msec frame) * frame
    let target := min (max want x.jmin) x.jmax
    let below := if target < x.depth then some (x.below.getD n) else none
    { x with target := target, insert := decide (x.depth < target), below := below }

/-- Whether the target has stayed below the depth for AdaptHold (R82). -/
def holdDone (d : Dev) (x : Channel) (n : Nat) : Bool :=
  x.below.any (fun b => decide (ogetN d Obj.adaptHold 0 0 * 2 ≤ (n - b) * 5))

/-- What the pop of a frame tick finds. -/
structure Found where
  dev  : Dev
  packet : Option Packet        -- the one that plays
  late : Bool                   -- one mapped to the tick came after its deadline

/-- The pop of frame tick n: packets found late are discarded, and the packet that plays is answered (Table 4.8). An isolated queue
underruns (R198). -/
def popFrame (d : Dev) (c n : Nat) : Found :=
  match chanOf d c with
  | none => ⟨d, none, false⟩
  | some x =>
    let l := if (queueOf d c).isolated then [] else ((heldPackets d c).map Prod.snd).filter Packet.judged
    l.foldl (fun acc p =>
      match mappedTick d x p with
      | none => acc
      | some m =>
        if (n : Int) < m then acc
        else if m = n && acc.packet.isNone && meets d c p n then { acc with packet := some p }
        else
          let d := pktCount (dropPacket acc.dev c p) c 1 1
          { acc with dev := onChan d c (fun x => { x with played := x.played.filter (fun t => t != p.ts) }),
                     late := acc.late || (decide (m = n) && !meets d c p n) }) ⟨d, none, false⟩

/-- The item of a packet that channel c holds. -/
def itemHeld (d : Dev) (c : Nat) (p : Packet) : Option QItem :=
  match (heldPackets d c).find? (fun k => decide (k.2 = p)) with
  | none => none
  | some (i, _) => (queueOf d c).items[i]?

/-- The payload in an item of a jitter queue: what follows the descriptor of 32 bytes. -/
def QItem.payload (i : QItem) : Bytes := ⟨i.data.len - 32, i.data.val / 2 ^ 256⟩

/-- The payload of a packet that channel c holds. -/
def payloadHeld (d : Dev) (c : Nat) (p : Packet) : Bytes := ((itemHeld d c p).map QItem.payload).getD noBytes

/-- The slot of a decision at frame tick n, with the tag and the values of the hearth (R88, R91) and what the channel is at that
tick. -/
def slotOf (d : Dev) (x : Channel) (n : Nat) (k : SlotKind) (data : Bytes) (poison : Bool) : Slot :=
  { tick := n, kind := k, tag := unitTag d (unitOf x), codec := epF d x.endpoint Ep.rxCodec, wide := x.rate16, run := x.conceal,
    data := data, poison := poison, params := paramsOf d (unitOf x) (profileOf x) x.rate16, dest := sendsTo x, group := x.group, member := x.member }

/-- The decision of frame tick n is kept. -/
def keepSlot (d : Dev) (c n : Nat) (k : SlotKind) (data : Bytes) (poison : Bool) : Dev :=
  match chanOf d c with
  | none => d
  | some x =>
    let s := slotOf d x n k data poison
    let d := setChan d c { x with slot := some s, todo := x.todo ++ [s], tag := s.tag }
    setEpF d x.endpoint Ep.epochTag s.tag

/-- No frame plays at frame tick n: comfort noise under DTX where no packet was mapped to it, or concealment (R84, Table 4.8). -/
def playNothing (d : Dev) (c n : Nat) (late : Bool) : Dev :=
  if (chanOf d c).any Channel.dtx && !late then keepSlot (frmCount d c 2) c n .dtx noBytes false
  else keepSlot (onChan (frmCount d c 3) c (fun x => { x with conceal := x.conceal + 1 })) c n .missing noBytes false

/-- A packet plays at frame tick n, once its item has been read; one whose cells cannot be followed does not (R198). -/
def playPacket (d : Dev) (c n : Nat) (p : Packet) : Dev :=
  match (itemHeld d c p).map (readWhole d c) with
  | some (some i, d) =>
    let d := frmCount (dropPacket d c p) c 1
    let d := onChan d c (fun x => adaptDepth d { x with playedAt := n :: x.playedAt, dtx := p.sid, conceal := 0 } n)
    keepSlot d c n (.played p) i.payload (i.poison != 0)
  | some (none, d) => playNothing d c n false
  | none => playNothing d c n false

/-- Whether treatment marks the packet of frame tick n as non-speech: every hop of it is (R82, R105). -/
def frameQuiet (d : Dev) (c : Nat) (x : Channel) (n : Nat) (p : Packet) : Bool :=
  let s := slotOf d x n (.played p) (payloadHeld d c p) false
  let i : ChainIn := { wide := s.wide, par := s.params, tick := n, conceal := false, fill := false,
                       samples := decodedFrame x.treat s (x.frameTicks * (if s.wide then 40 else 20)), send := sfind d.sends x.endpoint }
  !(treat i x.canceller x.treat).spoke.any id

/-- The depth of channel c changes by one frame, and F_A with it (R82). -/
def shiftDepth (d : Dev) (c : Nat) (up : Bool) : Dev :=
  onChan d c (fun x =>
    let f : Int := x.frameTicks
    let move := fun (a : Anchor) => { a with fa := if up then a.fa + f else a.fa - f }
    { x with depth := if up then x.depth + frameMs x else x.depth - frameMs x, anchor := x.anchor.map move })

/-- The playout decision of channel c at its frame tick n (R80 to R84). -/
def playFrame (d : Dev) (c n : Nat) : Dev :=
  match chanOf d c with
  | none => d
  | some x =>
    let due := x.firstFa.any (fun f => decide (f ≤ (n : Int)))
    if x.state = 2 then
      if due then frmCount (frmCount d c 0) c 3 else d
    else if !due then keepSlot d c n .fill noBytes false
    else
      let d := frmCount d c 0
      if x.insert then
        let d := shiftDepth (bump (frmCount d c 4) Obj.depthIncreases c 0) c true
        keepSlot (onChan d c (fun x => { x with insert := false, conceal := x.conceal + 1 })) c n .inserted noBytes false
      else
        let f := popFrame d c n
        match f.packet with
        | none => playNothing f.dev c n f.late
        | some p =>
          if holdDone d x n && (p.sid || frameQuiet f.dev c x n p) then
            let d := shiftDepth (bump (frmCount (dropPacket f.dev c p) c 5) Obj.depthDecreases c 0) c false
            let g := popFrame (onChan d c (fun x => { x with below := some n })) c n
            match g.packet with
            | some p => playPacket g.dev c n p
            | none => playNothing g.dev c n g.late
          else playPacket f.dev c n p

/-- The source of the slot of tick t: 1 DECODED, 2 CONCEALED, 3 FILL (R84, R85). -/
def slotSourceAt (x : Channel) (t : Nat) : Nat :=
  if x.state = 2 then (if x.firstFa.any (fun f => decide (f ≤ (t : Int))) then 2 else 3)
  else
    match x.slot with
    | none => 3
    | some s =>
      match s.kind with
      | .fill => 3
      | .played _ => 1
      | .dtx => 1
      | .missing => 2
      | .inserted => 2

/-- The per-tick step of channel c at tick t (R17, R85): its frame tick's decision, and the tick's account. -/
def channelTick (d : Dev) (c t : Nat) : Dev :=
  match chanOf d c with
  | none => d
  | some x =>
    let d := judgeUnion d c t
    let d := if isFrameTick x t then playFrame d c t else d
    match chanOf d c with
    | none => d
    | some x =>
      let tags := ((t, unitTag d (48 + x.engine / 16)) :: x.banks.tags).take 16
      let d := setChan d c { x with banks := { x.banks with tags := tags } }
      bump (bump d Obj.tickCounters c 0) Obj.tickCounters c (slotSourceAt x t)

/-- Whether an object is a counter that reads as it was at the last tick boundary (R89, R206, R221, R269): the tick, frame and packet
counters of a channel, the counts of its speech banks, TwinCounters, and the counters of a line port. -/
def atBoundary (code : Nat) : Bool :=
  ofChannel code || (decide (0x280101 ≤ code) && decide (code ≤ 0x280118)) || (decide (0x2B4015 ≤ code) && decide (code ≤ 0x2B401C))
where
  ofChannel (code : Nat) : Bool :=
    (decide (0x263013 ≤ code) && decide (code ≤ 0x263026)) || (decide (0x254005 ≤ code) && decide (code ≤ 0x25400F))

/-- The counters as they are at this tick boundary: those counted, PacketsHeld and BankSlotsOpen. -/
def noteShown (d : Dev) : Dev :=
  let counted := d.dict.obj.filter (fun p => atBoundary (p.1 % 2 ^ 24))
  let shown := (skeys d.chans).foldl (fun m c =>
    sput (sput m (Obj.packetCounters.key c 5) (heldCount d c : Int)) (Obj.bankSlotsOpen.key c 0) (min (ogetN d Obj.tickCounters c 0) 8 : Nat)) counted
  { d with dict := { d.dict with shown := shown } }

/-- A channel that opens has no counts to show. -/
def clearShown (d : Dev) (c : Nat) : Dev :=
  { d with dict := { d.dict with shown := d.dict.shown.filter (fun p => decide (p.1 / 2 ^ 24 ≠ c) || !atBoundary.ofChannel (p.1 % 2 ^ 24)) } }

/-- A re-anchor at tick n resynchronises channel c once its stream has started: the oldest held packet is played at the
first frame tick at or after n (R83). Line frames carry their slot, and keep it. -/
def discontinuity (d : Dev) (n c : Nat) : Dev :=
  match chanOf d c with
  | none => d
  | some x =>
    if x.state = 2 ∨ x.firstFa.isNone then d
    else
      let d := pktCount d c 7 1
      if isLine d x then d else
      match ((heldPackets d c).map Prod.snd).find? Packet.judged with
      | none => onChan d c (fun x => { x with anchor := none, early := 0 })
      | some p =>
        let a : Anchor := { fa := frameTickFrom x n, ts := p.ts, stamp := unionStamp d c p }
        onChan d c (fun x => noteDelay d c { x with anchor := some a, early := 0, delays := [] } p)

end Sys2Proof.Machine
end

