-- ==== Sys2Proof/Machine/Line.lean ====
section
/-! DEFINITION. The line ports: the decimation chain and its sample instants (R257 to R260), sync resets and UNSETTLED runs
(R261, R262), line frames (R264), the send stream (R265, R268), monitor records (R267) and calibration (R270). -/
namespace Sys2Proof.Machine

/-- Line port p. -/
def lineOf (d : Dev) (p : Nat) : LinePort := sget d.line.ports p LinePort.reset
/-- The device with line port p changed. -/
def setLine (d : Dev) (p : Nat) (x : LinePort) : Dev := { d with line := { d.line with ports := sput d.line.ports p x } }
/-- Whether line port p is powered and enabled (R255). -/
def lineRuns (d : Dev) (p : Nat) : Bool := decide (p < linesPowered d) && ogetB d Obj.portEnable p 0
/-- The ports that run. -/
def linesRunning (d : Dev) : List Nat := (List.range (linesPowered d)).filter (lineRuns d)

/-- L, K and M of port p (R259). -/
def lineFilter (d : Dev) (p : Nat) : Nat × Nat × Nat :=
  let k := ogetN d Obj.preset p 0
  if k < 4 then (presetL k, presetK k, presetM k)
  else (ogetN d Obj.cicLength p 0, ogetN d Obj.cicOrder p 0, ogetN d Obj.firDecimation p 0)
/-- The settling count N of port p. -/
def lineSettling (d : Dev) (p : Nat) : Nat :=
  let (l, k, m) := lineFilter d p
  settlingOf l k m
/-- Samples per tick of port p (R257). -/
def lineSamples (d : Dev) (p : Nat) : Nat := lineRate d p / 400
/-- The first output sample of port p at or after a media offset from the start of the tick in progress. -/
def sampleFrom (d : Dev) (p off : Nat) : Nat := ceilDiv (off * lineSamples d p) tickLen

/-- The media offset of the present moment from the start of the tick in progress. -/
def mediaOff (d : Dev) : Nat := if d.time.ticking then d.time.media - d.time.tickStart else 0

/-- Whether every output of a port is UNSETTLED until a reset: the PLL is unlocked, the port is being calibrated, or the line
shell is in block reset. -/
def lineHot (d : Dev) (x : LinePort) : Bool := !d.line.locked || x.calibrating || decide ((blockSt d 6 0).phase = 1)

/-- Whether samples of a run are still to come at sample j. -/
def LinePort.runs (x : LinePort) (j : Nat) : Bool := decide (x.runFrom < x.runTo) && decide (j < x.runTo)

/-- The run of a port begins, or goes on, at sample j and lasts N samples from there (R262). -/
def LinePort.restart (x : LinePort) (hot : Bool) (j n : Nat) : LinePort :=
  { x with runFrom := if hot || x.runs j then min x.runFrom j else j, runTo := j + n }

/-- The run of a port begins at sample j with no end yet (R257, R270). -/
def LinePort.unsettle (x : LinePort) (j : Nat) : LinePort :=
  if x.runs j then x else { x with runFrom := j, runTo := j }

/-- Whether sample k of the tick in progress carries UNSETTLED. -/
def unsettledAt (d : Dev) (x : LinePort) (k : Nat) : Bool :=
  decide (x.runFrom ≤ k) && (lineHot d x || decide (k < x.runTo))

/-- UnsettledRemaining (R262); what it shows while the run has no end yet is a free value. -/
def unsettledLeft (d : Dev) (p : Nat) : Nat × Dev :=
  let x := lineOf d p
  if lineRuns d p && lineHot d x then
    let (v, d) := freshNat d
    (v % 256, d)
  else
    let past := if d.time.ticking then mediaOff d * lineSamples d p / tickLen + 1 else 0
    (x.runTo - max x.runFrom past, d)

/-! ### Resets (R261, R262) -/

/-- Element j of the counters of port p, counted. -/
def bumpLine (d : Dev) (p j : Nat) (n : Int) : Dev := bumpBy d Obj.lineCounters p j n

/-- The run of port p becomes that of x; a run that has ended within the tick in progress is counted. -/
def setRun (d : Dev) (p : Nat) (x : LinePort) : Dev :=
  let o := lineOf d p
  let ended := if o.runFrom < o.runTo ∧ o.runTo ≤ x.runFrom then o.runTo - o.runFrom else 0
  bumpLine (setLine d p x) p 5 ended

/-- A reset of port p at a media offset; it is ignored while the port is calibrated (Table 13.4). -/
def resetLine (d : Dev) (p off : Nat) : Dev :=
  let x := lineOf d p
  if x.calibrating then d
  else bump (setRun d p (x.restart false (sampleFrom d p off) (lineSettling d p))) Obj.portSyncResets p 0

/-- One reset instant of the ports in a mask (R261). -/
def resetInstant (d : Dev) (off mask source : Nat) : Dev :=
  let d := bump d Obj.syncEvents 0 0
  let d := oset (oset d Obj.lastSyncSource 0 0 source) Obj.lastSyncTick 0 0 (curTick d + off / tickLen : Nat)
  (linesRunning d).foldl (fun d p => if bitSet mask p then resetLine d p off else d) d

/-- The resets that fall at the same modulator edge are one (Table 13.4); its source shows as the lowest of theirs. -/
def resetEdge (d : Dev) (off : Nat) : Dev :=
  let hit := d.line.edges.filter (fun e => decide (e.off = off))
  let d := { d with line := { d.line with edges := d.line.edges.filter (fun e => decide (e.off ≠ off)) } }
  resetInstant d off (hit.foldl (fun m e => Nat.lor m e.mask) 0) (hit.foldl (fun m e => min m e.source) 4)

/-- The resets whose edge has passed, earliest first; `n` bounds their number. -/
def resetDue : Nat → Dev → Dev
  | 0, d => d
  | n + 1, d =>
    let l := (d.line.edges.filter (fun e => decide (e.due ≤ now d))).map EdgeReset.off
    match l with
    | [] => d
    | o :: r => resetDue n (resetEdge d (r.foldl min o))

/-- A reset joins those that wait for their edge. -/
def addEdge (d : Dev) (off mask source : Nat) : Dev :=
  let e : EdgeReset := { due := now d + (off - mediaOff d), off := off, mask := mask, source := source }
  { d with line := { d.line with edges := d.line.edges ++ [e] } }

/-- 96 modulator periods, in the unit of time: 15,625 ns (R257). -/
def edge96 : Nat := ns 15625

/-- The modulator edge nearest a media offset. While media time is LOCKED the edges lie on the grid of the tick; else
where they lie is a free value, within half a period. -/
def edgeNear (d : Dev) (off : Nat) : Nat × Dev :=
  if d.time.mediaLocked then (((off * 192 + edge96) / (2 * edge96)) * edge96 / 96, d)
  else
    let (v, d) := freshNat d
    (off + v % (edge96 / 96 + 1) - edge96 / 192, d)

/-- The second modulator edge after a media offset, 163 to 326 ns later (R261). -/
def edgeSecond (d : Dev) (off : Nat) : Nat × Dev :=
  if d.time.mediaLocked then ((off * 96 / edge96 + 2) * edge96 / 96, d)
  else
    let (v, d) := freshNat d
    (off + edge96 / 96 + v % (edge96 / 96 + 1), d)

/-- SYNC_CONV_EDGE: an edge on SYNC_CONV `dt` from now. A pulse shorter than 330 ns is not recognised (R261). -/
def syncConvEdge (rising long : Bool) (dt : Nat) (d : Dev) : Dev :=
  if !canReach d (now d + dt) then d
  else
    let d := passTime d dt
    if !long ∨ ogetN d Obj.syncPinEdge 0 0 ≠ (if rising then 1 else 2) then d
    else
      let (off, d) := edgeSecond d (mediaOff d)
      addEdge d off (ogetN d Obj.syncPinMask 0 0) 1

/-- The converter reset of a time trigger (R35, R261). -/
def triggerReset (d : Dev) (mask : Nat) : Dev :=
  let (off, d) := edgeNear d (mediaOff d)
  addEdge d off mask 3

/-- SYNC_COMMAND: SyncCommand schedules a reset at a tick, 0 for the next one (R261). -/
def syncCommand (mask tick : Nat) (d : Dev) : Dev :=
  if tick ≠ 0 ∧ tick < curTick d + 1 then refuse d abortStore
  else
    let t := if tick = 0 then curTick d + 1 else tick
    accept { d with line := { d.line with commands := d.line.commands ++ [(t, mask)] } }

/-- SYNC_RESET: the earliest reset that waits for a modulator edge falls at it (R262). -/
def syncReset (d : Dev) : Dev :=
  match d.line.edges.map EdgeReset.due with
  | [] => d
  | a :: r =>
    let due := r.foldl min a
    if canReach d due then
      let d := passUntil d due
      resetDue d.line.edges.length d
    else d

/-- PLL_UNLOCK: every enabled port delivers UNSETTLED outputs from now on (R257). -/
def pllUnlock (d : Dev) : Dev :=
  if d.line.awake ≠ 2 ∨ d.line.locked = false then d
  else
    let d := report (bump d Obj.pllUnlocks 0 0) 0 0x0B01 0 0
    let d := (linesRunning d).foldl (fun d p => setRun d p ((lineOf d p).unsettle (sampleFrom d p (mediaOff d)))) d
    { d with line := { d.line with locked := false, unlockedTick := true } }

/-- PLL_RELOCK: an implicit reset of every enabled port at the first modulator edge after lock (R262). -/
def pllRelock (d : Dev) : Dev :=
  if d.line.awake ≠ 2 ∨ d.line.locked = true then d
  else
    let (v, d) := freshNat d
    let off := mediaOff d + v % (edge96 / 96 + 1)
    let l := linesRunning d
    let go := fun (d : Dev) p => setLine d p ((lineOf d p).restart true (sampleFrom d p off) 1)
    let d := l.foldl go { d with line := { d.line with locked := true } }
    resetInstant d off (2 ^ 64 - 1) 4

/-! ### A tick of samples (R257, R260) -/

/-- Whether the estimate is frozen at sample k of the tick in progress. -/
def LinePort.frozen (x : LinePort) (k : Nat) : Bool := ((x.freezes.reverse.find? (fun f => decide (f.1 ≤ k))).map Prod.snd).getD x.froze

/-- A write of DcFreeze, in force from the next output sample of port p (R260). -/
def dcFreezeWrite (p : Nat) (on : Bool) (d : Dev) : Dev :=
  let x := lineOf d p
  let next := mediaOff d * lineSamples d p / tickLen + 1
  let y := if lineRuns d p && d.time.ticking then { x with freezes := x.freezes ++ [(next, on)] } else { x with froze := on, freezes := [] }
  accept (oset (setLine d p y) Obj.dcFreeze p 0 (b2n on))

/-- The DC-blocking stage on the chain's samples, each with whether the estimate is frozen there: outputs before saturation, and the
estimate after them (R260). -/
def dcBlock (shift : Nat) : Int → List (Bool × Int) → List Int × Int
  | m, [] => ([], m)
  | m, (freeze, x) :: r =>
    let e := x * 65536 - m
    let m' := if freeze then m else clampInt (-2147483648) 2147483647 (m + e / ((2 ^ shift : Nat) : Int))
    let (l, last) := dcBlock shift m' r
    (Config.lineRound e :: l, last)

/-- A sample under RxGain or TxGain, in 0.1 dB (R256). -/
def lineGain (tenths x : Int) : Int := if tenths = 0 then x else Config.applyGain (100 * tenths) x

/-- What the decimation chain of port p gives for sample k of tick t, under its mode, network, filter and gain (R256 to R259). -/
def chainSample (d : Dev) (p t k : Nat) : Int :=
  let (l, o, m) := lineFilter d p
  lineGain (oget d Obj.rxGain p 0) (Config.lineSample p [ogetN d Obj.lineMode p 0, ogetN d Obj.balance p 0, l, o, m] t k)

/-- The samples that port p delivers for tick t: outputs, those saturated, and the estimate (R256, R260). -/
def takeSamples (d : Dev) (p t : Nat) : List Int × Nat × Int :=
  let x := lineOf d p
  let raw := (List.range (lineSamples d p)).map (fun k => (x.frozen k, chainSample d p t k))
  let (y, m) := dcBlock (ogetN d Obj.dcShift p 0) x.dc raw
  let clipped := fun (v : Int) => decide (v < -32767) || decide (32767 < v)
  (y.map (clampInt (-32767) 32767), (y.filter clipped).length, m)

/-- Samples as INTEGER16 bytes. -/
def pcmBytes (l : List Int) : Bytes := joinBytes (l.map (fun v => bytesOf 2 (toUnsigned 16 v)))

/-- The monitor record of port p for the tick that `old` shows in progress (Table 13.5). -/
def monitorRecord (d : Dev) (old : TimeUnit) (p : Nat) (samples : List Int) (clipped : Nat) : Bytes :=
  let x := lineOf d p
  let marked := (List.range samples.length).filter (unsettledAt d x)
  let gen := ((old.stamps.head?).map (fun s => s.2.gen)).getD old.gen
  let v := setF (setF (setF 0 MonRec.tick old.tick) MonRec.tickOffset (toUnsigned 32 old.tickOffset)) MonRec.generation gen
  let v := setF (setF v MonRec.epochTag (unitTag d 4)) MonRec.sampleCount samples.length
  let v := setF (setF v MonRec.unsettledFirst (marked.head?.getD 0)) MonRec.unsettledCount marked.length
  let v := setF (setF (setF v MonRec.port p) MonRec.discontinuity (b2n d.line.disco)) MonRec.overload (b2n (decide (clipped ≠ 0)))
  let v := setF (setF v MonRec.pllUnlocked (b2n d.line.unlockedTick)) MonRec.mode (ogetN d Obj.lineMode p 0)
  catBytes (bytesOf 32 (setF v MonRec.preset (ogetN d Obj.preset p 0))) (pcmBytes samples)

/-- The tick that `old` shows in progress ends on port p: its samples, counters and monitor record (R267, R269). -/
def endLineTick (old : TimeUnit) (d : Dev) (p : Nat) : Dev :=
  let x := lineOf d p
  let (y, clipped, m) := takeSamples d p old.tick
  let n := y.length
  let marked := ((List.range n).filter (unsettledAt d x)).length
  let d1 := bumpLine (bumpLine (bumpLine d p 0 1) p 5 marked) p 6 clipped
  let q := ogetN d Obj.monitorQueue p 0
  let d2 := if x.bound.isSome then bumpLine d1 p 1 1
    else if q = 0xFFFFFFFF then bumpLine d1 p 2 1
    else
      let (d', ok) := qPushBytes d1 q (monitorRecord d old p y clipped)
      bumpLine d' p (if ok then 3 else 4) 1
  let till := if lineHot d x then max x.runTo n else x.runTo
  setLine d2 p { x with froze := x.frozen (n - 1), freezes := (x.freezes.filter (fun f => decide (n ≤ f.1))).map (fun f => (f.1 - n, f.2)),
                        dc := m, taken := ((old.tick, y) :: x.taken).take 40, runFrom := x.runFrom - n, runTo := till - n }

/-- Every port's tick ends (R257). Resets whose edge has passed come first; those still to come count from the new tick. -/
def lineTickEnd (old : TimeUnit) (d : Dev) : Dev :=
  if !old.ticking then d
  else
    let d := resetDue d.line.edges.length d
    let d := (linesRunning d).foldl (endLineTick old) d
    let edges := d.line.edges.map (fun e => { e with off := e.off - tickLen })
    { d with line := { d.line with edges := edges, unlockedTick := !d.line.locked } }

/-! ### Changes at an epoch (R255, R259) -/

/-- Ports whose settings an epoch changed: a port that is enabled starts its counters anew; a new preset or mode makes the
first N outputs UNSETTLED. -/
def lineEpoch (old : Dev) (d : Dev) : Dev :=
  (List.range (linesPowered d)).foldl (fun d p =>
    let was := ogetB old Obj.portEnable p 0
    let is := ogetB d Obj.portEnable p 0
    let x := lineOf d p
    if is && !was then
      let d := (List.range 8).foldl (fun d j => oset d Obj.lineCounters p j 0) (oset d Obj.portSyncResets p 0 0)
      setLine d p { x with runFrom := 0, runTo := 0, taken := [], froze := ogetB d Obj.dcFreeze p 0, freezes := [] }
    else if !is then (if was then setLine d p { x with runFrom := 0, runTo := 0, taken := [] } else d)
    else if ogetN old Obj.preset p 0 ≠ ogetN d Obj.preset p 0 ∨ ogetN old Obj.lineMode p 0 ≠ ogetN d Obj.lineMode p 0
        ∨ lineFilter old p ≠ lineFilter d p then
      setLine d p (x.restart (lineHot d x) 0 (lineSettling d p))
    else d) d

/-! ### Line frames and the send stream -/

/-- Lr: a sample of tick c is receive slot c + Lr (R264). -/
def lineLag (x : Channel) : Nat := x.frameTicks + 1

/-- The samples that make up the line frame of channel x for frame tick f: ticks f − Lr to f − 2. -/
def lineFrameSamples (d : Dev) (x : Channel) (f : Nat) : List Int :=
  let p := epF d x.endpoint Ep.linePort
  (List.range x.frameTicks).flatMap (fun i =>
    match (lineOf d p).taken.find? (fun k => decide (k.1 + lineLag x = f + i)) with
    | some k => k.2
    | none => List.replicate (lineSamples d p) 0)

/-- At the start of tick t, the line frame of channel c for frame tick t + 1 is pushed to its jitter queue (R264). -/
def pushLineFrame (t : Nat) (d : Dev) (c : Nat) : Dev :=
  match chanOf d c with
  | none => d
  | some x =>
    if !isLine d x ∨ isFrameTick x (t + 1) = false ∨ t + 1 < x.openTick + lineLag x then d
    else
      let b := pcmBytes (lineFrameSamples d x (t + 1))
      let k : Packet := { ts := (t + 1) % 2 ^ 32, seq := (t + 1) % 65536, stamp := netNow d, octets := b.len, marker := false, sid := false,
                          fetched := false, judged := false }
      packetArrives d c k b

/-- What TxQueue gives port p for tick t: records of past ticks are discarded, one of a later tick waits (R268). -/
def takeTx (t p q n : Nat) : Nat → Dev → List Int × Dev
  | 0, d => (List.replicate n 0, d)
  | fuel + 1, d =>
    match (queueOf d q).items.head?.bind (fun i => (readWhole d q i).1) with
    | none => (List.replicate n 0, bumpLine (takeItem d q).2 p 7 1)
    | some i =>
      let v := i.data.val
      let at_ := getF v MonRec.tick
      if t < at_ then (List.replicate n 0, bumpLine d p 7 1)
      else
        let d := (takeItem d q).2
        if at_ < t then takeTx t p q n fuel (bumpLine d p 7 1)
        else
          let count := getF v MonRec.sampleCount
          ((List.range n).map (fun k => if k < count then toSigned 16 (bitsAt v (256 + 16 * k) 16) else 0), d)

/-- What port p presents to its transmit chain during tick t (R265, R268). -/
def lineTx (t : Nat) (d : Dev) (p : Nat) : Dev :=
  let x := lineOf d p
  let n := lineSamples d p
  let q := ogetN d Obj.txQueue p 0
  let (l, d) :=
    if (x.bound.bind (fun c => chanOf d c)).any (fun k => decide (k.output ≠ 0xFFFFFFFF)) then
      let s := if x.mute = 0 then x.sent.find? (fun k => decide (k.1 + x.delay = t)) else none
      let keep := x.sent.filter (fun k => decide (t < k.1 + x.delay))
      ((s.map Prod.snd).getD (List.replicate n 0), setLine d p { x with sent := keep, mute := x.mute - 1 })
    else if ogetN d Obj.txSource p 0 = 2 then
      if q = 0xFFFFFFFF then (List.replicate n 0, bumpLine d p 7 1) else takeTx t p q n ((queueOf d q).items.length + 1) d
    else (List.replicate n 0, d)
  if ogetN d Obj.lineMode p 0 = 2 || x.calibrating then d else emit d (.line p (l.map (fun v => sat16 (lineGain (oget d Obj.txGain p 0) v))))

/-- The line shell at the start of tick t, after the epoch and the setup records: scheduled resets, line frames and the
send stream. -/
def lineTickStart (t : Nat) (reanchored : Bool) (d : Dev) : Dev :=
  let hit := d.line.commands.filter (fun c => decide (c.1 ≤ t))
  let d := { d with line := { d.line with disco := reanchored, commands := d.line.commands.filter (fun c => decide (t < c.1)) } }
  let d := if hit.isEmpty then d
    else
      let (off, d) := edgeNear d 0
      resetDue (d.line.edges.length + 1) (addEdge d off (hit.foldl (fun m c => Nat.lor m c.2) 0) 2)
  let d := (skeys d.chans).foldl (pushLineFrame t) d
  (linesRunning d).foldl (lineTx t) d

/-! ### Calibration (R255, R270) -/

/-- LineDieTemperature: the higher of sensors 4 and 5 (R312). -/
def lineDieTemp (d : Dev) : Int := max (d.start.temps.getD 4 0) (d.start.temps.getD 5 0)

/-- The values that a calibration of port p stores: free values. -/
def storeCalibration (d : Dev) (p : Nat) : Dev :=
  [Obj.calOffsetRx, Obj.calGainRx, Obj.calOffsetTx, Obj.calGainTx].foldl (fun d r =>
    let (v, d) := freshInt d
    oset d r p 0 (clampInt (-2147483648) 2147483647 v)) d

/-- A calibration has been made at the present line die temperature. -/
def calibrated (d : Dev) : Dev :=
  { d with line := { d.line with calTemp := lineDieTemp d, drift := false,
                                 calibration := if d.line.ports.any (fun p => p.2.calibrating) then 1 else 2 } }

/-- RECALIBRATE_NOW: port p is calibrated; refused while it is bound (R270). -/
def recalibrateNow (p : Nat) (d : Dev) : Dev :=
  let x := lineOf d p
  if linesPowered d ≤ p ∨ x.bound.isSome then refuse d abortState
  else
    let x := { x.unsettle (sampleFrom d p (mediaOff d)) with calibrating := true }
    let d := accept (setRun d p x)
    { d with line := { d.line with calibration := 1 } }

/-- CALIBRATION_COMPLETE: the calibration of port p ends with a reset of the port (R270). -/
def calibrationComplete (p : Nat) (d : Dev) : Dev :=
  let x := lineOf d p
  if x.calibrating = false then d
  else
    let j := sampleFrom d p (mediaOff d)
    let d := storeCalibration (setLine d p { x.restart true j (lineSettling d p) with calibrating := false }) p
    calibrated (bump d Obj.portSyncResets p 0)

/-- CAL_DRIFT: the line die reads `temp`; beyond 10.0 °C of CalibrationTemperature one notice is raised until the next
calibration (R270). Its instance is 0. -/
def calDrift (temp : Int) (d : Dev) : Dev :=
  let d := { d with start := { d.start with temps := (d.start.temps.set 4 temp).set 5 temp } }
  if d.line.awake ≠ 2 ∨ d.line.drift ∨ (temp - d.line.calTemp).natAbs ≤ 100 then d
  else report { d with line := { d.line with drift := true } } 0 0x0B02 0 0

/-- LINE_SHELL_ENABLE: a write of LineShellEnable wakes or sleeps the line shell (R255). -/
def lineShellEnable (on : Bool) (d : Dev) : Dev :=
  if on then
    let d := accept (oset d Obj.lineShellEnable 0 0 1)
    if d.line.awake = 0 then { d with line := { d.line with awake := 1, calibration := 1 } } else d
  else if d.line.ports.any (fun p => p.2.bound.isSome) then refuse d abortState
  else
    let ports := d.line.ports.map (fun p => (p.1, { LinePort.reset with dc := p.2.dc, froze := ogetB d Obj.dcFreeze p.1 0 }))
    accept (oset { d with line := { d.line with awake := 0, locked := false, calibration := 0, edges := [], ports := ports } }
      Obj.lineShellEnable 0 0 0)

/-- The line shell is awake: its ports are calibrated and start with a reset each (R255, R270). -/
def lineAwake (d : Dev) : Dev :=
  let d := { d with line := { d.line with awake := 2, locked := true } }
  let d := (List.range (linesPowered d)).foldl storeCalibration d
  let d := (linesRunning d).foldl (fun d p =>
    let x := lineOf d p
    setLine d p (x.restart false (sampleFrom d p (mediaOff d)) (lineSettling d p))) d
  calibrated d

end Sys2Proof.Machine
end

