-- ==== Sys2Proof/Machine/PauseTx.lean ====
section
/-! DEFINITION. The pause that a port sends for ingress congestion (R48). Under PAUSE the rule's priority is all eight (R47): the
cells are those of every priority, and a voice priority among them forbids the pause unless PauseTxVoice is set (log entry 78). -/
namespace Sys2Proof.Machine

/-- Port p. -/
def portOf (d : Dev) (p : Nat) : Port := sget d.fwd.ports p Port.reset
/-- The device with port p changed. -/
def setPort (d : Dev) (p : Nat) (x : Port) : Dev := { d with fwd := { d.fwd with ports := sput d.fwd.ports p x } }

/-- What a pause sent by port p for priority q is held under: the priority, or 8 for all of them under PAUSE. -/
def pauseKey (d : Dev) (p q : Nat) : Nat := if ogetN d Obj.pauseMode p 0 = 1 then 8 else q

/-- Cells that frames received on port p hold, of priority k or, for 8, of every priority (R48). -/
def ingressCells (d : Dev) (p k : Nat) : Nat :=
  sumNat (d.queues.map (fun x => sumNat (x.2.items.map (fun i =>
    match i.info with
    | .frame f => if f.inPort = some p ∧ (k = 8 ∨ f.inPrio = k) then i.cells else 0
    | _ => 0))))

/-- The multicast address of MAC control frames, first octet lowest. -/
def pauseMac : Nat := 0x010000C28001

/-- The MAC control frame of a pause (IEEE 802.3 Annex 31B, IEEE 802.1Qbb): opcode, class-enable vector and times in network
order, padded. -/
def pauseFrame (d : Dev) (p k quanta : Nat) : List Nat :=
  let body := if k = 8 then netOctets 2 0x0001 ++ netOctets 2 quanta
    else netOctets 2 0x0101 ++ netOctets 2 (2 ^ k) ++ (List.range 8).flatMap (fun i => netOctets 2 (if i = k then quanta else 0))
  etherFrame (lowOctets 6 pauseMac) (lowOctets 6 (ogetN d Obj.macAddress p 0)) none 0x8808 (body ++ List.replicate (46 - body.length) 0)

/-- A pause frame leaves port p. -/
def sendPause (d : Dev) (p k quanta : Nat) : Dev := bump (sendDirect d p 0x8808 (pauseFrame d p k quanta)) Obj.txCounters p 2

/-- Whether port p sends pause under key k (R47, R48). -/
def sendsPause (d : Dev) (p k : Nat) : Bool :=
  let voice := ogetN d Obj.voicePriorityMask 0 0
  decide (ogetN d Obj.pauseMode p 0 ≠ 0) && (portOf d p).linkUp
    && (ogetB d Obj.pauseTxVoice p 0 || (if k = 8 then decide (voice % 256 = 0) else !bitSet voice k))

/-- What is kept of the pause that port p has sent under key k. -/
def setXoff (d : Dev) (p k : Nat) (v : Option (Nat × Bool)) : Dev :=
  let o := portOf d p
  setPort d p { o with xoff := match v with
    | some x => sput o.xoff k x
    | none => serase o.xoff k }

/-- A pause is sent where the cells of priority q of port p come to exceed XoffCells, and one of time zero where they fall below
XonCells (R48). -/
def ingressPause (d : Dev) (p q : Nat) : Dev :=
  let k := pauseKey d p q
  let n := ingressCells d p k
  let excess := decide (ogetN d Obj.xoffCells p 0 < n) && sendsPause d p k
  let start := fun (d : Dev) => sendPause (setXoff d p k (some (now d, true))) p k (ogetN d Obj.pauseTxQuanta p 0)
  match sfind (portOf d p).xoff k with
  | none => if excess then start d else d
  | some (t, stands) =>
    if n < ogetN d Obj.xonCells p 0 then sendPause (setXoff d p k none) p k 0
    else if !excess then setXoff d p k (some (t, false))
    else if stands then d
    else start d

/-- PAUSE_TX_REFRESH (R48): at half its time the pause is repeated while the excess lasts. -/
def pauseTxRefresh (p q : Nat) (d : Dev) : Dev :=
  let k := pauseKey d p q
  match sfind (portOf d p).xoff k with
  | some (t, true) =>
    let quanta := ogetN d Obj.pauseTxQuanta p 0
    let due := t + bitTimes d p (quanta * 512) / 2
    if !canReach d due then d
    else
      let d := passUntil d due
      if decide (ogetN d Obj.xoffCells p 0 < ingressCells d p k) && sendsPause d p k then
        sendPause (setXoff d p k (some (now d, true))) p k quanta
      else ingressPause d p q
  | _ => ingressPause d p q

/-- Items have left a queue: the frames among them no longer hold ingress cells. -/
def settlePause (d : Dev) (gone : List QItem) : Dev :=
  gone.foldl (fun d i =>
    match i.info with
    | .frame f =>
      match f.inPort with
      | some p => ingressPause d p f.inPrio
      | none => d
    | _ => d) d

/-- The items that queue q lost between two states. -/
def goneFrom (before after : Dev) (q : Nat) : List QItem :=
  let x := (queueOf before q).items
  x.take (x.length - (queueOf after q).items.length)

/-- What `f` does to queue q, with the ingress cells that it frees there. -/
def settling (q : Nat) (f : Dev → Dev) (d : Dev) : Dev := settlePause (f d) (goneFrom d (f d) q)

/-- QRELEASE of queue q, with the ingress cells that it frees. -/
def releaseItems (d : Dev) (q : Nat) : Dev × Bool := (settling q (fun d => (rawRelease d q).1) d, (rawRelease d q).2)

end Sys2Proof.Machine
end

