-- ==== Sys2Proof/Machine/Ports.lean ====
section
/-! DEFINITION. The Ethernet ports and the forwarding path: layouts and links (R41, R42), received frames (R43 to R45, R50 to
R56), SRTP outcomes (R57, R58), pause and the damper (R47 to R49), the egress scheduler (R46, R60). -/
namespace Sys2Proof.Machine

/-! ### Ports -/

/-- An object that does not exist. -/
def abortNoObject : Nat := 0x06020000

/-- A counter of received frames (0x02 of Table 3.12). -/
def rxCount (d : Dev) (p j : Nat) : Dev := bump d Obj.rxCounters p j
/-- A counter of transmitted frames: 0 TxFrames, 1 TxOctets, 2 TxPause, 3 TxEgressOversize, 4 EgressQueueRefused. -/
def txCount (d : Dev) (p j n : Nat) : Dev := bumpBy d Obj.txCounters p j n

/-- The lanes of port p, as a mask. -/
def portLaneMask (d : Dev) (p : Nat) : Nat := (2 ^ portLanes d p - 1) * 2 ^ p
/-- Whether a lane of port p failed calibration (Table 16.5). -/
def laneFailed (d : Dev) (p : Nat) : Bool := (List.range 32).any (fun i => (portLaneMask d p).testBit i && d.start.lanes.testBit i)

/-- LANE_GROUP_MODE_WRITE (R15, R41): refused while any port of the group is administratively up. -/
def laneGroupModeWrite (g mode : Nat) (d : Dev) : Dev :=
  if 8 ≤ g then refuse d abortNoObject
  else if lanesOf d ≤ 4 * g then refuse d abortState
  else if 5 < mode ∨ (lanesOf d = 2 ∧ ¬ (mode = 1 ∨ mode = 3 ∨ mode = 4)) then refuse d abortRange
  else if (List.range 4).any (fun i => ogetB d Obj.adminUp (4 * g + i) 0) then refuse d abortState
  else accept (oset d Obj.laneGroupMode 0 g mode)

/-- The link of port p goes down. -/
def linkDown (d : Dev) (p : Nat) : Dev :=
  let x := portOf d p
  if x.linkUp then bump (setPort d p { x with linkUp := false, txPrio := none }) Obj.linkDownCount p 0 else d

/-- ADMIN_UP_WRITE (R12, R184): a port is enabled once VDD_CORE is at 0.720 V, with no command below that on its way; until then
the write waits. -/
def adminUpWrite (p v : Nat) (d : Dev) : Dev :=
  if 32 ≤ p then refuse d abortNoObject
  else if !portExists d p then refuse d abortState
  else if 1 < v then refuse d abortRange
  else
    let a := d.stk.avs
    let others := a.ports.filter (fun x => x != p)
    let waits := decide (v = 1) && (decide (a.reported < 720) || decide (a.command < 720))
    let d := { d with stk := { d.stk with avs := { a with ports := if waits then others ++ [p] else others } } }
    if waits then accept d
    else if v = 1 then accept (oset d Obj.adminUp p 0 1)
    else accept (linkDown (oset d Obj.adminUp p 0 0) p)

/-- A port's link comes up, where the port is enabled on good lanes, or goes down (R42). -/
def linkChange (p : Nat) (up : Bool) (d : Dev) : Dev :=
  if !portExists d p then d
  else if up then
    if ogetB d Obj.adminUp p 0 && !laneFailed d p && !quenched d && !d.start.resetLow && decide (d.start.state < 2)
      && decide ((blockSt d 1 p).phase ≠ 1) then
      setPort d p { portOf d p with linkUp := true }
    else d
  else linkDown d p

/-! ### Items of frames -/

/-- Octets of a received frame with its FCS. -/
def Frame.octets (f : Frame) : Nat := f.data.len + 4
/-- The octets themselves. -/
def Frame.whole (f : Frame) : Bytes := catBytes f.data (bytesOf 4 f.fcs)

/-- The item of a frame received on port p with priority q. -/
def frameItem (d : Dev) (p q : Nat) (data : Bytes) : QItem :=
  QItem.of data (.frame { inPort := some p, inPrio := q, stamp := now d, order := d.fwd.order })

/-- A frame of port p is pushed to a queue, where one is named. -/
def pushFrame (d : Dev) (q p prio : Nat) (data : Bytes) : Dev × Bool :=
  if 262144 ≤ q then (d, false)
  else
    let (d, ok) := qPush d q false (frameItem d p prio data)
    (if ok then { d with fwd := { d.fwd with order := d.fwd.order + 1 } } else d, ok)

/-- To the ControlQueue of port p; a frame that it does not take is lost there. -/
def toControl (d : Dev) (p : Nat) (f : Frame) : Dev := (pushFrame d (ogetN d Obj.controlQueue p 0) p f.prio f.data).1

/-- Forwarded to egress queue q of port p. -/
def toEgress (d : Dev) (out q inp : Nat) (prio : Nat) (data : Bytes) : Dev :=
  let (d, ok) := pushFrame d (196608 + 8 * out + q) inp prio data
  if ok then d else txCount d out 4 1

/-! ### Pause (R47 to R49) -/

/-- The pause state of priority q of port p. -/
def pauseOf (d : Dev) (p q : Nat) : Pause := sget (portOf d p).pauses q Pause.none
/-- The device with it changed. -/
def setPause (d : Dev) (p q : Nat) (x : Pause) : Dev :=
  let o := portOf d p
  setPort d p { o with pauses := sput o.pauses q x }

/-- When the frame on the wire of port p, of priority q (or any, under PAUSE), ends; now where none is. -/
def wireFree (d : Dev) (p : Nat) (q : Option Nat) : Nat :=
  let o := portOf d p
  match o.txPrio with
  | some x => if q.all (fun y => decide (y = x)) then max (now d) o.txEnd else now d
  | none => now d

/-- Table 3.4 for one priority of port p: a pause of `quanta` that takes effect at elapsed time `start`. The time of one that comes
before the first has taken effect runs from then too. -/
def pausePriority (d : Dev) (p q start quanta : Nat) : Dev :=
  let x := pauseOf d p q
  if x.ignore.any (fun t => decide (now d < t)) then bump d Obj.pauseIgnored p q
  else
    let standing := x.from_.isSome && decide (now d < x.until_)
    if quanta = 0 then setPause d p q { x with from_ := none, until_ := 0 }
    else
      let len := bitTimes d p (quanta * 512)
      if standing then setPause d p q { x with until_ := max (now d) (x.from_.getD 0) + len }
      else setPause d p q { x with from_ := some start, until_ := start + len }

/-- A MAC control frame on port p (Table 3.4). One to the port with another opcode is consumed, and counts nowhere but among the
received frames: the table has no row for it (DESIGN CHOICE, log entry 78). -/
def receiveControl (d : Dev) (p : Nat) (k : FrameKind) : Dev :=
  let mode := ogetN d Obj.pauseMode p 0
  let mine := fun (dst : Nat) => decide (dst = pauseMac) || decide (dst = ogetN d Obj.macAddress p 0)
  match k with
  | .pause dst quanta =>
    let d := rxCount d p 12
    if mine dst && decide (mode = 1) then
      let start := wireFree d p none
      (List.range 8).foldl (fun d q => pausePriority d p q start quanta) d
    else d
  | .pfc dst enable quanta =>
    if mine dst then
      (setBits 8 enable).foldl (fun d q =>
        let d := bump d Obj.rxPfcFrames p q
        if mode = 2 then pausePriority d p q (wireFree d p (some q)) (quanta.getD q 0) else d) d
    else rxCount d p 12
  | .control dst => if mine dst then d else rxCount d p 12
  | _ => d

/-- Whether priority q of port p is paused now. -/
def pausedNow (d : Dev) (p q : Nat) : Bool :=
  let x := pauseOf d p q
  x.from_.any (fun t => decide (t ≤ now d)) && decide (now d < x.until_)

/-- PAUSE_EXPIRY. -/
def pauseExpiry (p q : Nat) (d : Dev) : Dev :=
  let x := pauseOf d p q
  if x.from_.isNone || !canReach d x.until_ then d
  else
    let d := passUntil d x.until_
    setPause d p q { x with from_ := none, until_ := 0 }

/-- The watchdog limit of priority q of port p, ms: under PAUSE the smallest of the eight (R49). -/
def watchdogLimit (d : Dev) (p q : Nat) : Nat :=
  if ogetN d Obj.pauseMode p 0 = 1 then
    (List.range 8).foldl (fun m i => min m (ogetN d Obj.pauseWatchdogLimit p i)) (ogetN d Obj.pauseWatchdogLimit p 0)
  else ogetN d Obj.pauseWatchdogLimit p q

/-- The frames of an egress queue that are older than `age` ms. -/
def agedItem (d : Dev) (age : Nat) (i : QItem) : Bool :=
  match i.info with
  | .frame f => decide (f.stamp + msec age < now d)
  | _ => false

/-- Frames of priority q of port p past DamperAgeLimit are discarded: how many (R49). -/
def damperDiscard (d : Dev) (p q : Nat) : Dev × Nat :=
  let age := ogetN d Obj.damperAgeLimit p q
  let n := 196608 + 8 * p + q
  let x := queueOf d n
  if age = 0 then (d, 0)
  else
    let gone := x.items.filter (agedItem d age)
    let keep := x.items.filter (fun i => !agedItem d age i)
    (settlePause (setQueue d n { x with items := keep, read := 0, off := 0, mark := none }) gone, gone.length)

/-- A break of priority q of port p (R49). -/
def breakPause (d : Dev) (p q : Nat) : Dev :=
  let d := setPause d p q { from_ := none, until_ := 0, ignore := some (now d + msec (ogetN d Obj.damperIgnoreTime 0 0)) }
  let (d, n) := damperDiscard d p q
  bumpBy (bump d Obj.damperBreaks p q) Obj.damperDiscards p q n

/-- The priorities that a break acts on: under PAUSE the port's eight (R60). -/
def breakScope (d : Dev) (p q : Nat) : List Nat := if ogetN d Obj.pauseMode p 0 = 1 then List.range 8 else [q]

/-- DAMPER_BREAK (R49): the hold time of priority q of port p reaches its limit while it is paused. Under PAUSE it counts for each
priority, and one notice is given (log entry 78). -/
def damperBreak (p q : Nat) (d : Dev) : Dev :=
  let x := pauseOf d p q
  match x.from_ with
  | none => d
  | some t =>
    let due := t + msec (watchdogLimit d p q)
    if x.until_ ≤ due ∨ canReach d due = false then d
    else
      let d := passUntil d due
      report ((breakScope d p q).foldl (fun d q => breakPause d p q) d) 0 0x0101 p q

/-- DAMPER_IGNORE_END. -/
def damperIgnoreEnd (p q : Nat) (d : Dev) : Dev :=
  let x := pauseOf d p q
  match x.ignore with
  | none => d
  | some t => if canReach d t then setPause (passUntil d t) p q { x with ignore := none } else d

/-! ### The endpoint lookup and the cipher pipeline (R51, R57, R58, R66) -/

/-- The index of a MediaAddress, where the address is one. -/
def mediaIndex (d : Dev) (addr : Nat) : Option Nat :=
  if addr = 0 then none else (List.range 16).find? (fun i => decide (ogetN d Obj.mediaAddress 0 i = addr))

/-- Whether endpoint context v has the lookup key of a packet to media address `addr` and UDP port `port`, for RTP or for
RTCP by its own port. -/
def lookupKey (d : Dev) (v addr port : Nat) : Bool :=
  decide (getF v Ep.state ≠ 0) && decide (getF v Ep.kind ≠ 2)
    && decide (ogetN d Obj.mediaAddress 0 (getF v Ep.mediaAddressIndex) = addr)
    && (decide (getF v Ep.localPort = port) || (decide (getF v Ep.localRtcpPort = port) && decide (port ≠ 0)))

/-- Whether a packet that hit context v is RTCP. -/
def isRtcp (v port pt : Nat) : Bool :=
  (decide (getF v Ep.localRtcpPort = port) && decide (port ≠ 0))
    || (bitSet (getF v Ep.flags) 1 && decide (200 ≤ pt) && decide (pt ≤ 204))

/-- Whether the source of a packet agrees with context v (R51). -/
def sourceAgrees (v : Nat) (key : Nat) (m : MediaInfo) : Bool :=
  let port := getF key FlowKey.srcPort
  let rtcp := isRtcp v (getF key FlowKey.dstPort) m.pt
  let mux := bitSet (getF v Ep.flags) 1
  decide (getF v Ep.remoteAddress = getF key FlowKey.srcAddress) && decide (getF v Ep.rxSsrc = m.ssrc)
    && decide (port = if rtcp && !mux then getF v Ep.remoteRtcpPort else getF v Ep.remotePort)

/-- The endpoint that a packet hits. Where several share the key, one whose source agrees is taken. -/
def lookup (d : Dev) (key : Nat) (m : MediaInfo) : Option (Nat × Nat) :=
  let hits := d.endpoints.filter (fun e => lookupKey d e.2 (getF key FlowKey.dstAddress) (getF key FlowKey.dstPort))
  match hits.find? (fun e => sourceAgrees e.2 key m) with
  | some e => some e
  | none => hits.head?

/-- The roll-over counter that RFC 3711 guesses for a sequence number, modulo 2³² (R57). -/
def guessRoc (roc high seq : Nat) : Nat :=
  if high < 32768 then (if high + 32768 < seq then (roc + (2 ^ 32 - 1)) % 2 ^ 32 else roc)
  else if seq + 32768 < high then (roc + 1) % 2 ^ 32 else roc

/-- How far the index of a packet with that guess lies beyond the highest one, indexes taken modulo 2⁴⁸. -/
def indexAhead (high seq : Nat) : Int :=
  let x : Int := (seq : Int) - high
  if 32768 < x then x - 65536 else if x < -32768 then x + 65536 else x

/-- A replay window of 128 packets, its highest index at bit 0, after an index that lies `ahead` of the highest: none where that
was seen or is too old (Table 3.9). An empty window takes any index. -/
def slideWindow (map : Nat) (ahead : Int) : Option Nat :=
  let back := (-ahead).toNat
  if map = 0 ∨ 128 ≤ ahead then some 1
  else if 0 < ahead then some ((map * 2 ^ ahead.toNat + 1) % 2 ^ 128)
  else if 128 ≤ back ∨ map.testBit back then none
  else some (map + 2 ^ back)

/-- The replay row of Table 3.9 for an SRTP packet of context v: none where it is dropped; else the context with its index
marked. -/
def replayCheck (v seq : Nat) : Option Nat :=
  let high := getF v Ep.rxHighestSeq
  let map := getF v Ep.replayBitmap
  let ahead := indexAhead high seq
  (slideWindow map ahead).map (fun m =>
    let v := setF v Ep.replayBitmap m
    if map = 0 then setF v Ep.rxHighestSeq seq
    else if 0 < ahead then setF (setF v Ep.rxRoc (guessRoc (getF v Ep.rxRoc) high seq)) Ep.rxHighestSeq seq
    else v)

/-- The same for an SRTCP packet of endpoint k, by its own index (R57). -/
def rtcpCheck (d : Dev) (k index : Nat) : Option Dev :=
  let x := sget d.fwd.rtcp k (0, 0)
  let ahead := (index : Int) - x.1
  (slideWindow x.2 ahead).map (fun m =>
    { d with fwd := { d.fwd with rtcp := sput d.fwd.rtcp k (if x.2 = 0 ∨ 0 < ahead then index else x.1, m) } })

/-- The cipher pipeline takes a frame of `octets` now (R57). -/
def noteCipher (d : Dev) (octets : Nat) : Dev :=
  let l := d.fwd.cipher.filter (fun x => decide (now d < x.1 + msec 100))
  { d with fwd := { d.fwd with cipher := (now d, octets) :: l } }

/-- CipherLoad: Mbit/s over the last 100 ms (0x2102:02). -/
def cipherMbits (d : Dev) : Nat :=
  sumNat ((d.fwd.cipher.filter (fun x => decide (now d < x.1 + msec 100))).map Prod.snd) * 8 / 100000

/-- Whether a packet authenticates, and whether under the previous key, which has its own MKI and stays usable for 500 ticks
(R66). -/
def authentic (d : Dev) (k v : Nat) (m : MediaInfo) : Bool × Bool :=
  let old := fun (mki : Bool) => (sfind d.setup.prevKeys k).any (fun x =>
    decide (curTick d ≤ x.tick) && (!mki || (decide (x.mkiLength ≠ 0) && decide (m.mki = x.mki)))) && m.okPrev
  if getF v Ep.mkiLength ≠ 0 then
    if m.mki = getF v Ep.mki then (m.okNew, false) else (old true, true)
  else if m.okNew then (true, false) else (old false, true)

/-- The replay row of Table 3.9 for a packet of endpoint k. -/
def notReplayed (d : Dev) (k : Nat) (rtcp : Bool) (m : MediaInfo) : Option Dev :=
  if rtcp then rtcpCheck d k m.index
  else (replayCheck (epOf d k) m.seq).map (fun v => { d with endpoints := sput d.endpoints k v })

/-- RTCP of endpoint k goes to the control queue of the channel bound to it, and where none is, to the ingress port's ControlQueue
(Table 9.2, R191). -/
def rtcpArrives (d : Dev) (p c : Nat) (f : Frame) (m : MediaInfo) : Dev :=
  if 65536 ≤ c then toControl d p f
  else
    let (d, ok) := qPush d (65536 + c) false (plainItem m.payload)
    match ok, chanOf d c with
    | true, some x => hwPost d 16 x.thread 3 c
    | _, _ => d

/-- A packet of endpoint k that passed the lookup: the cipher pipeline, then its queue (R51, R58, Table 3.9). A packet is
authenticated before the replay row is asked (DESIGN CHOICE, log entry 78). What RxOctets counts of a packet is a free value. -/
def mediaPacket (d : Dev) (port k : Nat) (f : Frame) (m : MediaInfo) : Dev :=
  let v := epOf d k
  let rtcp := isRtcp v (getF f.key FlowKey.dstPort) m.pt
  if m.overflow then bump d Obj.cipherOverflow 0 0
  else
    let d := noteCipher d f.octets
    let (ok, prev) := authentic d k v m
    if !ok then bumpEp (bump d Obj.authFailures 0 0) k Ep.authFailures 1
    else
      match notReplayed d k rtcp m with
      | none => bumpEp (bump d Obj.replayDrops 0 0) k Ep.replayDrops 1
      | some d =>
        let d := if prev then bumpEp d k Ep.keyFallbacks 1 else d
        let (o, d) := freshNat d
        let d := bumpEp (bumpEp d k Ep.rxPackets 1) k Ep.rxOctets (o % (f.octets + 1))
        let c := getF v Ep.boundChannel
        if rtcp then rtcpArrives d port c f m
        else
          let p : Packet := { ts := m.ts, seq := m.seq, stamp := ingressStamp d port f.octets, octets := m.payload.len,
                              marker := m.marker, sid := m.sid, fetched := false, judged := false }
          packetArrives d c p m.payload

/-- The ledger entry of a media packet that channel c's jitter buffer has accepted (R211, Table 10.5). -/
def ledgerNote (before after : Dev) (port c : Nat) (f : Frame) (m : MediaInfo) : Dev :=
  if twinned after && decide ((queueOf before c).items.length < (queueOf after c).items.length) then
    let e : LedgerEntry := { channel := c, seq := m.seq, ts := m.ts, stamp := ingressStamp before port f.octets,
                             digest := crcOf 0 m.payload, octets := m.payload.len,
                             marker := m.marker, sid := m.sid }
    { after with twin := { after.twin with entries := after.twin.entries ++ [e] } }
  else after

/-! ### The flow table (R52 to R55) -/

/-- The first `n` bits of a 16-octet address, first octet lowest, as a number. -/
def addressPrefix (n v : Nat) : Nat :=
  (List.range 16).foldl (fun acc i => acc * 256 + bitsAt v (8 * i) 8) 0 / 2 ^ (128 - min 128 n)

/-- Whether two keys agree on what mask profile m compares. -/
def keysAgree (d : Dev) (m a b : Nat) : Bool :=
  let mask := ogetN d Obj.fieldMask m 0
  let same := fun (i : Nat) (f : Fld) => !mask.testBit i || decide (getF a f = getF b f)
  let near := fun (i n : Nat) (f : Fld) => !mask.testBit i || decide (addressPrefix n (getF a f) = addressPrefix n (getF b f))
  same 0 FlowKey.ingressPort && same 1 FlowKey.vlan && same 2 FlowKey.etherType && same 3 FlowKey.dstMac
    && same 4 FlowKey.ipVersion && near 5 (ogetN d Obj.srcPrefix m 0) FlowKey.srcAddress
    && near 6 (ogetN d Obj.dstPrefix m 0) FlowKey.dstAddress && same 7 FlowKey.protocol && same 8 FlowKey.srcPort
    && same 9 FlowKey.dstPort && same 10 FlowKey.dscp

/-- The installed entries. -/
def installed (d : Dev) : List Nat := (d.fwd.placed.filter (fun p => decide (p.2 = 2))).map Prod.fst

/-- The flow entry that a key hits: the first hit of the enabled profiles in order. -/
def flowHit (d : Dev) (key : Nat) : Option Nat :=
  (List.range 16).findSome? (fun m =>
    if !ogetB d Obj.profEnable m 0 then none
    else (installed d).find? (fun n => decide (ogetN d Obj.flowProfile n 0 = m) && keysAgree d m key (ogetN d Obj.flowKey n 0)))

/-- Octet i of some bytes. -/
def octet (b : Bytes) (i : Nat) : Nat := bitsAt b.val (8 * i) 8
/-- Some bytes with `n` octets from octet i on replaced. -/
def putOctets (b : Bytes) (i n v : Nat) : Bytes := { b with val := setF b.val ⟨8 * i, 8 * n⟩ v }
/-- A 16-bit number in network order at octet i. -/
def beAt (b : Bytes) (i : Nat) : Nat := octet b i * 256 + octet b (i + 1)
/-- The same written. -/
def putBe (b : Bytes) (i v : Nat) : Bytes := putOctets b i 2 (v / 256 % 256 + v % 256 * 256)

/-- Where a frame's IP header stands, by its tags. -/
def ipAt (tags : Nat) : Nat := 14 + 4 * tags

/-- The TTL or hop limit of an IP frame. -/
def ttlOf (f : Frame) : Nat := octet f.data (if getF f.key FlowKey.ipVersion = 4 then ipAt f.tags + 8 else ipAt f.tags + 7)

/-- A frame routed (R54): MAC addresses replaced, TTL decremented, the IPv4 header checksum corrected (RFC 1624). -/
def routed (f : Frame) (edit : Nat) : Bytes :=
  let b := putOctets (putOctets f.data 0 6 (bitsAt edit 0 48)) 6 6 (bitsAt edit 48 48)
  let ip := ipAt f.tags
  match getF f.key FlowKey.ipVersion with
  | 4 =>
    putBe (putOctets b (ip + 8) 1 (ttlOf f - 1)) (ip + 10) (checksumOf (65535 - beAt b (ip + 10) + 0xFEFF))
  | 6 => putOctets b (ip + 7) 1 (ttlOf f - 1)
  | _ => b

/-- A frame as an entry's Edit leaves it. An untagged frame has no VLAN ID to set. The VLAN ID of EditData is taken high octet
first, as in a tag (DESIGN CHOICE, log entry 78). -/
def edited (d : Dev) (n : Nat) (f : Frame) : Bytes :=
  let e := ogetN d Obj.editData n 0
  match ogetN d Obj.flowEdit n 0 with
  | 1 => if f.tags = 0 then f.data else putBe f.data 14 (beAt f.data 14 / 4096 * 4096 + beAt ⟨16, e⟩ 12 % 4096)
  | 2 => routed f e
  | _ => f.data

/-- The copy of a frame for capture (Table 11.5). -/
def captureCopy (d : Dev) (n p : Nat) (f : Frame) : Bytes :=
  let t := (ingressStamp d p f.octets).t
  let h := setF (setF (setF (setF 0 CaptureHdr.seconds (secondsOf t)) CaptureHdr.nanoseconds (nanosOf t)) CaptureHdr.fraction (t % 65536))
    CaptureHdr.generation (ingressStamp d p f.octets).gen
  let h := setF (setF (setF h CaptureHdr.frameLength f.octets) CaptureHdr.flowEntry n) CaptureHdr.ingressPort p
  catBytes (bytesOf 32 h) f.whole

/-- Whether entry n routes a frame whose TTL or hop limit has run out (R54). -/
def expires (d : Dev) (n : Nat) (f : Frame) : Bool :=
  decide (ogetN d Obj.flowAction n 0 = 1) && decide (ogetN d Obj.flowEdit n 0 = 2) && decide (getF f.key FlowKey.ipVersion ≠ 0)
    && decide (ttlOf f ≤ 1)

/-- A frame hits flow entry n (R54, R55). -/
def flowAct (d : Dev) (n p : Nat) (f : Frame) : Dev :=
  let d := bumpBy (bump d Obj.flowFrames n 0) Obj.flowOctets n 0 (f.octets : Nat)
  let d := if ogetB d Obj.flowCapture n 0 then
      let (d, ok) := offerCapture d (ogetN d Obj.captureStream n 0) (captureCopy d n p f)
      if ok then d else bump d Obj.captureGaps n 0
    else d
  if expires d n f then toControl d p f
  else
    match ogetN d Obj.flowAction n 0 with
    | 1 => toEgress d (ogetN d Obj.flowEgressPort n 0) (ogetN d Obj.flowEgressPriority n 0) p f.prio (edited d n f)
    | 2 => (pushFrame d (ogetN d Obj.targetQueue n 0) p f.prio f.data).1
    | _ => d

/-- What the MissAction of port p does with a frame (Table 3.6, step 8). What MissAction 2 forwards keeps its own priority (DESIGN
CHOICE, log entry 78). -/
def missAct (d : Dev) (p : Nat) (f : Frame) : Dev :=
  let d := bump d Obj.flowMissFrames 0 0
  match ogetN d Obj.missAction p 0 with
  | 1 => toControl d p f
  | 2 => toEgress d (ogetN d Obj.missPort p 0) f.prio p f.prio f.data
  | _ => d

/-! ### PRP (R56) -/

/-- The two ports of PRP pair i, LAN A and LAN B: none where no pair is set, or its ports do not both exist at one rate (R56). -/
def pairPorts (d : Dev) (i : Nat) : Option (Nat × Nat) :=
  let v := ogetN d Obj.prpPair 0 i
  let a := v % 256
  let b := v / 256
  if v = 0xFFFF ∨ a = b ∨ portExists d a = false ∨ portExists d b = false ∨ rateCode d a ≠ rateCode d b then none else some (a, b)

/-- The pair that port p belongs to, with its two ports: LAN A, LAN B. -/
def pairOf (d : Dev) (p : Nat) : Option (Nat × Nat × Nat) :=
  (List.range 16).findSome? (fun i => (pairPorts d i).bind (fun x => if x.1 = p ∨ x.2 = p then some (i, x) else none))

/-- Whether a frame with a trailer is a second copy; the node table takes note of it. A source beyond the table is not
deduplicated. -/
def prpSeen (d : Dev) (mac seq : Nat) : Dev × Bool :=
  let fresh := fun (t : Nat) => decide (now d < t + msec (ogetN d Obj.entryForgetTime 0 0))
  match d.fwd.nodes.find? (fun n => decide (n.mac = mac)) with
  | none =>
    if 4096 ≤ d.fwd.nodes.length then (bump d Obj.nodeTableFull 0 0, false)
    else ({ d with fwd := { d.fwd with nodes := d.fwd.nodes ++ [⟨mac, now d, [(seq, now d)]⟩] } }, false)
  | some n =>
    let dup := n.seqs.any (fun s => decide (s.1 = seq) && fresh s.2)
    let seqs := if dup then n.seqs else (seq, now d) :: n.seqs.filter (fun s => decide (s.1 ≠ seq))
    let upd := fun (x : PrpNode) => if x.mac = mac then { x with seen := now d, seqs := seqs } else x
    ({ d with fwd := { d.fwd with nodes := d.fwd.nodes.map upd } }, dup)

/-- Whether a frame is destined to the device's media addresses or control queues, and so deduplicated. -/
def toDevice (d : Dev) (p : Nat) (f : Frame) : Bool :=
  let dst := getF f.key FlowKey.dstAddress
  decide (getF f.key FlowKey.etherType = 0x0806) || (mediaIndex d dst).isSome
    || (match flowHit d f.key with
      | some n => expires d n f
      | none => decide (ogetN d Obj.missAction p 0 = 1))

/-- Duplicate removal before the first step of Table 3.6: the flag tells whether the frame is discarded. -/
def prpFilter (d : Dev) (p : Nat) (f : Frame) : Dev × Bool :=
  match f.prp, pairOf d p with
  | some seq, some _ =>
    if toDevice d p f then
      let (d, dup) := prpSeen d f.srcMac seq
      (bumpIf dup d Obj.duplicatesDiscarded 0 0, dup)
    else (d, false)
  | _, _ => (d, false)

/-- PRP_NODE_FORGET (R56): entries and nodes that have aged out are forgotten. -/
def prpNodeForget (d : Dev) : Dev :=
  let young := fun (t age : Nat) => decide (now d < t + msec age)
  let nodes := (d.fwd.nodes.filter (fun n => young n.seen (ogetN d Obj.nodeForgetTime 0 0))).map
    (fun n => { n with seqs := n.seqs.filter (fun s => young s.2 (ogetN d Obj.entryForgetTime 0 0)) })
  { d with fwd := { d.fwd with nodes := nodes } }

/-- The redundancy control trailer (R56): sequence number, LAN A or B with the size, and the PRP suffix (the layout is
that of IEC 62439-3). -/
def prpTrailer (seq lan size : Nat) : List Nat := netOctets 2 seq ++ netOctets 2 (lan * 4096 + size % 4096) ++ [0x88, 0xFB]

/-- The next sequence number of pair i toward a destination (R56). -/
def nextPrpSeq (d : Dev) (i mac : Nat) : Nat × Dev :=
  let key := i * 2 ^ 48 + mac
  let seq := sget d.fwd.prpSeq key 0
  (seq, { d with fwd := { d.fwd with prpSeq := sput d.fwd.prpSeq key ((seq + 1) % 65536) } })

/-- The multicast address of PRP supervision frames, first octet lowest. -/
def supervisionMac : Nat := 0x0001004E1501

/-- The supervision frame of port p with a sequence number (IEC 62439-3, clause 4.2.7.6): version 1, one PRP node entry, the end
entry, padding and the trailer. -/
def supervisionFrame (d : Dev) (p seq lan : Nat) : List Nat :=
  let mac := lowOctets 6 (ogetN d Obj.macAddress p 0)
  etherFrame (lowOctets 6 supervisionMac) mac none 0x88FB
    ([0, 1] ++ netOctets 2 seq ++ [20, 6] ++ mac ++ [0, 0] ++ List.replicate 26 0 ++ prpTrailer seq lan 46)

/-- LIFE_CHECK_TX (R56): the supervision frame of a pair on both of its ports. -/
def lifeCheckTx (i : Nat) (d : Dev) : Dev :=
  let due := sget d.fwd.lifeAt i 0 + msec (ogetN d Obj.lifeCheckInterval 0 0)
  match pairPorts d i with
  | none => d
  | some (a, b) =>
    if 16 ≤ i ∨ isReady d = false ∨ canReach d due = false then d
    else
      let d := passUntil d due
      let (seq, d) := nextPrpSeq d i supervisionMac
      let d := { d with fwd := { d.fwd with lifeAt := sput d.fwd.lifeAt i (now d) } }
      let send := fun (d : Dev) (p lan : Nat) =>
        if (portOf d p).linkUp then sendDirect d p 0x88FB (supervisionFrame d p seq lan) else d
      send (send d a 10) b 11

/-! ### Classification (Table 3.6) -/

/-- Steps 4 to 8 for a good frame on port p. -/
def classify (d : Dev) (p : Nat) (f : Frame) : Dev :=
  let proto := getF f.key FlowKey.protocol
  let media := mediaIndex d (getF f.key FlowKey.dstAddress)
  if getF f.key FlowKey.etherType = 0x0806 ∨ (media.isSome ∧ (proto = 1 ∨ proto = 58)) then toControl d p f
  else
    match media, f.kind with
    | some _, .udp m =>
      match lookup d f.key m with
      | none => toControl (bump d Obj.mediaMiss 0 0) p f
      | some (k, v) =>
        if sourceAgrees v f.key m then
          ledgerNote d (mediaPacket d p k f m) p (getF v Ep.boundChannel) f m
        else bumpEp d k Ep.sourceMismatch 1
    | _, _ =>
      match flowHit d f.key with
      | some n => flowAct d n p f
      | none => missAct d p f

/-- Whether port p is a twin-link port. -/
def isTwinPort (d : Dev) (p : Nat) : Bool :=
  twinned d && (decide (ogetN d Obj.twinLinkPort0 0 0 = p) || decide (ogetN d Obj.twinLinkPort1 0 0 = p))

/-- A good frame on port p (R50); from step 9 of a start until Ready only control and PTP frames pass (R317). PTP frames are not
deduplicated (R56). -/
def goodFrame (d : Dev) (p : Nat) (f : Frame) : Dev :=
  let rest := fun (d : Dev) =>
    if !isReady d then bump d Obj.flowMissFrames 0 0
    else
      let (d, dup) := prpFilter d p f
      if dup then d else classify d p f
  let unfiltered := fun (d : Dev) => if !isReady d then bump d Obj.flowMissFrames 0 0 else classify d p f
  match f.kind with
  | .pause _ _ => receiveControl d p f.kind
  | .pfc _ _ _ => receiveControl d p f.kind
  | .control _ => receiveControl d p f.kind
  | .ptp m =>
    let (d, taken) := ptpReceive d p (ingressStamp d p f.octets) m
    if taken then d else unfiltered d
  | .twin => if isTwinPort d p then d else rest d
  | _ => rest d

/-! ### Sizes and defects (Table 3.3) -/

/-- The longest normal frame on port p. -/
def sizeLimit (d : Dev) (p tags : Nat) : Nat := ogetN d Obj.maxFrameSize p 0 + 4 * min 2 tags

/-- The defect of a frame: its counter, and how much of it is delivered under DELIVER_BAD (none: dropped always). -/
def defectOf (d : Dev) (p : Nat) (f : Frame) : Option (Nat × Option Nat) :=
  let lim := sizeLimit d p f.tags
  match f.code, f.align with
  | some n, _ => some (8, some n)
  | none, some n => some (7, some n)
  | none, none =>
    if f.octets < 14 then some (3, none)
    else if f.octets < 64 then some (4, some f.octets)
    else if lim < f.octets then some (5, some lim)
    else if f.fcsBad then some (6, some f.octets)
    else none

/-- The flags of a delivered bad frame: 1 RUNT, 2 FCS_BAD, 4 OVERSIZE, 8 ALIGN, 16 CODE (the places are the model's). -/
def badFlags (d : Dev) (p : Nat) (f : Frame) : Nat :=
  let big := decide (sizeLimit d p f.tags < f.octets)
  b2n (decide (14 ≤ f.octets) && decide (f.octets < 64)) + 2 * b2n (f.fcsBad && !big) + 4 * b2n big
    + 8 * b2n f.align.isSome + 16 * b2n f.code.isSome

/-- A bad frame under DELIVER_BAD goes to DiagnosticQueue with its ingress timestamp and flags (R45). -/
def deliverBad (d : Dev) (p keep : Nat) (f : Frame) : Dev :=
  let q := ogetN d Obj.diagnosticQueue p 0
  let n := min keep f.octets
  let head := bytesOf 16 ((ingressStamp d p f.octets).t % 2 ^ 96 + badFlags d p f * 2 ^ 96)
  let (d, ok) := pushFrame d q p f.prio (catBytes head ⟨n, f.whole.val % 2 ^ (8 * n)⟩)
  rxCount d p (if ok then 10 else 11)

/-- FRAME_RECEIVED: a frame whose last octet comes to port p a time `dt` from now (R44, Table 3.3). -/
def frameReceived (p dt : Nat) (f : Frame) (d : Dev) : Dev :=
  let d := passTime d dt
  if !portExists d p || !(portOf d p).linkUp || d.start.resetLow || quenched d then d
  else
    let d := bumpBy (bumpBy (rxCount d p 0) Obj.fecCorrected p 0 f.fixed) Obj.fecUncorrected p 0 f.lost
    if f.full then report (rxCount d p 9) 0 0x0102 p 0
    else
      match defectOf d p f with
      | some (j, keep) =>
        let d := rxCount d p j
        match keep with
        | some n => if ogetB d Obj.deliverBad p 0 then deliverBad d p n f else d
        | none => d
      | none =>
        let d := bumpBy (rxCount d p 1) Obj.rxCounters p 2 (f.octets : Nat)
        ingressPause (goodFrame d p f) p f.prio

/-! ### Flow entries (R53) -/

/-- The value staged for an object, where one is: last of the open set, then of the pending commit. -/
def stagedValue (d : Dev) (r : Row) (i j : Nat) : Option Int :=
  match sfind d.dict.staged (r.key i j) with
  | some v => some v
  | none => d.dict.commit.bind (fun c => sfind c.values (r.key i j))

/-- What flow entry n will hold in an object once its staged values apply. -/
def comingN (d : Dev) (r : Row) (n : Nat) : Nat := ((stagedValue d r n 0).getD (oget d r n 0)).toNat

/-- Whether another placed entry has a key in a profile, installed or staged. -/
def keyTaken (d : Dev) (n profile key : Nat) : Bool :=
  d.fwd.placed.any (fun p => decide (p.1 ≠ n) &&
    ((decide (p.2 = 2) && decide (ogetN d Obj.flowProfile p.1 0 = profile) && decide (ogetN d Obj.flowKey p.1 0 = key))
      || (decide (comingN d Obj.flowProfile p.1 = profile) && decide (comingN d Obj.flowKey p.1 = key))))

/-- Whether a place is found for entry n: always below 245,760 placed entries, never beyond 262,144, and between by a
free value. -/
def placeFound (d : Dev) (n : Nat) : Bool :=
  let k := (d.fwd.placed.filter (fun p => decide (p.1 ≠ n))).length
  decide (k < 245760) || (decide (k < 262144) && Config.flowPlace k n)

/-- A staging write of FlowKey: the place is decided at the write. -/
def stageKey (d : Dev) (n key : Nat) : Dev × Bool :=
  if keyTaken d n (comingN d Obj.flowProfile n) key || !placeFound d n then (d, false)
  else
    let placed := if shas d.fwd.placed n then d.fwd.placed else sput d.fwd.placed n 1
    ({ d with fwd := { d.fwd with placed := placed } }, true)

/-- Flow entries after values have applied: those valid are installed, and those removed free their place. An entry whose key
has been written and that was not valid yet keeps the place that the write found. -/
def settleFlows (d : Dev) : Dev :=
  let next := d.fwd.placed.filterMap (fun p =>
    if ogetB d Obj.flowValid p.1 0 then some (p.1, 2)
    else if (stagedValue d Obj.flowKey p.1 0).isSome || (decide (p.2 = 1) && (ofind d Obj.flowKey p.1 0).isSome) then some (p.1, 1)
    else none)
  { d with fwd := { d.fwd with placed := next } }

/-! ### Egress (R46, R60) -/

/-- Tags of a frame's octets. -/
def tagsOf (b : Bytes) : Nat :=
  let tag := fun (i : Nat) => decide (beAt b i = 0x8100) || decide (beAt b i = 0x88A8)
  if tag 12 then (if tag 16 then 2 else 1) else 0

/-- The length on the wire of a frame, FCS included: padded to 64 (R46). -/
def wireOctets (b : Bytes) : Nat := max 64 (b.len + 4)

/-- The frame at the head of egress queue q of port p; an isolated queue has none (R198). -/
def headFrame (d : Dev) (p q : Nat) : Option Bytes :=
  let x := queueOf d (196608 + 8 * p + q)
  if x.isolated then none else (x.items.head?).map QItem.data

/-- The scheduler reads the cells of the frames at the heads of port p's queues: one whose cells cannot be followed isolates its queue
(R198). -/
def readHeads (d : Dev) (p : Nat) : Dev :=
  (List.range 8).foldl (fun d q =>
    let n := 196608 + 8 * p + q
    match (queueOf d n).items.head? with
    | some i => if i.badHeads ≠ 0 && !(queueOf d n).isolated then isolateQueue d n else d
    | none => d) d

/-- Priorities of port p that may send: a frame waits and no pause stands. -/
def sendable (d : Dev) (p : Nat) : List Nat := (List.range 8).filter (fun q => (headFrame d p q).isSome && !pausedNow d p q)

/-- The deficit round robin (R60): the priority whose turn it is sends while its deficit covers its frame; else the turn
passes to the next that may send, and its quantum, which covers the longest frame, is added. -/
def drrPick (d : Dev) (p : Nat) (able : List Nat) : Option (Nat × List Nat) :=
  let o := portOf d p
  let len := fun (q : Nat) => ((headFrame d p q).map wireOctets).getD 0
  let deficit := o.deficit.mapIdx (fun q x => if (headFrame d p q).isNone then 0 else x)
  if able.contains o.drrAt && decide (len o.drrAt ≤ deficit.getD o.drrAt 0) then
    some (o.drrAt, deficit.set o.drrAt (deficit.getD o.drrAt 0 - len o.drrAt))
  else
    match ((List.range 8).map (fun i => (o.drrAt + 1 + i) % 8)).find? able.contains with
    | none => none
    | some q =>
      let more := deficit.getD q 0 + ogetN d Obj.drrWeight p q * (9228 + Config.drrExtra)
      some (q, deficit.set q (more - len q))

/-- The priority that port p serves next (R60): strict ones first, highest first, then the round robin. -/
def nextPriority (d : Dev) (p : Nat) : Option (Nat × List Nat) :=
  let able := sendable d p
  let o := portOf d p
  let strict := ogetN d Obj.strictMask p 0
  match (able.filter (fun q => strict.testBit q)).reverse.head? with
  | some q => some (q, o.deficit)
  | none => drrPick d p able

/-- The head frame of egress queue q of port p leaves the queue. -/
def popEgress (d : Dev) (p q : Nat) : Dev :=
  let (i, d) := takeItem d (196608 + 8 * p + q)
  settlePause d i.toList

/-- Frames too long for port p at the heads of its queues are not sent (R46). -/
def dropOversize (d : Dev) (p : Nat) : Nat → Dev
  | 0 => d
  | n + 1 =>
    match (sendable d p).find? (fun q => (headFrame d p q).any (fun b => decide (sizeLimit d p (tagsOf b) < b.len + 4))) with
    | some q => dropOversize (readHeads (txCount (popEgress d p q) p 3 1) p) p n
    | none => d

/-- EGRESS_FRAME_TX: once port p's wire is free, the scheduler starts the next complete frame (R60). -/
def egressFrameTx (p : Nat) (d : Dev) : Dev :=
  let o := portOf d p
  let due := match o.txPrio with
    | some _ => o.txEnd + bitTimes d p 96
    | none => now d
  if !o.linkUp || !canReach d due then d
  else
    let d := passUntil d due
    let d := setPort d p { portOf d p with txPrio := none }
    let waiting := sumNat ((List.range 8).map (fun q => (queueOf d (196608 + 8 * p + q)).items.length))
    let d := dropOversize (readHeads d p) p waiting
    match nextPriority d p with
    | none => d
    | some (q, deficit) =>
      match headFrame d p q with
      | none => d
      | some b =>
        let len := wireOctets b
        let o := portOf d p
        let turn := if bitSet (ogetN d Obj.strictMask p 0) q then o.drrAt else q
        let d := setPort d p { o with txPrio := some q, txEnd := now d + bitTimes d p (8 * (8 + len)), deficit := deficit, drrAt := turn }
        let d := txCount (txCount (emit d (.frame p q { b with len := max 60 b.len })) p 0 1) p 1 len
        popEgress d p q

end Sys2Proof.Machine
end

