-- ==== Sys2Proof/Machine/Seal.lean ====
section
/-! DEFINITION. The seal of speech bank slots and their hand-over to evidence (R203 to R206). -/
namespace Sys2Proof.Machine

/-- The first frame tick of a channel, at or after its open tick (R17). -/
def firstFrameTick (c : Channel) : Nat := c.openTick + (c.phase % c.frameTicks + c.frameTicks - c.openTick % c.frameTicks) % c.frameTicks

/-- Sample x of the last slot sealed DECODED in the k-th concealed slot: divided by 2^k and truncated toward zero. -/
def fadeSample (k : Nat) (x : Int) : Int := if 16 ≤ k then 0 else x.tdiv ((2 ^ k : Nat) : Int)

/-- The tag that the channel's hearth unit held at the start of tick t (R204). -/
def slotTag (d : Dev) (c : Channel) (t : Nat) : Nat :=
  match c.banks.tags.find? (fun p => decide (p.1 = t)) with
  | some p => p.2
  | none => unitTag d (48 + c.engine / 16)

/-- What slot t of a channel is sealed as (R203, R204). -/
def sealedSlot (d : Dev) (c : Channel) (t : Nat) : BankSlot :=
  match sfind c.banks.slots t with
  | some s => s
  | none =>
    let n := slotSamplesAt c t
    if t < firstFrameTick c then ⟨3, slotTag d c t, false, List.replicate n 0⟩
    else
      let k := c.banks.run + 1
      match c.banks.lastDecoded with
      | some x => ⟨2, slotTag d c t, x.poison && decide (k < 16), (List.range n).map (fun i => fadeSample k (x.samples.getD i 0))⟩
      | none => ⟨2, slotTag d c t, false, List.replicate n 0⟩

/-- The samples of a sealed slot at the rate that the channel's evidence stream opened with (R225). -/
def streamSamples (d : Dev) (s : Nat) (l : List Int) : List Int :=
  let n := ((streamOf d s).map Stream.slotSamples).getD l.length
  if l.length = n then l else satSamples n (Config.resample (decide (n = 40)) [] l)

/-- Slot t of channel c is sealed, counted and, where the channel is recorded, handed to evidence. -/
def sealSlot (d : Dev) (c t : Nat) : Dev :=
  match chanOf d c with
  | none => d
  | some x =>
    let written := shas x.banks.slots t
    let s := sealedSlot d x t
    let run := if !written && decide (s.src = 2) then x.banks.run + 1 else 0
    let last := if s.src = 1 then some s else x.banks.lastDecoded
    let d := setChan d c { x with banks := { x.banks with run := run, lastDecoded := last, nextSeal := t + 1 } }
    let d := bump (bump d Obj.bankSlotCounters c 0) Obj.bankSlotCounters c s.src
    if !x.recorded then d
    else
      let e := getF x.body ChBody.evidenceStream
      let (d, ok) := offerSlot d e t s.src s.poison s.tag (streamSamples d e s.samples)
      if ok then bump d Obj.evidenceSlotsPushed c 0 else bump d Obj.evidenceSlotsRefused c 0

/-- The banks of channel c swap at tick t when it has the channel's phase (R203). -/
def swapBanks (d : Dev) (c t : Nat) : Dev :=
  match chanOf d c with
  | none => d
  | some x =>
    if t % 8 ≠ x.phase % 8 then d
    else
      let b := x.banks
      let slots := b.slots.filter (fun p => decide (b.filling ≤ p.1))
      bump (setChan d c { x with banks := { b with draining := b.filling, filling := t, slots := slots } }) Obj.speechBankSwaps c 0

/-- The queue manager's work for channel c at the start of tick t (R203). -/
def bankTick (d : Dev) (c t : Nat) : Dev :=
  match chanOf d c with
  | none => d
  | some x =>
    let d := swapBanks d c t
    let d := if x.openTick + 8 ≤ t then sealSlot d c (t - 8) else d
    onChan d c (fun x => { x with banks := { x.banks with doneTick := t } })

/-- Every tick from the last one done up to tick t. -/
def bankCatchUp (d : Dev) (c t : Nat) : Dev :=
  match chanOf d c with
  | none => d
  | some x => (List.range (t - x.banks.doneTick)).foldl (fun d i => bankTick d c (x.banks.doneTick + 1 + i)) d

/-- The work of the queue manager for every channel at the start of tick t (R203). -/
def bankTicks (t : Nat) (d : Dev) : Dev := (skeys d.chans).foldl (fun d c => bankCatchUp d c t) d

/-- BANK_SEAL: for every channel the work of every tick that has started (R203). -/
def bankSeal (d : Dev) : Dev :=
  if d.time.ticking then bankTicks (curTick d) d else d

/-- The final seal at close tick n: every slot from n − 8 to n − 1 not yet sealed (R205). -/
def finalSeal (d : Dev) (c n : Nat) : Dev :=
  let d := bankCatchUp d c (n - 1)
  match chanOf d c with
  | none => d
  | some x => (List.range (n - x.banks.nextSeal)).foldl (fun d i => sealSlot d c (x.banks.nextSeal + i)) d

end Sys2Proof.Machine
end

