-- ==== Sys2Proof/Machine/FrameWork.lean ====
section
/-! DEFINITION. The frame work of a channel (R17, R90): the frame decoded and treated, and what it writes to the speech banks (R202),
to its group's queue (R107), to egress (R110, R210) and, on a twin, to its digests (R216). -/
namespace Sys2Proof.Machine

/-- What befalls the data of a frame on the way: the 64-bit words of the bank item that carry POISON, and whether the packet is built
from poisoned data (R132). -/
structure Work where
  poison : Nat
  bad    : Bool
  deriving DecidableEq, Repr

/-! ### The decoded frame -/

/-- The source code of every slot of a frame (Table 9.5). -/
def SlotKind.source : SlotKind → Nat
  | .fill => 3
  | .played _ => 1
  | .dtx => 1
  | .missing => 2
  | .inserted => 2

/-- Samples of a tick at a treatment rate. -/
def tickSamples (wide : Bool) : Nat := if wide then 40 else 20

/-- The samples of a frame: a line port's as they were taken (R266), else what the decoder gives (R84). -/
def frameSamples (d : Dev) (x : Channel) (s : Slot) : List Int :=
  if isLine d x && s.kind.isPlayed then lineFrameSamples d x s.tick
  else decodedFrame x.treat s (x.frameTicks * tickSamples s.wide)

/-- The bank push of a frame (R202, Table 9.5). -/
def bankItem (x : Channel) (s : Slot) (l : List Int) : Bytes :=
  let n := x.frameTicks
  let src := (List.range n).foldl (fun v i => v + s.kind.source * 4 ^ i) 0
  let h := setF (setF (setF (setF 0 BankHdr.firstSlot s.tick) BankHdr.epochTag s.tag) BankHdr.sources src) BankHdr.slots n
  catBytes (bytesOf 16 h) (pcmBytes l)

/-- The treatment of a frame of channel x (R90). -/
def treatFrame (d : Dev) (x : Channel) (s : Slot) (l : List Int) : Chain :=
  treat { wide := s.wide, par := s.params, tick := s.tick, conceal := s.kind.isConcealed, fill := s.kind.isFill, samples := l,
          send := sfind d.sends x.endpoint } x.canceller (x.treat.decoded s l)

/-! ### The group's queue (R107) -/

/-- The group and member index that channel x has at tick t, where it is a member. -/
def memberAt (x : Channel) (t : Nat) : Option (Nat × Nat) :=
  if x.group ≠ 0xFFFF ∧ x.joinTick ≤ t then some (x.group, x.member)
  else (x.left.find? (fun m => decide (m.join ≤ t) && decide (t < m.leave))).map (fun m => (m.group, m.member))

/-- Whether a pending record takes channel c out of its group at tick t or before. -/
def leavesBy (d : Dev) (c t : Nat) : Bool :=
  d.setup.pending.any (fun r => decide (r.subject = c) && (decide (r.kind = 4) || decide (r.kind = 7)) && decide (r.tick ≤ t))

/-- Whether a hop that overlaps tick i of a frame was speech: hops last 2 ms and ticks 2.5 ms. -/
def tickSpoke (spoke : List Bool) (i : Nat) : Bool :=
  (List.range spoke.length).any (fun h => decide (4 * h < 5 * (i + 1)) && decide (5 * i < 4 * (h + 1)) && spoke.getD h false)

/-- The samples of tick i of a treated frame. -/
def tickOf (wide : Bool) (l : List Int) (i : Nat) : List Int := (l.drop (i * tickSamples wide)).take (tickSamples wide)

/-- Samples at one treatment rate brought to another; `before` are those that came before them. -/
def atRate (from_ to_ : Bool) (before l : List Int) : List Int := if from_ = to_ then l else Config.resample to_ before l

/-- The entry of a member for tick t (Table 5.7): 40 samples at 16 kHz and their level. -/
def mixEntryOf (g m t : Nat) (kind : SlotKind) (spoke : Bool) (level : Nat) (samples : List Int) : Nat :=
  let v := (List.range 40).foldl (fun v i => v + toUnsigned 16 (samples.getD i 0) * 2 ^ (16 * i)) 0
  let h := setF (setF (setF (setF 0 MixEntry.samples v) MixEntry.tick t) MixEntry.group g) MixEntry.memberIndex m
  let h := setF (setF h MixEntry.level level) MixEntry.concealed (b2n kind.isConcealed)
  setF h MixEntry.active (b2n (spoke && !kind.isFill))

/-- A level in 0.5 dB below 0 dBm0, as an entry holds it. -/
def entryLevel (level : Int) : Nat := min 255 (-level / 500).toNat

/-- The contribution of tick i of a treated frame; the second value gathers LocalCause bits (Table 10.7). -/
def pushTick (d : Dev) (c : Nat) (x : Channel) (s : Slot) (a : Chain) (i : Nat) : Dev × Nat :=
  let t := s.tick + i
  match memberAt x t with
  | none => (d, 0)
  | some (g, m) =>
    if leavesBy d c t then (d, 0)
    else
      let l := tickOf s.wide a.out i
      let before := if i = 0 then x.treat.last else tickOf s.wide a.out (i - 1)
      let late := oaClosed d g t
      let v := mixEntryOf g m t s.kind (tickSpoke a.spoke i) (entryLevel (Config.levelOf l)) (satSamples 40 (atRate s.wide true before l))
      let (d, r) := oaPush d g 96 v false
      (d, (if late then 16 else 0) + (if r = 2 then 8 else 0))

/-- The contributions of a frame. -/
def pushMix (d : Dev) (c : Nat) (x : Channel) (s : Slot) (a : Chain) : Dev × Nat :=
  (List.range x.frameTicks).foldl (fun (acc : Dev × Nat) i =>
    let (d', r) := pushTick acc.1 c x s a i
    (d', Nat.lor acc.2 r)) (d, 0)

/-! ### What is sent -/

/-- The join tick of channel x's membership at the frame tick of a slot. -/
def joinOf (x : Channel) (s : Slot) : Nat :=
  if x.group = s.group ∧ x.joinTick ≤ s.tick then x.joinTick
  else ((x.left.find? (fun m => decide (m.group = s.group) && decide (m.join ≤ s.tick) && decide (s.tick < m.leave))).map Left.join).getD x.joinTick

/-- The mix of the ticks that a member's frame sends (R110), with what was saturated in it; none where the channel was no member at the
frame tick. -/
def frameMix (d : Dev) (x : Channel) (s : Slot) : List (Nat × List Int) × Nat :=
  if s.group = 0xFFFF then ([], 0)
  else
    let l := (List.range x.frameTicks).map (fun i =>
      let t := s.tick + 1 + i - 8 - x.frameTicks
      (t, if s.tick + 1 + i < 8 + x.frameTicks ∨ t < joinOf x s then (List.replicate 40 0, 0) else mixTick d s.group s.member t))
    (l.map (fun p => (p.1, p.2.1)), sumNat (l.map (fun p => p.2.2)))

/-- The slots that a frame sends, with their samples: in a group the mix, at 16 kHz, else the treated frame. -/
def sentSlots (x : Channel) (s : Slot) (a : Chain) (mix : List (Nat × List Int)) : List (Nat × List Int) :=
  if s.group = 0xFFFF then (List.range x.frameTicks).map (fun i => (s.tick + i, tickOf s.wide a.out i)) else mix

/-- The treatment rate of what a frame sends. -/
def sentWide (s : Slot) : Bool := decide (s.group ≠ 0xFFFF) || s.wide

/-- The slots join the send stream of endpoint e, which keeps the last 256 ticks (R93). -/
def noteSend (d : Dev) (e : Nat) (slots : List (Nat × List Int)) : Dev :=
  let old := (sget d.sends e ⟨[]⟩).slots
  let new := slots.foldl (fun m p => sput m p.1 p.2) old
  let top := slots.foldl (fun m p => max m p.1) 0
  { d with sends := sput d.sends e ⟨new.filter (fun p => decide (top < p.1 + 256))⟩ }

/-- The samples of slot t of endpoint e's send stream. -/
def sendBefore (d : Dev) (e t : Nat) : List Int := sget (sget d.sends e ⟨[]⟩).slots t []

/-- The RTP header of the next packet sent to endpoint e. -/
def rtpHeader (d : Dev) (e : Nat) (marker : Bool) : List Nat :=
  [128, b2n marker * 128 + epF d e Ep.txPayloadType % 128] ++ netOctets 2 (epF d e Ep.txSequence)
    ++ netOctets 4 (epF d e Ep.txTimestamp) ++ netOctets 4 (epF d e Ep.txSsrc)

/-- What follows the RTP header (R57, RFC 3711, RFC 7714): the encrypted payload, MKI and tag; under GCM the tag comes first. -/
def protected_ (d : Dev) (e : Nat) (marker : Bool) (payload : Bytes) : List Nat :=
  let suite := epF d e Ep.srtpSuite
  let n := payload.len
  let index := epF d e Ep.txRoc * 65536 + epF d e Ep.txSequence
  let v := Config.protect suite (epF d e Ep.txKeyBlock) index (octets (rtpHeader d e marker)).val (payloadOf payload)
  let out := lowOctets (n + tagOctets suite) v
  let mki := netOctets (epF d e Ep.mkiLength) (epF d e Ep.mki)
  if 4 ≤ suite then out ++ mki else out.take n ++ mki ++ out.drop n

/-- The packet of a frame from the IP header on (R210). -/
def ipPacket (d : Dev) (e : Nat) (marker : Bool) (payload : Bytes) : List Nat :=
  let six := decide (epF d e Ep.kind = 1)
  let src := lowOctets 16 (ogetN d Obj.mediaAddress 0 (epF d e Ep.mediaAddressIndex))
  let dst := lowOctets 16 (epF d e Ep.remoteAddress)
  let (src, dst) := if six then (src, dst) else (src.drop 12, dst.drop 12)
  udpPacket six src dst (epF d e Ep.localPort) (epF d e Ep.remotePort) (rtpHeader d e marker ++ protected_ d e marker payload)

/-- The frame of that packet on port p, without its FCS. -/
def mediaFrame (d : Dev) (e p : Nat) (marker : Bool) (payload : Bytes) : List Nat :=
  let vlan := epF d e Ep.vlan
  etherFrame (lowOctets 6 (epF d e Ep.nextHopMac)) (lowOctets 6 (ogetN d Obj.macAddress p 0))
    (if vlan = 0 then none else some (epF d e Ep.egressPriority % 8 * 8192 + vlan % 4096))
    (if epF d e Ep.kind = 1 then 0x86DD else 0x0800) (ipPacket d e marker payload)

/-- A frame of the device's own goes to the egress queue of port p with a priority. -/
def sendOwn (d : Dev) (p prio : Nat) (data : Bytes) : Dev × Bool :=
  let i := QItem.of data (.frame { inPort := none, inPrio := prio, stamp := now d, order := d.fwd.order })
  let (d, ok) := qPush d (196608 + 8 * p + prio) false i
  if ok then ({ d with fwd := { d.fwd with order := d.fwd.order + 1 } }, true) else (txCount d p 4 1, false)

/-- A frame to endpoint e leaves on its port, or on both ports of its PRP pair with a trailer each (R56). -/
def sendMedia (d : Dev) (e : Nat) (marker : Bool) (payload : Bytes) : Dev × Bool :=
  let p := epF d e Ep.egressPort
  let prio := epF d e Ep.egressPriority % 8
  match if bitSet (epF d e Ep.flags) 2 then pairOf d p else none with
  | none => sendOwn d p prio (octets (mediaFrame d e p marker payload))
  | some (i, a, b) =>
    let (seq, d) := nextPrpSeq d i (epF d e Ep.nextHopMac)
    let size := (ipPacket d e marker payload).length + 6
    let (d, x) := sendOwn d a prio (octets (mediaFrame d e a marker payload ++ prpTrailer seq 10 size))
    let (d, y) := sendOwn d b prio (octets (mediaFrame d e b marker payload ++ prpTrailer seq 11 size))
    (d, x || y)

/-- Whether the device sends what channel c produces: not where the twin suppresses it, not while WITHDRAWN, and while
JOINING only for channels already joined (Table 10.1, R217). -/
def mayEmit (d : Dev) (c : Nat) : Bool :=
  !d.twin.suppress.contains c && decide (d.twin.state ≠ 5)
    && (decide (d.twin.state ≠ 2) || (d.twin.joined.contains c && !shas d.twin.awaiting c))

/-- RTP clock units that a frame of `ft` ticks sent under a codec takes. -/
def sentClock (codec ft : Nat) : Nat := rtpClock codec * (ft * 5 / 2) / 1000

/-- What the encoder makes of a frame's samples toward endpoint e: the payload, or none where nothing is sent under DTX (R76). -/
def encodeFrame (d : Dev) (e enc ft : Nat) (l : List Int) : Option Bytes :=
  let codec := epF d e Ep.txCodec
  let mode := epF d e Ep.codecMode
  let opts := epF d e Ep.codecOptions
  let kind := if bitSet opts 1 then Config.encodeKind codec enc l else 0
  let len := if kind = 1 then Config.sidOctets codec else sentPayload codec mode opts ft
  if 2 ≤ kind then none else some (bytesOf len (Config.encode codec mode opts enc l % 256 ^ len))

/-- A packet from poisoned data is refused at the egress queue: counted for the channel's engine, and PREFUSED set for its thread
(R58, Table 6.7). -/
def refusePoisoned (d : Dev) (x : Channel) : Dev :=
  onThreadCtx (bumpBy d Obj.poisonRefusals x.engine 0 (2 ^ 32)) x.thread (fun c => c.stick St.prefused true)

/-- The frame of channel c is sent to endpoint e. The second value gathers LocalCause bits. What TxOctets counts of a
packet is a free value. -/
def sendFrame (d : Dev) (c : Nat) (x : Channel) (e : Nat) (payload : Option Bytes) (bad : Bool) : Dev × Nat :=
  let step := sentClock (epF d e Ep.txCodec) x.frameTicks
  let next := fun (d : Dev) => setEpF d e Ep.txTimestamp (epF d e Ep.txTimestamp + step)
  match payload with
  | none => (next d, 0)
  | some b =>
    if bad then (next (refusePoisoned d x), 4)
    else
      let (d, ok) := if mayEmit d c then sendMedia d e x.treat.sentSilent b else (bumpBy d Obj.twinCounters 0 18 1, false)
      let seq := epF d e Ep.txSequence
      let d := setEpF (next d) e Ep.txSequence (seq + 1)
      let d := if seq = 65535 then bumpEp d e Ep.txRoc 1 else d
      if ok then
        let (v, d) := freshNat (noteCipher d (frameOctets d e b.len))
        (bumpEp (bumpEp d e Ep.txPackets 1) e Ep.txOctets (v % (frameOctets d e b.len + 1)), 0)
      else (d, 0)

/-- The send slots of a frame go to line port p (R265). -/
def sendLine (d : Dev) (p : Nat) (slots : List (Nat × List Int)) : Dev :=
  let x := lineOf d p
  setLine d p { x with sent := x.sent ++ slots }

/-- The send slots of a frame toward a line port, at the port's rate. -/
def lineSlots (d : Dev) (e : Nat) (s : Slot) (p : Nat) (slots : List (Nat × List Int)) : List (Nat × List Int) :=
  let n := lineSamples d p
  slots.mapIdx (fun i k =>
    let before := if i = 0 then sendBefore d e (k.1 - 1) else (slots.getD (i - 1) (0, [])).2
    (k.1, satSamples n (atRate (sentWide s) (decide (n = 40)) before k.2)))

/-- A frame is sent to its destination: to a line port's transmit chain, or encoded and to egress. The send stream of the destination
takes what was sent (R93). Answers the payload and LocalCause bits too. -/
def sendOut (d : Dev) (c : Nat) (x : Channel) (s : Slot) (e : Nat) (slots : List (Nat × List Int)) (bad : Bool) : Dev × Bytes × Nat :=
  if epF d e Ep.kind = 2 then
    let p := epF d e Ep.linePort
    (noteSend (sendLine d p (lineSlots d e s p slots)) e slots, noBytes, 0)
  else
    let first := (slots.headD (0, [])).1
    let wide := wideCodec d e (epF d e Ep.txCodec)
    let l := atRate (sentWide s) wide (sendBefore d e (first - 1)) (slots.flatMap Prod.snd)
    let payload := encodeFrame d e x.treat.encoder x.frameTicks l
    let (d, bits) := sendFrame d c x e payload bad
    let d := onChan d c (fun k => { k with treat := { k.treat with encoder := Config.encoderNext (epF d e Ep.txCodec) x.treat.encoder l,
                                                                   sentSilent := payload.isNone } })
    (if payload.isSome then noteSend d e slots else d, payload.getD noBytes, bits)

/-! ### The peer's bypass (R103) -/

/-- The peer of channel x in a point-to-point call: the channel whose endpoint x sends to. -/
def peerOf (d : Dev) (x : Channel) : Option Nat :=
  if x.group ≠ 0xFFFF ∨ x.output = 0xFFFFFFFF then none
  else (d.chans.find? (fun c => decide (c.2.endpoint = x.output))).map Prod.fst

/-- A bypass that was asked of channel c as a peer takes effect at its frame of tick f. -/
def peerBypass (d : Dev) (c : Nat) (x : Channel) (f : Nat) : Dev :=
  match x.canceller.bypassAt with
  | some (t, from_) =>
    if f < t then d
    else
      let d := bypassCanceller (onCanc d c (fun k => { k with bypassAt := none })) c
      if x.recorded then
        offerEvent d (getF x.body ChBody.evidenceStream) f 7 0 0 (bytesOf 16 (from_ + (t - 8) * 2 ^ 64))
      else d
  | none => d

/-- Channel c has found an answer tone with a reversal in its frame of tick f: its peer is bypassed 8 ticks later. -/
def askPeer (d : Dev) (c : Nat) (x : Channel) (f : Nat) : Dev :=
  match peerOf d x with
  | some p => onCanc d p (fun k => if k.bypassed then k else { k with bypassAt := some (f + 8, c) })
  | none => d

/-! ### Digests (R216) -/

/-- The digest of a frame's union decision: a CRC-32C over a record of it whose layout the spec does not give. -/
def ledgerDigest (x : Channel) (s : Slot) : Nat :=
  let what := match s.kind with
    | .played p => p.ts + p.seq * 2 ^ 32
    | .fill => 0
    | .dtx => 1
    | .missing => 2
    | .inserted => 3
  Config.digest s.kind.source x.depth what

/-- Whether the guard point ahead of tick f + 8 has passed (R17). -/
def pastGuard (d : Dev) (f : Nat) : Bool :=
  decide (f + 8 ≤ curTick d) || (decide (f + 7 = curTick d) && decide (guardAt d (f + 7) ≤ tickOff d))

/-- The frame's digests join those to be sent to a partner (R216). -/
def noteDigest (d : Dev) (c : Nat) (x : Channel) (s : Slot) (output cause : Nat) : Dev :=
  if d.start.straps.twin % 4 = 0 then d
  else
    let g : Digest := { tick := s.tick, channel := c, ledger := ledgerDigest x s, output := output, cause := cause }
    let d := oset (oset d Obj.twinLocalCause c 0 cause) Obj.lastFrameTick c 0 s.tick
    let d := oset (oset d Obj.lastLedgerDigest c 0 g.ledger) Obj.lastOutputDigest c 0 output
    if !unionOn d then d
    else { d with twin := { d.twin with digests := d.twin.digests ++ [g], sentDigests := (g :: d.twin.sentDigests).take 65536 } }

/-! ### The frame work -/

/-- Causes of a channel's frame that lie on this device (Table 10.7): a deadline missed, a block reset or an epoch missed,
a fetch failed. -/
def localCauses (d : Dev) (c : Nat) (x : Channel) (s : Slot) : Nat :=
  let reset := decide ((blockSt d 2 (x.engine / 16)).phase = 1) || (sfind d.dict.units (48 + x.engine / 16)).any (fun u => !u.waiting.isEmpty)
  b2n (pastGuard d s.tick) + 32 * b2n reset + 64 * b2n (d.twin.failed.contains (c, s.tick))

/-- What treatment leaves of a frame: the channel's state, and the objects that show it (Table 5.8). -/
def keepTreatment (d : Dev) (c : Nat) (s : Slot) (a : Chain) : Dev :=
  let d := countSwaps (onChan d c (fun k => { k with canceller := a.canc, treat := a.treat })) c a.swaps
  let d := bumpIf a.turned d Obj.answerToneBypasses c 0
  let d := oset (oset d Obj.bulkDelay c 0 a.canc.delay) Obj.erle c 0 (clampInt (-32768) 32767 a.erle)
  oset (oset d Obj.currentGain c 0 (totalGain s.params a.treat.gain / 100)) Obj.noiseFloor c 0
    (clampInt (-32768) 32767 (Config.floorOf a.treat.noise))

/-- The frame of channel c that slot s holds is decoded, treated, put into its bank and its group's queue, and sent (R17). -/
def workSlot (c : Nat) (s : Slot) (w : Work) (d : Dev) : Dev :=
  let d := match chanOf d c with
    | some x => peerBypass d c x s.tick
    | none => d
  match chanOf d c with
  | none => d
  | some x =>
    let cause := localCauses d c x s
    let late := decide (s.tick + 8 ≤ curTick d)
    let (mix, sat) := frameMix d x s
    let d := if s.group = 0xFFFF then d
      else bumpBy (bumpBy (noteSend d x.endpoint mix) Obj.mixSaturations 0 0 sat) Obj.mixTicks c 0 x.frameTicks
    let l := frameSamples d x s
    let a := treatFrame d x s l
    let d := keepTreatment d c s a
    let d := if a.turned then askPeer d c x s.tick else d
    let item := bankItem x s l
    let psn := if s.poison then 2 ^ ceilDiv item.len 8 - 1 else w.poison
    let d := (bankPush d c item.len item.val psn).1
    let (d, mixed) := pushMix d c x s a
    let (d, payload, sent) := match s.dest with
      | none => (d, noBytes, 0)
      | some e => sendOut d c { x with treat := a.treat } s e (sentSlots x s a mix) (w.bad || s.poison)
    let d := a.events.foldl (fun d e => toneEvent d c e) d
    let bad := if psn ≠ 0 ∨ w.bad then 4 else 0
    let all := Nat.lor (Nat.lor (Nat.lor cause (if late then 2 else 0)) (Nat.lor mixed sent)) bad
    noteDigest d c x s (crcOf 2 (catBytes payload item)) all

/-- FRAME_WORK: channel c's oldest decided frame is worked (R17); an isolated channel's is dropped. -/
def frameWork (c : Nat) (w : Work) (d : Dev) : Dev :=
  match chanOf d c with
  | none => d
  | some x =>
    match x.todo with
    | [] => d
    | s :: rest =>
      let d := setChan d c { x with todo := rest }
      if x.state = 2 then d else workSlot c s w d

end Sys2Proof.Machine
end

