-- ==== Sys2Proof/Machine/EngineExec.lean ====
section
/-! DEFINITION. How one instruction of an engine runs (R114 to R116, R139, R140): the wait for the registers it needs, the
exception it may take, its effect, and where PC goes; the words that Table 6.9 defines (R135). -/
namespace Sys2Proof.Machine

/-- Causes of Table 6.11. -/
def exIllegal : Nat := 1
def exPoison : Nat := 2
def exAlign : Nat := 3
def exLm : Nat := 4
def exX : Nat := 5
def exQ : Nat := 6
def exTrap : Nat := 7

/-- What one instruction comes to: an exception; a wait at its boundary with what has happened so far; its end, PC
advancing; a taken branch; or the thread's departure from the engine, PC set by the operation. -/
inductive Act where
  | fault (code : Nat) (detail : Option Nat)
  | wait (s : Sys)
  | next (s : Sys)
  | go (s : Sys) (target : BitVec 32)
  | left (s : Sys)

/-- An exception without a detail of its own. -/
def Act.ex (code : Nat) : Act := .fault code none

/-- The thread that engine e runs, on a powered engine. -/
def threadAt (d : Dev) (e : Nat) : Option Nat := if e < enginesOf d then (engineOf d e).thread else none

/-- The context in use on engine e. -/
def ctxAt (s : Sys) (e : Nat) : Ctx := (engineOf s.dev e).ctx
/-- The context in use on engine e changed. -/
def setCtx (d : Dev) (e : Nat) (c : Ctx) : Dev := setEngine d e { engineOf d e with ctx := c }
/-- The same for the whole system. -/
def putCtx (s : Sys) (e : Nat) (c : Ctx) : Sys := { s with dev := setCtx s.dev e c }

/-- The context of an engine that is still to be written back goes to the Stoker's memory (R142, step 5). -/
def flushBack (d : Dev) (e : Nat) : Dev :=
  match (engineOf d e).back with
  | none => d
  | some (t, c) =>
    let d1 := setEngine d e { engineOf d e with back := none }
    match tcbOf d1 t with
    | some k => setTcb d1 t { k with ctx := c }
    | none => d1

/-- Thread t leaves engine e with the context c, which waits to be written back. -/
def leaveEngine (d : Dev) (e t : Nat) (c : Ctx) : Dev :=
  let d := flushBack d e
  setEngine d e { engineOf d e with thread := none, back := some (t, c) }

/-- A pending migration of a thread that has just left its engine is made (R178). -/
def afterLeave (d : Dev) (t : Nat) : Dev :=
  match tcbOf d t with
  | some k =>
    match k.move with
    | some (e, mask) => moveThread d t e mask
    | none => d
  | none => d

/-- The exception record of R140, 16 bytes. -/
def exceptionRecord (code detail word pc thread : Nat) : Nat :=
  code % 256 + detail % 256 * 2 ^ 8 + word % 2 ^ 32 * 2 ^ 32 + pc % 2 ^ 32 * 2 ^ 64 + thread % 2 ^ 32 * 2 ^ 96

/-- Taking an exception (R140): the context saved with PC at the faulting instruction, the thread FAULTED, the record
pushed to the hearth's exception queue, the report, the count; a migration that waited is refused (Table 8.7). The detail
of a record is the code of a TRAP; for other causes the spec states none, and the byte is a free value. -/
def takeException (d : Dev) (e t word code : Nat) (detail : Option Nat) : Dev :=
  let c := (engineOf d e).ctx
  let (x, d) := match detail with
    | some v => (v, d)
    | none => freshNat d
  let d := leaveEngine d e t c
  let d := bump d Obj.exceptionsTaken e 0
  let h := e / 16
  let push := qPush d (ogetN d Obj.exceptionQueue h 0) true (plainItem (bytesOf 16 (exceptionRecord code x word c.pc.toNat t)))
  let d := if push.2 then push.1 else bump push.1 Obj.exceptionRecordsRefused h 0
  match tcbOf d t with
  | none => d
  | some k =>
    let d := if k.move.isSome then showResult d k.via stState t else d
    let d := setTcb d t { k with state := 4, move := none, via := none }
    if k.channel = 0xFFFFFFFF then report d 2 0x0611 t (2 ^ 31 + code)
    else isolateChannel (report d 2 0x0611 k.channel code) k.channel

/-- The end of an instruction. -/
def finish (s : Sys) (e t word : Nat) : Act → Sys
  | .fault code detail => { s with dev := takeException s.dev e t word code detail }
  | .wait s => s
  | .next s => putCtx s e (ctxAt s e).advance
  | .go s target => putCtx s e ((ctxAt s e).jump target)
  | .left s => s

/-- An engine instruction: with no thread on the engine nothing runs; otherwise the operations that hold back what it
needs are performed first (R115), none of them failing to answer, and then it acts. -/
def engineRun (s : Sys) (e word : Nat) (needs : XOp → Bool) (act : Sys → Nat → Act) : Sys :=
  match threadAt s.dev e with
  | none => s
  | some t =>
    match performAll (fun o => decide (o.thread = t) && needs o) e s with
    | none => s
    | some s => finish s e t word (act s t)

/-- Whether an operation will write one of some registers; a write of G0 holds nothing back. -/
def needRegs (l : List (BitVec 5)) (o : XOp) : Bool := o.dest.any (fun r => r != 0 && l.contains r)
/-- Whether an operation will write a condition flag: a compare-and-swap (R157). -/
def needFlags (o : XOp) : Bool :=
  match o.kind with
  | .cas _ _ _ => true
  | _ => false
/-- Whether an operation may still change ST: any that returns a value. -/
def needStatus (o : XOp) : Bool := !o.isStore

/-- An instruction that acts on the context alone: the new context, or an exception. -/
def ctxRun (s : Sys) (e word : Nat) (needs : XOp → Bool) (f : Ctx → Except Nat Ctx) : Sys :=
  engineRun s e word needs (fun s _ =>
    match f (ctxAt s e) with
    | .ok c => .next (putCtx s e c)
    | .error code => .ex code)

/-- A scalar instruction: registers `srcs` read, `rd` written with the value of `f`, poisoned where a source is. -/
def scalarRun (s : Sys) (e word : Nat) (rd : BitVec 5) (srcs : List (BitVec 5)) (f : Ctx → Word) : Sys :=
  ctxRun s e word (needRegs (rd :: srcs)) (fun c => .ok (c.setReg rd (f c) (srcs.any c.psn)))

/-! ### Words that Table 6.9 defines (R135) -/

/-- Whether a word of format R with this opcode has a defined func, with its unused fields zero. -/
def legalR (op rd ra rb func : Nat) : Bool :=
  match op with
  | 0x00 => decide (func ≤ 0x11) && (if func = 0x0D then decide (rd = 0) else true)
      && (if func = 0x10 ∨ func = 0x11 then decide (rb = 0) else true)
  | 0x0C => decide (func ≤ 7) && decide (rd = 0)
  | 0x20 =>
    match func with
    | 0 => decide (rb = 0)
    | 1 => decide (rb = 0) && decide (rd % 2 = 0)
    | 2 => decide (rd = 0)
    | 3 => decide (rd = 0) && decide (rb % 2 = 0)
    | 4 => true
    | 5 => true
    | 6 => decide (rd = 0) && decide (ra = 0) && decide (rb < 8)
    | 8 => true
    | 9 => true
    | 10 => true
    | _ => false
  | 0x21 =>
    match func with
    | 0 => decide (rd = 0) && decide (rb % 2 = 0)
    | 1 => decide (rd = 0) && decide (rb % 2 = 0)
    | 2 => decide (rb < 8)
    | 3 => decide (rb < 8)
    | 4 => decide (rb = 0) && decide (rd % 2 = 0)
    | 5 => decide (rb = 0) && decide (rd % 2 = 0)
    | 6 => decide (rb < 8)
    | 7 => decide (rb < 8)
    | 8 => decide (rd = 0) && decide (rb = 0)
    | 9 => decide (rd = 0) && decide (rb = 0)
    | 10 => decide (rd = 0) && decide (rb = 0)
    | 11 => decide (rb = 0)
    | _ => false
  | 0x22 => decide (func ≤ 5) && decide (rd = 0) && decide (rb = 0) && (decide (func = 5) || decide (ra = 0))
  | 0x32 => decide (func = 0) && decide (rd = 0) && decide (rb = 0)
  | 0x38 =>
    match func with
    | 0 => decide (rd = 0) && decide (ra = 0) && decide (rb = 0)
    | 1 => decide (rb = 0)
    | 2 => true
    | 3 => decide (rd = 0) && decide (ra = 0) && decide (rb = 0)
    | 4 => decide (rd = 0) && decide (ra = 0)
    | 5 => decide (rd = 0) && decide (ra = 0) && decide (rb < 2)
    | 6 => decide (ra = 0) && decide (rb = 0)
    | 7 => decide (rd = 0) && decide (ra = 0) && decide (rb = 0)
    | 8 => decide (rd = 0) && decide (rb = 0)
    | 9 => decide (ra = 0) && decide (rb = 0)
    | _ => false
  | _ => false

/-- Whether a word encodes an instruction of Table 6.9 with every field one that Tables 6.8 and 6.9 define. -/
def legalWord (w : Nat) : Bool :=
  let op := bitsAt w 26 6
  let rd := bitsAt w 21 5
  let ra := bitsAt w 16 5
  let rb := bitsAt w 11 5
  match op with
  | 0x01 => true
  | 0x02 => true
  | 0x03 => true
  | 0x04 => true
  | 0x05 => decide (ra = 0)
  | 0x06 => decide (rd = 0)
  | 0x07 => decide (bitsAt w 8 8 = 0) && decide (bitsAt w 6 2 ≠ 3)
  | 0x08 => decide (bitsAt w 14 2 < 2) && (decide (bitsAt w 16 2 ≠ 3) || decide (rd % 2 = 0))
  | 0x09 => decide (bitsAt w 14 2 < 2) && (decide (bitsAt w 16 2 ≠ 3) || decide (rd % 2 = 0))
  | 0x0A => true
  | 0x0B => decide (ra < 8) && decide (bitsAt w 0 16 = 0)
  | 0x10 => decide (bitsAt w 0 3 = 0)
  | 0x11 => decide (bitsAt w 0 3 = 0)
  | 0x12 => decide (bitsAt w 0 3 = 0)
  | 0x13 => decide (bitsAt w 0 3 = 0)
  | 0x14 => decide (bitsAt w 0 2 = 0)
  | 0x15 => decide (bitsAt w 0 5 = 0)
  | 0x18 => decide (rd % 4 = 0) && decide (bitsAt w 10 2 ≠ 3) && decide (bitsAt w 7 2 ≠ 3)
  | 0x19 => decide (bitsAt w 10 2 ≠ 3) && decide (bitsAt w 7 2 ≠ 3)
  | 0x1A => decide (bitsAt w 10 2 ≠ 3) && decide (bitsAt w 7 2 ≠ 3)
  | 0x1B => decide (bitsAt w 10 2 ≠ 3) && decide (bitsAt w 7 2 ≠ 3)
  | 0x1C => decide (bitsAt w 10 2 ≠ 3) && decide (bitsAt w 7 2 ≠ 3)
  | 0x30 => decide (rd < 12)
  | 0x31 => decide (rd = 0)
  | 0x33 => true
  | _ => legalR op rd ra rb (bitsAt w 0 11)

/-- ILLEGAL_INSTRUCTION: a word that Table 6.9 does not define raises ILLEGAL (R135). -/
def illegalInstruction (e : Nat) (word : BitVec 32) (s : Sys) : Sys :=
  if legalWord word.toNat then s else engineRun s e word.toNat (fun _ => false) (fun _ _ => .ex exIllegal)

end Sys2Proof.Machine
end

