-- ==== Sys2Proof/Machine/StokerOps.lean ====
section
/-! DEFINITION. The Stoker's own work: dispatch and pre-emption (R142, R158, R171 to R173), the statistics of a dispatch
(R186), deadline misses (R176), the tick release (R175, R177), latches (R170), and the fences that it ends (R155, R156). -/
namespace Sys2Proof.Machine

/-- The entries of hearth h that a READY thread can be dispatched for, in the order of R171. -/
def dispatchable (d : Dev) (h : Nat) : List Ready :=
  sortReady d ((readyOf d h).filter (fun r => (tcbOf d r.thread).any (fun k => decide (k.state = 2) && k.wants r.kind)))

/-- The engines of a thread's mask that the tier powers, by rising local index. -/
def maskEngines (d : Dev) (k : Tcb) : List Nat :=
  ((setBits 16 k.mask).map (· + k.home / 16 * 16)).filter (fun e => decide (e < enginesOf d))

/-- The priority of the thread that engine e runs, where it runs one. -/
def runningPrio (d : Dev) (e : Nat) : Option Nat := (engineOf d e).thread.map (prioOf d)

/-- The engines of a list that run a thread of the lowest priority there, if that is lower than level `p`. -/
def preemptable (d : Dev) (l : List Nat) (p : Nat) : List Nat :=
  let worst := (l.filterMap (runningPrio d)).foldl max 0
  if p < worst then l.filter (fun e => decide (runningPrio d e = some worst)) else []

/-- Where the Stoker places an entry of thread k (R172): its home engine when that is free, then the first free engine of
the mask, then an engine to pre-empt. R172 does not say which of several engines of equal lowest priority is pre-empted:
the choice is a free value. -/
def placement (d : Dev) (k : Tcb) : Option Nat :=
  let l := maskEngines d k
  let idle := l.filter (fun e => (engineOf d e).thread.isNone)
  if idle.contains k.home then some k.home
  else
    match idle with
    | e :: _ => some e
    | [] =>
      let l2 := preemptable d l k.prio
      l2[Config.freeNat d.free % l2.length]?

/-- The first entry of hearth h that can be placed, with its thread's TCB and its engine. -/
def firstPlaced (d : Dev) : List Ready → Option (Ready × Tcb × Nat)
  | [] => none
  | r :: l =>
    match tcbOf d r.thread with
    | none => firstPlaced d l
    | some k =>
      match placement d k with
      | some e => some (r, k, e)
      | none => firstPlaced d l

/-- The external operations that a thread has in flight on engines other than e, performed (R158); none where one must
wait. -/
def settleElsewhere (t e : Nat) : List Nat → Sys → Option Sys
  | [], s => some s
  | x :: l, s =>
    if x = e then settleElsewhere t e l s
    else
      match performAll (fun o => decide (o.thread = t)) x s with
      | none => none
      | some s =>
        match copiesAll (fun c => decide (c.thread = t)) x s with
        | none => none
        | some s => settleElsewhere t e l s

/-- The context of a thread as the Stoker's memory holds it, what waits to be written back included. -/
def savedCtx (d : Dev) (t : Nat) : Dev :=
  d.engines.foldl (fun d e => if e.2.back.map Prod.fst = some t then flushBack d e.1 else d) d

/-- A thread that engine e runs is pre-empted for thread `by_`: it takes a RESUME entry and leaves (R172, R142). -/
def preemptOn (d : Dev) (e by_ : Nat) : Dev :=
  match (engineOf d e).thread with
  | none => d
  | some u =>
    let d := leaveEngine d e u (engineOf d e).ctx
    match tcbOf d u with
    | none => d
    | some k =>
      let d := putResume d u { k with state := 2, preempts := k.preempts + 1 }
      afterLeave (trace (bump d Obj.preemptions e 0) u e 3 6 by_) u

/-- The bin of a wait in ns (R186). -/
def waitBin (ns : Nat) : Nat :=
  if ns < 100 then 0 else if 1638400 ≤ ns then 15 else Nat.log2 (ns / 100) + 1

/-- The wait of a dispatch: from the ready time of its entry, ns. Across a step of network time it is a free value. -/
def dispatchWait (d : Dev) (r : Ready) : Nat × Dev :=
  if r.time.gen = d.time.gen then ((d.time.net - r.time.t) / 65536, d) else freshNat d

/-- No dispatch counted. -/
def WaitStats.zero : WaitStats := { count := 0, sum := 0, least := 0, most := 0, hist := List.replicate 16 0 }

/-- A wait counted in an engine's statistics. -/
def WaitStats.add (w : WaitStats) (x : Nat) : WaitStats :=
  { count := w.count + 1, sum := w.sum + x, least := if w.count = 0 then x else min w.least x, most := max w.most x,
    hist := w.hist.set (waitBin x) (w.hist.getD (waitBin x) 0 + 1) }

/-- The wait of a dispatch on engine e recorded: in the trace for a TRACE thread, in the statistics for another. -/
def noteWait (d : Dev) (e t : Nat) (k : Tcb) (r : Ready) : Dev :=
  let (x, d) := dispatchWait d r
  if k.trace then trace d t e 2 r.kind (min x 0xFFFFFFFF)
  else { d with stk := { d.stk with waits := sput d.stk.waits e ((sget d.stk.waits e WaitStats.zero).add x) } }

/-- The TCB of a thread as it goes to an engine for an entry: a release begins, goes on, or takes the entry that WAIT
waited for. -/
def startTcb (k : Tcb) (r : Ready) : Tcb :=
  let k := { k with state := 3, dispatches := k.dispatches + 1 }
  if r.kind = 6 then { k with hold := none }
  else
    match k.hold with
    | some (.kinds _ rd) =>
      { k with hold := none, releases := if r.kind = 0 then k.releases - 1 else k.releases,
               ctx := k.ctx.setReg rd (BitVec.ofNat 64 (r.kind + r.value * 2 ^ 32)) false }
    | _ =>
      { k with hold := none, release := some r, missed := r.missed, dlTick := r.dlTick, dlOff := r.dlOff,
               ctx := { k.ctx with pc := BitVec.ofNat 32 k.entryPc } }

/-- The banks swap and the thread starts on engine e (R142). -/
def startOn (d : Dev) (e : Nat) (r : Ready) : Dev :=
  let t := r.thread
  match tcbOf d t with
  | none => d
  | some k0 =>
    let k := startTcb k0 r
    let d := setTcb (dropEntry d (k.home / 16) r) t k
    let x := engineOf d e
    let late := decide (x.cand.map Prod.fst ≠ some t)
    let bank := !x.bank
    let c := { k.ctx with lmwin := BitVec.ofNat 32 k.lmWindow }
    let d := setEngine d e { x with thread := some t, ctx := c.setSt St.bank (b2n bank), bank := bank, cand := none }
    let d := bumpIf late (bump (bump d Obj.dispatches e 0) Obj.bankSwaps e 0) Obj.swapWaits e 0
    noteWait d e t k r

/-- Whether hearth h runs: powered, out of block reset, and the device past Ready and not quenched. -/
def hearthRuns (d : Dev) (h : Nat) : Bool := decide (h < hearthsOf d) && isReady d && decide ((blockSt d 2 h).phase ≠ 1)

/-- DISPATCH: the slice of hearth h places the first ready entry that can be placed (R172). -/
def dispatch (h : Nat) (s : Sys) : Sys :=
  if !hearthRuns s.dev h then s
  else
    match firstPlaced s.dev (dispatchable s.dev h) with
    | none => s
    | some (r, _, e) =>
      let s0 := if (engineOf s.dev e).thread.isSome then { s with dev := { s.dev with free := s.dev.free + 1 } } else s
      match settleElsewhere r.thread e (skeys s0.dev.engines) s0 with
      | none => s
      | some s1 => { s1 with dev := startOn (savedCtx (preemptOn s1.dev e r.thread) r.thread) e r }

/-- CANDIDATE_PRELOAD: the context of the first entry that engine e may serve is loaded into its inactive bank (R142). -/
def candidatePreload (e : Nat) (d : Dev) : Dev :=
  if !hearthRuns d (e / 16) || decide (enginesOf d ≤ e) then d
  else
    match (dispatchable d (e / 16)).find? (fun r => (tcbOf d r.thread).any (fun k => bitSet k.mask (e % 16))) with
    | none => d
    | some r =>
      let d := savedCtx d r.thread
      match tcbOf d r.thread with
      | some k => setEngine d e { engineOf d e with cand := some (r.thread, k.ctx) }
      | none => d

/-- CONTEXT_WRITEBACK: the old context goes to the Stoker's memory (R142, step 5). -/
def contextWriteback (e : Nat) (d : Dev) : Dev := flushBack d e

/-! ### Deadlines (R176) -/

/-- A tick that a re-anchor makes longer has a later guard point: the deadlines that fall on it follow, those of releases in
progress and those of held entries (Table 8.1, R31). -/
def lengthenTick (d : Dev) (n : Nat) : Dev :=
  let off := guardAt d n
  let timed := fun (r : Ready) => decide (r.dlTick = n) && (decide (r.kind = 0) || decide (r.kind = 1))
  let key := keyOfDeadline d n off
  let later := fun (k : Option Tcb) (r : Ready) =>
    if timed r then { r with dlOff := off, key := if k.any Tcb.byDeadline then key else r.key } else r
  let ready := d.stk.ready.map (fun p => (p.1, p.2.map (fun r => later (tcbOf d r.thread) r)))
  let tcbs := d.stk.tcbs.map (fun p =>
    (p.1, { p.2 with release := p.2.release.map (later (some p.2)),
                     dlOff := if p.2.release.any timed then off else p.2.dlOff }))
  { d with stk := { d.stk with ready := ready, tcbs := tcbs } }

/-- A miss reported once, against the thread, its engine and its channel (R176). -/
def reportMiss (d : Dev) (t kind : Nat) (k : Tcb) : Dev :=
  let e := ((d.engines.find? (fun x => decide (x.2.thread = some t))).map Prod.fst).getD k.home
  let d := setTcb d t { k with misses := k.misses + 1 }
  let d := onChan d k.channel (fun c => { c with misses := c.misses + 1 })
  let d := report (bump d Obj.deadlineMisses e 0) 0 0x0401 e t
  trace d t e 5 kind 0

/-- Whether a release of this kind has a deadline that can be missed. -/
def timedKind (kind : Nat) : Bool := decide (kind = 0) || decide (kind = 1)

/-- The release of thread t whose deadline comes first among those in progress or held that have not been reported: its
deadline, and the entry where it has not begun. -/
def nextMiss (d : Dev) (t : Nat) (k : Tcb) : Option (Int × Option Ready) :=
  let run := match k.release with
    | some r => if timedKind r.kind && !k.missed then [(deadlineAt d r.dlTick r.dlOff, none)] else []
    | none => []
  let held := ((entriesOf d t).filter (fun r => timedKind r.kind && !r.missed)).map
    (fun r => (deadlineAt d r.dlTick r.dlOff, some r))
  (run ++ held).foldl (fun (a : Option (Int × Option Ready)) x =>
    match a with
    | none => some x
    | some y => if x.1 < y.1 then some x else some y) none

/-- DEADLINE_MISS: the deadline of a TICK or FRAME release of thread t passes before it has ended; reported once. Where
the deadline falls later in the tick in progress, time goes on to it. -/
def deadlineMiss (t : Nat) (d : Dev) : Dev :=
  match tcbOf d t with
  | none => d
  | some k =>
    match nextMiss d t k with
    | none => d
    | some (at_, held) =>
      let wait := at_ - d.time.media
      if (d.time.nextTick : Int) < at_ then d
      else
        let d := if 0 < wait then { d with time := d.time.advanceMedia (slewRate d) wait.toNat } else d
        match held with
        | none => reportMiss d t ((k.release.map Ready.kind).getD 0) { k with missed := true }
        | some r =>
          let mark := fun (x : Ready) => if x.order = r.order then { x with missed := true } else x
          reportMiss { d with stk := { d.stk with ready := d.stk.ready.map (fun p => (p.1, p.2.map mark)) } } t r.kind k

/-! ### Leaving the engine -/

/-- The state of a thread that ends or leaves its release: READY where it holds an entry it can be dispatched for. -/
def restState (d : Dev) (t : Nat) (k : Tcb) : Nat := if (entriesOf d t).any (fun r => k.wants r.kind) then 2 else 1

/-- A release that ends late without its miss reported is reported now (R176): an end at the deadline itself meets it. -/
def missAtEnd (d : Dev) (t : Nat) : Dev :=
  match tcbOf d t with
  | none => d
  | some k =>
    match k.release with
    | some r =>
      if timedKind r.kind && !k.missed && decide (deadlineAt d r.dlTick r.dlOff < d.time.media) then
        reportMiss d t r.kind { k with missed := true }
      else d
    | none => d

/-- EXIT (Table 8.4): the release of thread t on engine e ends. -/
def endRelease (d : Dev) (e t : Nat) : Dev :=
  let d := missAtEnd d t
  match tcbOf d t with
  | none => d
  | some k =>
    let c := { (engineOf d e).ctx with pc := BitVec.ofNat 32 k.entryPc }
    let tick := k.release.any (fun r => decide (r.kind = 0))
    let k1 := { k with release := none, missed := false, hold := none,
                       releases := if tick then k.releases - 1 else k.releases }
    let d := restThread (leaveEngine (setTcb d t k1) e t c) t k1
    let d := if (tcbOf d t).any (fun (k : Tcb) => decide (k.state = 1)) then trace d t e 4 0 0 else d
    afterLeave d t

/-- The thread on engine e leaves it, blocked within its release. -/
def blockAt (d : Dev) (e t : Nat) (c : Ctx) (h : Hold) : Dev :=
  match tcbOf d t with
  | none => d
  | some k => leaveEngine (setTcb d t { k with state := 1, hold := some h }) e t c

/-- The same, and a migration that waited is made. -/
def blockOn (d : Dev) (e t : Nat) (c : Ctx) (h : Hold) : Dev := afterLeave (blockAt d e t c h) t

/-- Whether an entry of thread t is the first that engine e would serve. -/
def firstFor (d : Dev) (e t : Nat) : Bool :=
  match (dispatchable d (e / 16)).find? (fun r => (tcbOf d r.thread).any (fun k => bitSet k.mask (e % 16))) with
  | some r => decide (r.thread = t) && decide (r.kind = 6)
  | none => true

/-- YIELD (Table 8.4): a RESUME entry at the tail of its level's; with no other entry ahead the thread goes on. -/
def yieldOn (d : Dev) (e t : Nat) (c : Ctx) : Dev :=
  match tcbOf d t with
  | none => d
  | some k =>
    let d1 := putResume d t { k with state := 2 }
    if k.move.isNone && firstFor d1 e t then
      setCtx d e c
    else afterLeave (trace (leaveEngine d1 e t c) t e 1 6 0) t

/-- WAIT (Table 8.4): the first held entry of the kinds of `mask` is taken at once, or the thread blocks. -/
def waitOn (d : Dev) (e t : Nat) (c : Ctx) (mask : Nat) (rd : BitVec 5) (psn : Bool) : Dev :=
  match tcbOf d t with
  | none => d
  | some k =>
    match (sortReady d (entriesOf d t)).find? (fun r => bitSet mask r.kind) with
    | some r =>
      let d := dropEntry d (k.home / 16) r
      let c := c.setReg rd (BitVec.ofNat 64 (r.kind + r.value * 2 ^ 32)) psn
      let k1 := { k with releases := if r.kind = 0 then k.releases - 1 else k.releases }
      if k.move.isSome then
        afterLeave (trace (leaveEngine (putResume d t { k1 with state := 2 }) e t c) t e 1 6 0) t
      else setCtx (setTcb d t k1) e c
    | none => afterLeave (trace (blockAt d e t c (.kinds mask rd)) t e 4 0 0) t

/-- A thread blocked in FENCE.TICK or FENCE.EPOCH is made ready, to go on after the fence (R155). -/
def wakeFenced (d : Dev) (t : Nat) (k : Tcb) : Dev :=
  trace (putResume d t { k with state := 2, hold := none }) t k.home 1 6 0

/-- Whether hearth h's epoch unit has yet to apply epoch e (R156). -/
def epochWaits (d : Dev) (h e : Nat) : Bool := ((sfind d.dict.units (48 + h)).map (fun u => u.waiting.any (fun w => decide (w.1 = e)))).getD false

/-- The fences that end at the release of tick n: threads named in rising order. -/
def wakeFences (d : Dev) (n : Nat) : Dev :=
  (skeys d.stk.tcbs).foldl (fun d t =>
    match tcbOf d t with
    | none => d
    | some k =>
      match k.hold with
      | some (.tick x) => if k.state = 1 ∧ x ≤ n then wakeFenced d t k else d
      | some (.epoch x tick) =>
        if k.state = 1 ∧ tick ≤ n ∧ epochWaits d (k.home / 16) x = false then wakeFenced d t k else d
      | _ => d) d

/-! ### The tick release (R175, R177) -/

/-- A channel thread 8 releases behind: its channel is isolated, its held TICK and FRAME entries freed (R177). The thread takes no
more of them. -/
def isolateBehind (d : Dev) (t : Nat) (k : Tcb) : Dev :=
  let d := isolateChannel (report d 2 0x0610 k.channel 0) k.channel
  let d := dropKinds d t [0, 1]
  let inRun := k.release.any (fun r => decide (r.kind = 0))
  match tcbOf d t with
  | some k =>
    setTcb d t { k with releases := b2n inRun, behind := true, state := if k.state = 2 then restState d t k else k.state }
  | none => d

/-- Whether an event may become an entry for its thread now. A TICK event whose entry would be the ninth in ReleasesPending is
skipped for a firmware thread and counted, and isolates the channel of a channel thread, to which no TICK or FRAME entry is
written from then on (R177). The events of other kinds always may. -/
def admitEvent (d : Dev) (t kind : Nat) : Dev × Bool :=
  match tcbOf d t with
  | none => (d, true)
  | some k =>
    if decide (2 ≤ kind) then (d, true)
    else if k.behind then (d, false)
    else if kind = 0 ∧ 8 ≤ k.releases then
      (if k.channel = 0xFFFFFFFF then bump d Obj.tickEntriesSkipped (k.home / 16) 0 else isolateBehind d t k, false)
    else (d, true)

/-- One event of a tick release, issued by the poster of hearth h's slice. -/
def releasePost (d : Dev) (h t kind n : Nat) : Dev :=
  let a := admitEvent d t kind
  if a.2 then hwPost a.1 h t kind n else a.1

/-- The entries of one thread at the release of tick n: a TICK entry where it has TICK set, a FRAME entry where it serves a
channel whose frame tick it is (R175). Isolation alone stops neither. -/
def releaseThread (n : Nat) (d : Dev) (t : Nat) : Dev :=
  match tcbOf d t with
  | none => d
  | some k =>
    let h := k.home / 16
    let d := if k.ticks then releasePost d h t 0 n else d
    match chanOf d k.channel with
    | some c => if isFrameTick c n then releasePost d h t 1 n else d
    | none => d

/-- The release of tick n by the slice of hearth h: TRACE threads first, then the rest, by rising number. The time it
takes is a free value within its bound (R175). -/
def releaseHearth (n : Nat) (d : Dev) (h : Nat) : Dev :=
  let mine := (d.stk.tcbs.filter (fun p => decide (p.2.home / 16 = h)))
  let first := (mine.filter (fun p => p.2.trace)).map Prod.fst
  let rest := (mine.filter (fun p => !p.2.trace)).map Prod.fst
  let d := (first ++ rest).foldl (releaseThread n) d
  let (x, d) := freshNat d
  oset d Obj.tickPostTime h 0 (x % 4101 : Nat)

/-- The release of tick n by every slice. -/
def tickRelease (d : Dev) (n : Nat) : Dev := (List.range (hearthsOf d)).foldl (releaseHearth n) (wakeFences d n)

/-! ### Latches (R170) -/

/-- The retries that a poster owes. -/
def setOwed (d : Dev) (poster n : Nat) : Dev :=
  { d with stk := { d.stk with owed := if n = 0 then serase d.stk.owed poster else sput d.stk.owed poster n } }

/-- The events behind a latch issued in order, until one is refused: it is held, and owes `owed` retries. An event that R177
stops by now is dropped. -/
def issueHeld (d : Dev) (poster owed : Nat) : List Post → Dev
  | [] => d
  | p :: l =>
    let a := admitEvent d p.thread p.kind
    if !a.2 then issueHeld a.1 poster 0 l
    else
      let (d1, res) := postEntry trace a.1 p.thread p.kind p.value
      if res = 1 then
        let d2 := bump (setOwed (setLatch d1 poster (p :: l)) poster owed) Obj.hardwareRefusals (hearthOf d1 p.thread) 0
        if p.kind = 2 then bump d2 Obj.thresholdPostsRefused 0 0 else d2
      else issueHeld d1 poster 0 l

/-- LATCH_RETRY: for a ready entry freed in the hearth of the thread of the event it holds, a poster retries that event, and goes on
with those behind it (R170). With no entry freed since its last attempt it does not retry. -/
def latchRetry (poster : Nat) (d : Dev) : Dev :=
  match latchOf d poster with
  | [] => d
  | p :: l =>
    match sget d.stk.owed poster 0 with
    | 0 => d
    | n + 1 =>
      let d := bump d Obj.latchRetries (hearthOf d p.thread) 0
      issueHeld (setOwed (setLatch d poster []) poster 0) poster n (p :: l)

/-- MIGRATION_MOVE: the move of a thread that has left its engine, or whose entries its target could not take (R178). -/
def migrationMove (t : Nat) (d : Dev) : Dev :=
  match tcbOf d t with
  | none => d
  | some k => if k.state = 3 then d else if k.state = 5 then finishMove d t else afterLeave d t

end Sys2Proof.Machine
end

