-- ==== Sys2Proof/Machine/Setup.lean ====
section
/-! DEFINITION. Setup records (R65 to R78, R215): the checks at write, and what each kind does at its tick. -/
namespace Sys2Proof.Machine

/-! ### Checks at write -/

/-- Statuses of Table 4.5. -/
def suApplied : Nat := 0
def suFormat : Nat := 1
def suTooLate : Nat := 3
def suTickFull : Nat := 4
def suUnsupported : Nat := 5
def suKey : Nat := 6
def suState : Nat := 7
def suCap : Nat := 10
def suCipher : Nat := 11
def suThreads : Nat := 12
def suGroup : Nat := 13

/-- Body bytes by kind (Table 4.3); none for no such kind. -/
def bodyBytes : Nat → Option Nat
  | 1 => some 384
  | 2 => some 0
  | 3 => some 32
  | 4 => some 0
  | 5 => some 32
  | 6 => some 4
  | 7 => some 0
  | 8 => some 72
  | 9 => some 384
  | _ => none

/-- The reserved and kept bits of an endpoint body (Table 4.1) are zero. -/
def epReservedOk (v : Nat) : Bool :=
  [((0 : Nat), (8 : Nat)), (312, 200), (688, 16), (736, 288), (1040, 16), (2112, 960)].all (fun p => decide (bitsAt v p.1 p.2 = 0))

/-- The ranges of an endpoint body (Table 4.1). -/
def epRangeOk (v : Nat) : Bool :=
  let f := getF v
  epReservedOk v && decide (f Ep.kind ≤ 2) && decide (f Ep.flags ≤ 15) && decide (f Ep.mediaAddressIndex ≤ 15)
    && decide (f Ep.vlan ≤ 4094) && decide (f Ep.egressPort ≤ 31) && decide (f Ep.egressPriority ≤ 7)
    && decide (f Ep.linePort ≤ 63) && (decide (f Ep.frameTicks = 4) || decide (f Ep.frameTicks = 8))
    && decide (f Ep.codecOptions ≤ 7) && decide (f Ep.mkiLength ≤ 4)
    && (!bitSet (f Ep.flags) 1 || decide (f Ep.localRtcpPort = 0))

/-- Whether CodecMode is valid for a codec that is sent (R76, Table 4.1). -/
def modeOk (codec mode : Nat) : Bool :=
  match codec with
  | 6 => decide (mode ≤ 8)
  | 7 => decide (Config.evsBits mode ≠ 0)
  | 8 => decide (6 ≤ mode)
  | _ => decide (mode = 0)

/-- Codecs, preferred codecs, packetisation, mode and SRTP option lie within Tables 4.7 and 3.8 (R66, R76). -/
def epSupported (v : Nat) : Bool :=
  let rx := getF v Ep.rxCodec
  let tx := getF v Ep.txCodec
  let line := decide (getF v Ep.kind = 2)
  let suite := getF v Ep.srtpSuite
  let fits := fun (c : Nat) => decide (c ≤ 8) && (decide (c = 0) == line) && (decide (getF v Ep.frameTicks = 8) || (c != 6 && c != 7))
  fits rx && fits tx && (List.range 4).all (fun i => decide (bitsAt (getF v Ep.codecPreferences) (8 * i) 8 ≤ 8)) && modeOk tx (getF v Ep.codecMode) && (if line then decide (suite = 0xFF) else decide (suite ≤ 5))

/-- A channel body with the jitter defaults of 0x2604 in fields of 0 (R89). -/
def fillJitter (d : Dev) (v : Nat) : Nat :=
  let put := fun (v : Nat) (f : Fld) (r : Row) => if getF v f = 0 then setF v f (ogetN d r 0 0) else v
  put (put (put v ChBody.jitterMin Obj.jitterMinDefault) ChBody.jitterMax Obj.jitterMaxDefault) ChBody.jitterInitial Obj.jitterInitialDefault

/-- The ranges of a channel body whose jitter fields are filled (Table 4.4, R67, R222). -/
def chRangeOk (v : Nat) : Bool :=
  let f := getF v
  let lo := f ChBody.jitterMin
  let hi := f ChBody.jitterMax
  let x := f ChBody.jitterInitial
  decide (bitsAt v 200 56 = 0) && decide (20 ≤ lo) && decide (lo ≤ x) && decide (x ≤ hi) && decide (hi ≤ 500)
    && decide (f ChBody.treatmentProfile ≤ 63) && decide (f ChBody.flags ≤ 15) && decide (f ChBody.priority ≤ 31)
    && decide (f ChBody.evidenceStream ≤ 65535) && (decide (f ChBody.hearthHint ≤ 11) || decide (f ChBody.hearthHint = 0xFF))
    && (decide (f ChBody.group ≤ 8191) || decide (f ChBody.group = 0xFFFF)) && decide (f ChBody.endpoint ≤ 1048575)
    && (decide (f ChBody.outputEndpoint ≤ 1048575) || decide (f ChBody.outputEndpoint = 0xFFFFFFFF))

/-- The body of a record by its kind is well formed. -/
def bodyOk (kind : Nat) (b : Bytes) : Bool :=
  match kind with
  | 1 => epRangeOk b.val
  | 3 => chRangeOk b.val
  | 5 => chRangeOk b.val
  | 6 => decide (bitsAt b.val 0 16 ≤ 8191) && decide (bitsAt b.val 24 8 = 0)
  | 8 => decide (bitsAt b.val 0 8 ≤ 1) && decide (bitsAt b.val 8 8 ≤ 4) && decide (bitsAt b.val 16 16 = 0)
  | 9 => epRangeOk b.val
  | _ => true

/-- Whether a CHANNEL_OPEN or CHANNEL_MODIFY names a line port's endpoint (R210). -/
def namesLine (d : Dev) (b : Bytes) : Bool :=
  let o := getF b.val ChBody.outputEndpoint
  decide (epF d (getF b.val ChBody.endpoint) Ep.kind = 2)
    || (decide (getF b.val ChBody.group = 0xFFFF) && decide (o ≠ 0xFFFFFFFF) && decide (epF d o Ep.kind = 2))

/-- Whether a record carries key blocks that are to be unwrapped: a REGISTER with SRTP, or a KEY_UPDATE (R66). -/
def carriesKeys (kind : Nat) (b : Bytes) : Bool :=
  decide (kind = 8) || (decide (kind = 1) && decide (getF b.val Ep.srtpSuite ≠ 0xFF))

/-- Whether the header of a record in `length` bytes is well formed (Table 4.2). -/
def headerOk (r : SetupRec) (length reserved : Nat) : Bool :=
  let subjects := if r.kind = 1 ∨ r.kind = 2 ∨ r.kind = 8 ∨ r.kind = 9 then 1048575 else 65535
  decide (bodyBytes r.kind = some (length - 32)) && decide (32 ≤ length) && decide (reserved = 0) && decide (r.subject ≤ subjects)

/-- The check of a record with the right sequence (Table 4.5): 0 accepted, or the first status that applies. `bad` tells
that a key block of it fails to unwrap. -/
def writeStatus (d : Dev) (r : SetupRec) (length reserved : Nat) (bad : Bool) : Nat :=
  if headerOk r length reserved = false ∨ bodyOk r.kind r.body = false then suFormat
  else if r.tick < curTick d + 2 then suTooLate
  else if 64 ≤ (d.setup.pending.filter (fun p => decide (p.tick = r.tick))).length then suTickFull
  else if ((r.kind = 1 ∨ r.kind = 9) ∧ epSupported r.body.val = false)
      ∨ ((r.kind = 3 ∨ r.kind = 5) ∧ twinned d = true ∧ namesLine d r.body = true) then suUnsupported
  else if carriesKeys r.kind r.body && (bad || decide (ogetN d Obj.keyTransportKey 0 0 = 0)) then suKey
  else suApplied

/-- A result record joins the results held (R75). -/
def putResult (d : Dev) (r : SetupRec) (status engine tick : Nat) : Dev :=
  let v := setF (setF (setF 0 ResultRec.cookie r.cookie) ResultRec.appliedTick tick) ResultRec.engine engine
  let v := setF (setF (setF v ResultRec.status status) ResultRec.kind r.kind) ResultRec.sequence r.seq
  { d with setup := { d.setup with results := d.setup.results ++ [v] } }

/-- The record that stands in some bytes: header fields, body, jitter defaults, and the tick that a TargetTick of 0
means in solo operation (R72). -/
def parseRec (d : Dev) (data : Bytes) : SetupRec :=
  let h := data.val % 2 ^ 256
  let kind := getF h SetupHdr.kind
  let body : Bytes := ⟨data.len - 32, data.val / 2 ^ 256⟩
  let t := getF h SetupHdr.targetTick
  { seq := getF h SetupHdr.recordSequence, kind := kind, subject := getF h SetupHdr.subject,
    tick := if t = 0 ∧ twinned d = false then curTick d + 2 else t, cookie := getF h SetupHdr.cookie,
    body := if kind = 3 ∨ kind = 5 then { body with val := fillJitter d body.val } else body }

/-- A key block as it is stored, wrapped again under the device key (R66). -/
def storedKey (d : Dev) (block : Nat) : Nat := Config.rewrapKey (ogetN d Obj.keyTransportKey 0 0) block

/-- An accepted record keeps its key blocks only as they are stored (R66). -/
def rewrapped (d : Dev) (r : SetupRec) : SetupRec :=
  let v := r.body.val
  if !carriesKeys r.kind r.body then r
  else if r.kind = 8 then { r with body := { r.body with val := setF v ⟨64, 512⟩ (storedKey d (bitsAt v 64 512)) } }
  else
    let v := setF (setF v Ep.rxKeyBlock (storedKey d (getF v Ep.rxKeyBlock))) Ep.txKeyBlock (storedKey d (getF v Ep.txKeyBlock))
    { r with body := { r.body with val := v } }

/-- One record of a block (R70 to R72): its status byte is 0 where it consumed its sequence. -/
def writeOne (d : Dev) (data : Bytes) (bad : Bool) : Dev × Nat :=
  let r := parseRec d data
  let reserved := bitsAt data.val 160 32
  if r.seq ≠ d.setup.next then (d, 2)
  else if headerOk r data.len reserved && decide (4096 ≤ d.setup.pending.length + d.setup.results.length) then (d, 0xFE)
  else
    let d := { d with setup := { d.setup with next := (r.seq + 1) % 2 ^ 32 } }
    match writeStatus d r data.len reserved bad with
    | 0 => (bump { d with setup := { d.setup with pending := d.setup.pending ++ [rewrapped d r] } } Obj.setupAccepted 0 0, 0)
    | st =>
      let d := bumpIf (decide (st = suKey)) d Obj.keyUnwrapFailures 0 0
      (putResult (bump d Obj.setupRefusedAtWrite 0 0) r st 0xFF 0, 0)

/-- A write cut into its records by their Length fields; none where they do not exactly fill it (R291). -/
def cutRecords : Nat → Bytes → Option (List Bytes)
  | 0, b => if b.len = 0 then some [] else none
  | n + 1, b =>
    if b.len = 0 then some []
    else
      let l := getF b.val SetupHdr.length
      if l < 32 ∨ b.len < l then none
      else (cutRecords n ⟨b.len - l, b.val / 2 ^ (8 * l)⟩).map (fun r => ⟨l, b.val % 2 ^ (8 * l)⟩ :: r)

/-- A write of SetupRecord with 1 to 64 records: the status bytes, or the abort code that refuses the write whole (R70,
R291, R317, R320). Bit i of `badKeys` tells that a key block of record i fails to unwrap. -/
def setupWrite (d : Dev) (data : Bytes) (badKeys : Nat) : Dev × (Nat ⊕ Bytes) :=
  if !isReady d then (d, .inl abortState)
  else
    match cutRecords 64 data with
    | none => (d, .inl abortStore)
    | some [] => (d, .inl abortStore)
    | some l =>
      let (d, bytes, _) := l.foldl (fun (acc : Dev × List Bytes × Nat) b =>
        let (d, st) := writeOne acc.1 b (bitSet badKeys acc.2.2)
        (d, acc.2.1 ++ [bytesOf 1 st], acc.2.2 + 1)) (d, [], 0)
      (d, .inr (joinBytes bytes))

/-- SETUP_RECORD_WRITE. -/
def setupRecordWrite (data : Bytes) (badKeys : Nat) (d : Dev) : Dev :=
  match setupWrite d data badKeys with
  | (d, .inl code) => refuse d code
  | (d, .inr bytes) => answer d 0 bytes

/-- SETUP_RESULTS_READ: the results held, oldest first, are returned and freed (R75). -/
def setupResultsRead (d : Dev) : Dev :=
  let data := joinBytes (d.setup.results.map (bytesOf 24))
  answer { d with setup := { d.setup with results := [] } } 0 data

/-! ### Endpoint records -/

/-- What a record comes to at its tick: the device, the status and, of an opened channel, the engine. -/
structure Done where
  dev    : Dev
  status : Nat
  engine : Nat

/-- A record refused: nothing changes. -/
def Done.refuse (d : Dev) (status : Nat) : Done := ⟨d, status, 0xFF⟩
/-- A record applied. -/
def Done.ok (d : Dev) : Done := ⟨d, 0, 0xFF⟩

/-- The admission of a record (R78, R215): checked here, or given by the admission leader. -/
inductive Admit where
  | check
  | given (engine phase : Nat)
  deriving DecidableEq, Repr

/-- The state of endpoint k. -/
def epState (d : Dev) (k : Nat) : Nat := epF d k Ep.state
/-- Registered or bound. -/
def epLive (d : Dev) (k : Nat) : Bool := decide (epState d k = 1) || decide (epState d k = 2)

/-- ENDPOINT_REGISTER (R65). The key blocks of the record are those stored at its write. -/
def endpointRegister (r : SetupRec) (d : Dev) : Done :=
  let k := r.subject
  if epState d k ≠ 0 then Done.refuse d suState
  else
    let v := setF (setF (setF r.body.val Ep.state 1) Ep.boundChannel 0xFFFFFFFF) Ep.group 0xFFFF
    let v := setF (setF v Ep.memberIndex 0xFF) Ep.registerSequence r.seq
    Done.ok { d with endpoints := sput d.endpoints k v, fwd := { d.fwd with rtcp := serase d.fwd.rtcp k }, sends := serase d.sends k }

/-- ENDPOINT_REMOVE. -/
def endpointRemove (r : SetupRec) (d : Dev) : Done :=
  if epState d r.subject ≠ 1 then Done.refuse d suState
  else Done.ok { d with endpoints := serase d.endpoints r.subject,
                        setup := { d.setup with prevKeys := serase d.setup.prevKeys r.subject } }

/-- KEY_UPDATE (R66): the previous receive key stays usable for 500 ticks after the record's tick. -/
def keyUpdate (r : SetupRec) (d : Dev) : Done :=
  let k := r.subject
  if epLive d k = false then Done.refuse d suState
  else
    let b := r.body.val
    let key := bitsAt b 64 512
    let old : PrevKey := { tick := r.tick + 500, mkiLength := epF d k Ep.mkiLength, mki := epF d k Ep.mki }
    let d := setEpF (setEpF d k Ep.mkiLength (bitsAt b 8 8)) k Ep.mki (bitsAt b 32 32)
    if bitsAt b 0 8 = 1 then Done.ok (setEpF d k Ep.txKeyBlock key)
    else
      let d := setEpF d k Ep.rxKeyBlockPrevious (epF d k Ep.rxKeyBlock)
      let d := setEpF d k Ep.rxKeyBlock key
      Done.ok { d with setup := { d.setup with prevKeys := sput d.setup.prevKeys k old } }

/-- PREVIOUS_KEY_EXPIRY (R66): once 500 ticks have passed, the previous receive key of endpoint k is gone. -/
def previousKeyExpiry (k : Nat) (d : Dev) : Dev :=
  match sfind d.setup.prevKeys k with
  | none => d
  | some x =>
    if curTick d ≤ x.tick then d
    else setEpF { d with setup := { d.setup with prevKeys := serase d.setup.prevKeys k } } k Ep.rxKeyBlockPrevious 0

/-! ### What channels hold -/

/-- Class A is decided from the channel body's Flags and its endpoint's (R74); the thread's flags and the channel's
queues follow it. -/
def reclass (d : Dev) (c : Nat) : Dev :=
  match chanOf d c with
  | none => d
  | some x =>
    let fl := getF x.body ChBody.flags
    let a := bitSet fl 0 || bitSet (epF d x.endpoint Ep.flags) 0
    let d := setChan d c { x with traceA := a }
    match tcbOf d x.thread with
    | none => d
    | some k => setTcb d x.thread { k with flags := k.flags / 8 % 32 * 8 + 4 + 2 * b2n (bitSet fl 3) + b2n a }

/-- The endpoints by which line port p is bound to channel c's neighbours: those other than `e`, in use by a channel. -/
def boundElsewhere (d : Dev) (p e : Nat) : Bool :=
  let other := fun (k : Nat) => decide (k ≠ e) && decide (k ≠ 0xFFFFFFFF) && decide (epF d k Ep.kind = 2) && decide (epF d k Ep.linePort = p)
  d.chans.any (fun c => other c.2.endpoint || other c.2.output)

/-- Whether endpoint e is a line port that may not be used (R263). -/
def lineRefused (d : Dev) (e : Nat) (sends : Bool) : Bool :=
  if epF d e Ep.kind ≠ 2 then false
  else
    let p := epF d e Ep.linePort
    decide (linesPowered d ≤ p) || !ogetB d Obj.portEnable p 0 || (lineRate d p != 8000 && lineRate d p != 16000)
      || (sends && decide (ogetN d Obj.lineMode p 0 = 2)) || boundElsewhere d p e

/-- The channel bound to line port p: the one that receives from it, else the one that sends to it. -/
def lineChannel (d : Dev) (p : Nat) : Option Nat :=
  let at_ := fun (k : Nat) => decide (k ≠ 0xFFFFFFFF) && decide (epF d k Ep.kind = 2) && decide (epF d k Ep.linePort = p)
  match d.chans.find? (fun c => at_ c.2.endpoint) with
  | some c => some c.1
  | none => (d.chans.find? (fun c => at_ c.2.output)).map Prod.fst

/-- The channel that sends to line port p, with its group (R265). -/
def lineSender (d : Dev) (p : Nat) : Option (Nat × Nat) :=
  (d.chans.find? (fun c => decide (c.2.output ≠ 0xFFFFFFFF) && decide (epF d c.2.output Ep.kind = 2)
    && decide (epF d c.2.output Ep.linePort = p))).map (fun c => (c.1, c.2.group))

/-- The binding of every line port brought up to date. A port whose sender joins a group plays 8 ticks of zeros, and one
whose sender leaves it skips the 8 slots still held (R265). -/
def bindLines (d : Dev) : Dev :=
  let upd := fun (d : Dev) (p : Nat) =>
    let x := sget d.line.ports p LinePort.reset
    let b := lineChannel d p
    let delay := match lineSender d p with
      | some (_, g) => if g = 0xFFFF then 8 else 16
      | none => 8
    if x.bound = b ∧ x.delay = delay then d
    else
      let mute := if x.delay < delay then 8 else 0
      let sent := if delay < x.delay then x.sent.filter (fun s => decide (curTick d ≤ s.1 + delay)) else x.sent
      let x' := { x with bound := b, delay := delay, sent := if b.isNone then [] else sent, mute := mute }
      { d with line := { d.line with ports := sput d.line.ports p x' } }
  if (d.chans.any (fun c => decide (epF d c.2.endpoint Ep.kind = 2) || (decide (c.2.output ≠ 0xFFFFFFFF) && decide (epF d c.2.output Ep.kind = 2))))
      || d.line.ports.any (fun p => p.2.bound.isSome) then (List.range 64).foldl upd d
  else d

/-- The counters of a channel restart from zero (R89). -/
def clearChannelCounters (d : Dev) (c : Nat) : Dev :=
  [Obj.tickCounters, Obj.frameCounters, Obj.packetCounters, Obj.depthIncreases, Obj.depthDecreases, Obj.swapRequests,
   Obj.swapsApplied, Obj.swapsSuperseded, Obj.swapsDiscarded, Obj.answerToneBypasses, Obj.toneEvents, Obj.talkerTicks,
   Obj.mixTicks, Obj.bankSlotCounters, Obj.bankPushesRefused, Obj.bankSlotsLate,
   Obj.evidenceSlotsPushed, Obj.evidenceSlotsRefused, Obj.speechBankSwaps].foldl
    (fun d r => (List.range r.subs).foldl (fun d j => if (ofind d r c j).isSome then oset d r c j 0 else d) d) d

/-- Milliseconds rounded up to whole frames (Table 4.4). -/
def wholeFrames (ms ft : Nat) : Nat := ceilDiv ms (ft * 5 / 2) * (ft * 5 / 2)

/-- Depth limit of a channel's jitter queue: twice the cells of JitterMax of frames (Table 9.2). -/
def jitterCells (d : Dev) (x : Channel) : Nat :=
  let codec := epF d x.endpoint Ep.rxCodec
  let cells := ceilDiv (32 + largestPayload x.rate16 codec x.frameTicks) 128
  2 * (x.jmax / (x.frameTicks * 5 / 2)) * cells

/-- The body of a GROUP event (Table 11.4). -/
def groupEventBody (g member op : Nat) : Bytes := bytesOf 8 (g + member * 2 ^ 16 + op * 2 ^ 24)

/-- An event of channel c in its evidence stream, where it is recorded. -/
def channelEvent (d : Dev) (c tick kind seq : Nat) (body : Bytes) : Dev :=
  match chanOf d c with
  | some x => if x.recorded then offerEvent d (getF x.body ChBody.evidenceStream) tick kind seq 0 body else d
  | none => d

/-- Channel c joins group g as member m at tick t: the group's context, the two contexts' fields, and the event. -/
def enterGroup (d : Dev) (c g m t seq : Nat) : Dev :=
  match chanOf d c with
  | none => d
  | some x =>
    let d := setChan d c { x with group := g, member := m, output := x.endpoint, joinTick := t }
    let d := setEpF (setEpF d x.endpoint Ep.group g) x.endpoint Ep.memberIndex m
    let d := { d with groups := smodify d.groups g [] (fun l => sput l m c) }
    channelEvent (oaJoin d g m c t) c t 5 seq (groupEventBody g m 1)

/-- Channel c leaves its group at tick t. -/
def exitGroup (d : Dev) (c t seq : Nat) (event : Bool) : Dev :=
  match chanOf d c with
  | none => d
  | some x =>
    if x.group = 0xFFFF then d
    else
      let d := if event then channelEvent d c t 5 seq (groupEventBody x.group x.member 2) else d
      let was : Left := ⟨x.group, x.member, x.joinTick, t⟩
      let d := setChan d c { x with group := 0xFFFF, member := 0xFF, output := 0xFFFFFFFF, left := (was :: x.left).take 8 }
      let d := setEpF (setEpF d x.endpoint Ep.group 0xFFFF) x.endpoint Ep.memberIndex 0xFF
      let left := serase (sget d.groups x.group []) x.member
      let d := { d with groups := if left.isEmpty then serase d.groups x.group else sput d.groups x.group left }
      oaLeave d x.group c t

/-- Whether group g can take a member m (R69). -/
def groupTakes (d : Dev) (g m : Nat) : Bool := decide (m ≤ 255) && !shas (sget d.groups g []) m

/-- A new channel as CHANNEL_OPEN makes it at tick t, with the seed of its comfort noise. -/
def freshChannel (d : Dev) (e out engine thread phase : Nat) (plan : Plan) (body t seed : Nat) (recorded : Bool) : Channel :=
  let ft := epF d e Ep.frameTicks
  let depth := wholeFrames (getF body ChBody.jitterInitial) ft
  let wide := wideCodec d e (epF d e Ep.rxCodec)
  let p := getF body ChBody.treatmentProfile
  { state := 1, endpoint := e, output := out, group := 0xFFFF, member := 0xFF, engine := engine, thread := thread,
    phase := phase, frameTicks := ft, cost := plan.cost, cipher := plan.cipher, traceA := false, recorded := recorded,
    body := body, tag := unitTag d (48 + engine / 16), openTick := t, joinTick := t, rate16 := wide, rateWas := wide, rateTick := t, depth := depth,
    target := depth, jmin := wholeFrames (getF body ChBody.jitterMin) ft, jmax := wholeFrames (getF body ChBody.jitterMax) ft,
    anchor := none, firstFa := none, played := [], playedAt := [], early := 0, delays := [], insert := false, below := none,
    dtx := false, conceal := 0, slot := none, todo := [], events := 0, tones := [], left := [],
    canceller := Canceller.fresh (ogetN d (if wide then Obj.tailWideband else Obj.tailNarrowband) p 0), treat := Treat.fresh wide seed (40 * t),
    isolatedAt := none, misses := 0, banks := openBanks t phase }

/-- The playout of a line port's channel at open: a fixed depth of Lr ticks, and its first frame tick the first at or
after N + Lr (R264). Lr ticks are no whole number of milliseconds; which one JitterDepth reads is a free value. -/
def openLine (d : Dev) (c t : Nat) : Dev :=
  match chanOf d c with
  | none => d
  | some x =>
    if epF d x.endpoint Ep.kind ≠ 2 then d
    else
      let lr := x.frameTicks + 1
      let (v, d) := freshNat d
      let depth := lr * 5 / 2 + v % 2
      setChan d c { x with depth := depth, target := depth, firstFa := some (frameTickFrom x ((t + lr : Nat) : Int)) }

/-- The body of an OPEN event (Table 11.4). The TxCodec of a receive-only channel is a free value. -/
def openEventBody (d : Dev) (c : Nat) (x : Channel) : Dev × Bytes :=
  let (v, d) := freshNat d
  let tx := match sendsTo x with
    | some o => epF d o Ep.txCodec
    | none => v
  (d, joinBytes [bytesOf 4 c, bytesOf 4 x.endpoint, bytesOf 4 x.output, bytesOf 1 (epF d x.endpoint Ep.rxCodec), bytesOf 1 tx,
    bytesOf 1 x.frameTicks, bytesOf 1 (getF x.body ChBody.treatmentProfile), bytesOf 2 x.group, bytesOf 1 x.member,
    bytesOf 1 (getF x.body ChBody.flags), bytesOf 4 x.tag, bytesOf 8 0])

/-- The thread record of a channel (R168, R177): class tick, its home engine alone. -/
def channelThread (body engine cost : Nat) : StokerRec :=
  { cost := cost, entryPc := 0, lmWindow := 0, mask := 2 ^ (engine % 16), flags := 4, prio := getF body ChBody.priority,
    target := engine, relDl := 0, waitMask := 3, thread := 0xFFFFFFFF, reserved := false }

/-! ### CHANNEL_OPEN -/

/-- Everything that an admitted channel is given at tick r.tick. -/
def openChannel (d : Dev) (r : SetupRec) (e out engine thread phase : Nat) (plan : Plan) (recorded : Bool) : Dev :=
  let c := r.subject
  let body := r.body.val
  let t := r.tick
  let d := clearShown (clearChannelCounters d c) c
  let x := freshChannel d e out engine thread phase plan body t (Nat.xor c (t % 2 ^ 32)) recorded
  let d := setTcb (setChan d c x) thread (newTcb (channelThread body engine plan.cost) c)
  let d := noteDeficit (reclass d c) engine
  let d := setEpF (setEpF d e Ep.state 2) e Ep.boundChannel c
  let d := oset d Obj.queueDepthLimit c 0 (jitterCells d x)
  let d := [c, 65536 + c, 131072 + c].foldl (fun d q => oset d Obj.queueGrantMask q 0 (2 ^ (engine / 16) : Nat)) d
  let d := openLine d c t
  let s := getF body ChBody.evidenceStream
  let d := if recorded then openStream d s 1 c (slotSamples x) t else d
  let g := getF body ChBody.group
  let m := getF body ChBody.memberIndex
  let joined := decide (g ≠ 0xFFFF)
  let (d, ev) := openEventBody d c { x with group := g, member := if joined then m else 0xFF }
  let d := channelEvent d c t 3 0 ev
  bindLines (if joined then enterGroup d c g m t r.seq else d)

/-- CHANNEL_OPEN (R78): CAP, STATE, CIPHER, GROUP, then engine and phase. -/
def channelOpen (a : Admit) (r : SetupRec) (d : Dev) : Done :=
  let c := r.subject
  let body := fillJitter d r.body.val
  let r := { r with body := { r.body with val := body } }
  let e := getF body ChBody.endpoint
  let g := getF body ChBody.group
  let grouped := decide (g ≠ 0xFFFF)
  let out := if grouped then e else getF body ChBody.outputEndpoint
  let sends := decide (out ≠ 0xFFFFFFFF)
  let dest := if sends then some out else none
  let recorded := bitSet (getF body ChBody.flags) 1 || bitSet (epF d e Ep.flags) 3
  let plan : Plan := ⟨c, channelCost d e dest (getF body ChBody.treatmentProfile), cipherLoad d e dest⟩
  let checked := decide (a = .check)
  if checked && decide (65536 ≤ d.chans.length) then Done.refuse d suCap
  else if (chanOf d c).isSome || decide (epState d e ≠ 1) || (sends && decide (out ≠ e) && !epLive d out)
      || lineRefused d e (decide (out = e)) || (sends && decide (out ≠ e) && lineRefused d out true)
      || (recorded && !streamFree d (getF body ChBody.evidenceStream)) then Done.refuse d suState
  else if checked && decide (100000000000 < cipherCommitted d + plan.cipher) then Done.refuse d suCipher
  else if grouped && !groupTakes d g (getF body ChBody.memberIndex) then Done.refuse d suGroup
  else
    let place : Nat ⊕ Nat := match a with
      | .given engine _ => .inl engine
      | .check => chooseEngine d plan.cost (getF body ChBody.hearthHint)
    match place, lowestFree d with
    | .inr st, _ => Done.refuse d st
    | .inl _, none => Done.refuse d suThreads
    | .inl engine, some thread =>
      let phase := match a with
        | .given _ p => p
        | .check => choosePhase d engine (epF d e Ep.frameTicks)
      ⟨openChannel d r e out engine thread phase plan recorded, 0, engine⟩

/-! ### CHANNEL_CLOSE -/

/-- FC2 faults that name channel c and stand are cleared with it (Table 15.2). -/
def clearChannelFaults (d : Dev) (c : Nat) : Dev :=
  let left := d.faults.standing.filter (fun p => itemOf p.1 p.2.1 p.2.2 != .channel c)
  { d with faults := { d.faults with standing := left } }

/-- The twin logic forgets channel c: a copy that was suppressed here is so until the channel closes (R217). -/
def forgetTwin (d : Dev) (c : Nat) : Dev :=
  { d with twin := { d.twin with suppress := d.twin.suppress.filter (· ≠ c), states := serase d.twin.states c,
                                 awaiting := serase d.twin.awaiting c } }

/-- What a channel gives back besides its evidence: thread, units, endpoint, group, queues, bindings (R68). -/
def releaseChannel (d : Dev) (c t seq : Nat) (event : Bool) : Dev :=
  match chanOf d c with
  | none => d
  | some x =>
    let d := exitGroup d c t seq event
    let d := freeThread d x.thread
    let e := x.endpoint
    let d := setEpF (setEpF d e Ep.state 1) e Ep.boundChannel 0xFFFFFFFF
    let d := settling (65536 + c) (fun d => flushQueue d (65536 + c)) (flushQueue d c)
    let d := [c, 65536 + c, 131072 + c].foldl (fun d q => oset d Obj.queueGrantMask q 0 0) d
    let d := clearChannelFaults (oset d Obj.queueDepthLimit c 0 0) c
    bindLines (forgetTwin { d with chans := serase d.chans c } c)

/-- Channel c ends at tick t: the last seals come before the final block (R205). -/
def shutChannel (d : Dev) (c t seq : Nat) : Dev :=
  match chanOf d c with
  | none => d
  | some x =>
    let s := getF x.body ChBody.evidenceStream
    let d := finalSeal (flushPackets (dropSwap (truncateTones d c t) c) c) c t
    let d := exitGroup d c t seq false
    let d := if x.recorded then closeAll (endStream (offerEvent d s t 10 0 0 (bytesOf 8 t)) s t) s else d
    releaseChannel d c t seq false

/-- CHANNEL_CLOSE (R68, R205). -/
def channelClose (r : SetupRec) (d : Dev) : Done :=
  match chanOf d r.subject with
  | none => Done.refuse d suState
  | some _ => Done.ok (shutChannel d r.subject r.tick r.seq)

/-! ### CHANNEL_MODIFY, GROUP_JOIN, GROUP_LEAVE, ENDPOINT_UPDATE -/

/-- A rise is checked here, unless the admission leader has decided it. -/
def riseOf (a : Admit) (d : Dev) (l : List Plan) : Nat := if a = .check then riseStatus d l else 0

/-- CHANNEL_MODIFY (Table 4.4, R67, R77, R91). The channel keeps the EvidenceStream and Record of its open (R74). Another tail is taken
up by its first frame under the new profile (`chainStart`). -/
def channelModify (a : Admit) (r : SetupRec) (d : Dev) : Done :=
  let c := r.subject
  match chanOf d c with
  | none => Done.refuse d suState
  | some x =>
    let body := fillJitter d r.body.val
    let out := if x.group = 0xFFFF then getF body ChBody.outputEndpoint else x.endpoint
    let sends := decide (out ≠ 0xFFFFFFFF)
    let profile := getF body ChBody.treatmentProfile
    if decide (x.state ≠ 1) || decide (getF body ChBody.endpoint ≠ x.endpoint) || decide (getF body ChBody.group ≠ x.group)
        || (sends && decide (out ≠ x.endpoint) && !epLive d out) || (sends && lineRefused d out true) then Done.refuse d suState
    else
      let plan := planOf d c x (if sends then some out else none) profile
      match riseOf a d [plan] with
      | 0 =>
        let kept := setF body ChBody.evidenceStream (getF x.body ChBody.evidenceStream)
        let jmin := wholeFrames (getF body ChBody.jitterMin) x.frameTicks
        let jmax := wholeFrames (getF body ChBody.jitterMax) x.frameTicks
        let x' := { x with output := out, body := kept, jmin := jmin, jmax := jmax }
        let d := applyPlan (setChan d c x') plan
        let d := oset d Obj.queueDepthLimit c 0 (jitterCells d x')
        let d := match tcbOf d x.thread with
          | some k => setTcb d x.thread { k with prio := getF body ChBody.priority }
          | none => d
        Done.ok (bindLines (reclass d c))
      | st => Done.refuse d st

/-- GROUP_JOIN (R69, R77). -/
def groupJoin (a : Admit) (r : SetupRec) (d : Dev) : Done :=
  let c := r.subject
  let g := bitsAt r.body.val 0 16
  let m := bitsAt r.body.val 16 8
  match chanOf d c with
  | none => Done.refuse d suState
  | some x =>
    if decide (x.state ≠ 1) || decide (x.group ≠ 0xFFFF) || lineRefused d x.endpoint true then Done.refuse d suState
    else if !groupTakes d g m then Done.refuse d suGroup
    else
      let plan := planOf d c x (some x.endpoint) (profileOf x)
      match riseOf a d [plan] with
      | 0 => Done.ok (bindLines (enterGroup (applyPlan d plan) c g m r.tick r.seq))
      | st => Done.refuse d st

/-- GROUP_LEAVE (R67): the channel becomes receive-only. -/
def groupLeave (r : SetupRec) (d : Dev) : Done :=
  let c := r.subject
  match chanOf d c with
  | none => Done.refuse d suState
  | some x =>
    if x.group = 0xFFFF then Done.refuse d suState
    else
      let d := exitGroup (truncateTones d c r.tick) c r.tick r.seq true
      Done.ok (bindLines (applyPlan d (planOf d c x none (profileOf x))))

/-- The fields of a context that an ENDPOINT_UPDATE keeps: all but the body's, and of the body the SSRCs, key blocks,
TxSequence and TxTimestamp (Table 4.3). -/
def updatedContext (old body : Nat) : Nat :=
  [Ep.txSequence, Ep.rxHighestSeq, Ep.txTimestamp, Ep.rxSsrc, Ep.txSsrc, Ep.rxKeyBlock, Ep.txKeyBlock, Ep.state].foldl
    (fun v f => setF v f (getF old f)) (body % 2 ^ 2112 + old / 2 ^ 2112 * 2 ^ 2112)

/-- The treatment rate of a channel after its endpoint's RxCodec has changed at tick t (R67). -/
def rateFrom (wide : Bool) (t : Nat) (x : Channel) : Channel :=
  if wide = x.rate16 then x else { x with rate16 := wide, rateWas := x.rate16, rateTick := t }

/-- ENDPOINT_UPDATE (R67, R74, R77): every channel that receives from the endpoint or sends to it is costed again. -/
def endpointUpdate (a : Admit) (r : SetupRec) (d : Dev) : Done :=
  let k := r.subject
  if epLive d k = false then Done.refuse d suState
  else
    let d1 := { d with endpoints := sput d.endpoints k (updatedContext (epOf d k) r.body.val) }
    let touched := d.chans.filter (fun c => decide (c.2.endpoint = k) || decide (c.2.output = k))
    let plans := touched.map (fun c => planOf d1 c.1 c.2 (sendsTo c.2) (profileOf c.2))
    match riseOf a d1 plans with
    | 0 =>
      let d2 := plans.foldl applyPlan d1
      Done.ok (bindLines (touched.foldl (fun d c =>
        if c.2.endpoint = k then onChan (reclass d c.1) c.1 (rateFrom (wideCodec d k (epF d k Ep.rxCodec)) r.tick) else d) d2))
    | st => Done.refuse d st

/-! ### Records at their tick -/

/-- What a record does, by its kind (Table 4.3). -/
def applyKind (a : Admit) (r : SetupRec) (d : Dev) : Done :=
  match r.kind with
  | 1 => endpointRegister r d
  | 2 => endpointRemove r d
  | 3 => channelOpen a r d
  | 4 => channelClose r d
  | 5 => channelModify a r d
  | 6 => groupJoin a r d
  | 7 => groupLeave r d
  | 8 => keyUpdate r d
  | _ => endpointUpdate a r d

/-- The element of AdmissionRefused (0x2603:01) that a status counts in. -/
def admissionElement : Nat → Option Nat
  | 8 => some 0
  | 9 => some 1
  | 10 => some 2
  | 11 => some 3
  | 12 => some 4
  | _ => none

/-- The result of a record at its tick, with the counters (R75). -/
def finishRec (r : SetupRec) (x : Done) : Dev :=
  let d := x.dev
  if x.status = 0 then putResult (bump d Obj.setupApplied 0 0) r 0 x.engine r.tick
  else
    let d := match admissionElement x.status with
      | some j => bump d Obj.admissionRefused 0 j
      | none => d
    putResult (bump d Obj.setupRefusedAtTick 0 0) r x.status 0xFF r.tick

/-- A record handed to the device as an accepted one that names the tick in progress. -/
def recordNow (kind : Nat) (f : SetupRec → Dev → Done) (r : SetupRec) (d : Dev) : Dev :=
  let r := rewrapped d { r with kind := kind, tick := curTick d }
  finishRec r (f r (bump d Obj.setupAccepted 0 0))

/-- Record commands of Table 4.3. -/
def recordEndpointRegister (r : SetupRec) (d : Dev) : Dev := recordNow 1 endpointRegister r d
def recordEndpointRemove (r : SetupRec) (d : Dev) : Dev := recordNow 2 endpointRemove r d
def recordChannelOpen (r : SetupRec) (d : Dev) : Dev := recordNow 3 (channelOpen .check) r d
def recordChannelClose (r : SetupRec) (d : Dev) : Dev := recordNow 4 channelClose r d
def recordChannelModify (r : SetupRec) (d : Dev) : Dev := recordNow 5 (channelModify .check) r d
def recordGroupJoin (r : SetupRec) (d : Dev) : Dev := recordNow 6 (groupJoin .check) r d
def recordGroupLeave (r : SetupRec) (d : Dev) : Dev := recordNow 7 groupLeave r d
def recordKeyUpdate (r : SetupRec) (d : Dev) : Dev := recordNow 8 keyUpdate r d
def recordEndpointUpdate (r : SetupRec) (d : Dev) : Dev := recordNow 9 (endpointUpdate .check) r d

/-- The records that name tick t, in sequence order; they leave the pending ones. -/
def takeRecords (d : Dev) (t : Nat) : List SetupRec × Dev :=
  (d.setup.pending.filter (fun r => decide (r.tick ≤ t)),
   { d with setup := { d.setup with pending := d.setup.pending.filter (fun r => decide (t < r.tick)) } })

end Sys2Proof.Machine
end

