-- ==== Sys2Proof/Machine/Twin.lean ====
section
/-! DEFINITION. Twin operation: ledgers and fetches (R211 to R214), admission across the pair (R215), digests and divergence
(R216, R217), the loss of the partner (R218), the join (R219) and the configuration digest (R220). -/
namespace Sys2Proof.Machine

/-- The device's role: 1 twin A, 2 twin B. -/
def roleOf (d : Dev) : Nat := d.start.straps.twin % 4
/-- The twin logic changed. -/
def onTwin (d : Dev) (f : Twin → Twin) : Dev := { d with twin := f d.twin }
/-- Element j of TwinCounters (0x2801), counted. -/
def twinCount (d : Dev) (j n : Nat) : Dev := bumpBy d Obj.twinCounters 0 j n

/-- Whether this device is the admission leader (R208). -/
def isLeader (d : Dev) : Bool :=
  (decide (d.twin.state = 4) && decide (roleOf d = 1)) || decide (d.twin.state = 3) || decide (d.twin.state = 1)
/-- AdmissionLeader (0x2800:03): 0 solo, 1 twin A, 2 twin B; while JOINING the partner leads. -/
def leaderRole (d : Dev) : Nat :=
  if !twinned d then 0
  else if d.twin.state = 4 then 1
  else if d.twin.state = 2 ∨ d.twin.state = 5 then 3 - roleOf d
  else roleOf d

/-- The ports of the twin link. -/
def twinPorts (d : Dev) : List Nat := [ogetN d Obj.twinLinkPort0 0 0, ogetN d Obj.twinLinkPort1 0 0].filter (· < 32)
/-- Whether the twin link is up: a key, and a named port whose link is up. -/
def twinLinkUp (d : Dev) : Bool := decide (d.twin.key ≠ 0) && (twinPorts d).any (fun p => (portOf d p).linkUp)
/-- The ports of the twin link whose link is up. -/
def twinLinks (d : Dev) : List Nat := (twinPorts d).filter (fun p => (portOf d p).linkUp)
/-- A ledger frame goes out on every named port; on the wire it is protected under TwinLinkKey (R209). -/
def sendLedger (d : Dev) (data : Bytes) : Dev := (twinLinks d).foldl (fun d p => emit d (.mac p 0x88B5 data)) d
/-- A frame of a fetch or of a join goes out on either port: the first one that is up. -/
def sendTwin (d : Dev) (data : Bytes) : Dev := ((twinLinks d).take 1).foldl (fun d p => emit d (.mac p 0x88B5 data)) d

/-! ### The configuration digest (R220) -/

/-- The row, instance and element that an object key stands for. -/
def rowOfKey (key : Nat) : Option (Row × Nat × Nat) :=
  let sub := key % 256
  let idx := key / 256 % 65536
  (objRows.find? (fun r => decide (r.idx = idx) && decide (r.sub ≤ sub) && decide (sub < r.sub + r.subs))).map
    (fun r => (r, key / 2 ^ 24, sub - r.sub))

/-- Whether an object key belongs to the digest: an rws object of 0x2500 to 0x27FF or 0x2900 to 0x29FF. -/
def inDigest (key : Nat) : Bool :=
  let idx := key / 256 % 65536
  ((decide (0x2500 ≤ idx) && decide (idx ≤ 0x27FF)) || (decide (0x2900 ≤ idx) && decide (idx ≤ 0x29FF)))
    && (rowOfKey key).any (fun r => decide (r.1.acc = .rws))

/-- The indexes whose rws objects the digest covers, ascending: 0x2500 to 0x27FF and 0x2900 to 0x29FF. -/
def digestIndexes : List Nat := (List.range 0x300).map (· + 0x2500) ++ (List.range 0x100).map (· + 0x2900)

/-- The digest's bytes of one rws object at an index and subindex under the values `obj`: index, subindex and value of every
item, in item order. -/
def digestObject (d : Dev) (obj : SMap Int) (idx sub : Nat) (r : Row) : List Bytes :=
  let one := fun (i : Nat) =>
    let j := sub - r.sub
    let v := (sfind obj (r.key i j)).getD (dfltOf d r i j)
    joinBytes [bytesOf 2 idx, bytesOf 1 sub, ⟨r.ty.size, r.ty.encode v⟩]
  if r.step = 0 then (List.range r.inst).map one else [one ((idx - r.idx) / r.step)]

/-- The index, subindex and value of every rws object of the digest under the values `obj`, in ascending index, subindex and item. -/
def digestBytes (d : Dev) (obj : SMap Int) : List Bytes :=
  digestIndexes.flatMap (fun idx =>
    let rows := objRows.filter (fun r => decide (r.acc = .rws) && digestCovers r idx)
    (List.range 256).flatMap (fun sub =>
      ((rows.find? (fun r => decide (r.sub ≤ sub) && decide (sub < r.sub + r.subs))).map (digestObject d obj idx sub)).getD []))
where
  digestCovers (r : Row) (idx : Nat) : Bool :=
    if r.step = 0 then decide (r.idx = idx)
    else decide (r.idx ≤ idx) && decide ((idx - r.idx) % r.step = 0) && decide ((idx - r.idx) / r.step < r.inst)

/-- The digest of an epoch number and of the values in force under it: a CRC-32C (Table 12.1 code 0, no tag). -/
def digestOf (d : Dev) (epoch : Nat) (obj : SMap Int) : Nat := crcOf 0 (joinBytes (bytesOf 4 epoch :: digestBytes d obj))

/-- ConfigDigest for tick n: of the values in force then. -/
def configDigest (d : Dev) (n : Nat) : Nat :=
  match d.dict.commit with
  | some c => if c.tick ≤ n then digestOf d c.epoch (sover d.dict.obj c.values) else digestOf d d.dict.epoch d.dict.obj
  | none => digestOf d d.dict.epoch d.dict.obj

/-! ### Ledgers (R211, Tables 10.4 to 10.7) -/

/-- A ledger entry as its bytes. -/
def LedgerEntry.record (e : LedgerEntry) : Bytes :=
  let v := setF (setF (setF 0 LedgerRec.seconds (secondsOf e.stamp.t)) LedgerRec.nanoseconds (nanosOf e.stamp.t)) LedgerRec.fraction (e.stamp.t % 65536)
  let v := setF (setF (setF v LedgerRec.rtpSequence e.seq) LedgerRec.rtpTimestamp e.ts) LedgerRec.channel e.channel
  let v := setF (setF (setF v LedgerRec.generation e.stamp.gen) LedgerRec.payloadDigest e.digest) LedgerRec.payloadLength e.octets
  bytesOf 32 (setF v LedgerRec.marker (b2n e.marker))
/-- A decision record as its bytes. -/
def Decision.record (x : Decision) : Bytes :=
  let v := setF (setF (setF 0 DecisionRec.recordSequence x.seq) DecisionRec.subject x.subject) DecisionRec.status x.status
  bytesOf 16 (setF (setF (setF v DecisionRec.engine x.engine) DecisionRec.framePhase x.phase) DecisionRec.cost x.cost)
/-- A digest record as its bytes. -/
def Digest.record (x : Digest) : Bytes :=
  let v := setF (setF (setF 0 DigestRec.frameTick x.tick) DigestRec.outputDigest x.output) DigestRec.ledgerDigest x.ledger
  bytesOf 24 (setF (setF v DigestRec.localCause x.cause) DigestRec.channel x.channel)

/-- Records laid out in frames, in order: what the frame in hand holds, and the frames before it. -/
def packFrames (room : Nat) : List Bytes → List Bytes → List (List Bytes) → List (List Bytes)
  | [], cur, done => done ++ [cur]
  | r :: l, cur, done =>
    if room < sumNat ((cur ++ [r]).map Bytes.len) ∧ cur ≠ [] then packFrames room l [r] (done ++ [cur])
    else packFrames room l (cur ++ [r]) done

/-- The frames of a ledger (Table 10.4). -/
def ledgerFrames (l : Ledger) : List Bytes :=
  let recs := l.entries.map LedgerEntry.record ++ l.decisions.map Decision.record ++ l.digests.map Digest.record
  let frames := packFrames Config.ledgerRoom recs [] []
  frames.mapIdx (fun i f =>
    let count := fun (n : Nat) => (f.filter (fun b => decide (b.len = n))).length
    let h := setF (setF (setF 0 LedgerHdr.intervalTick l.tick) LedgerHdr.deadlineSeconds (secondsOf l.stamp.t)) LedgerHdr.deadlineNanoseconds (nanosOf l.stamp.t)
    let h := setF (setF (setF (setF h LedgerHdr.generation l.stamp.gen) LedgerHdr.entryCount (count 32)) LedgerHdr.decisionCount (count 16))
      LedgerHdr.digestCount (count 24)
    let h := setF (setF (setF h LedgerHdr.frameIndex i) LedgerHdr.lastFrame (b2n (decide (i + 1 = frames.length)))) LedgerHdr.sender l.sender
    joinBytes (bytesOf 32 (setF h LedgerHdr.configDigest l.config) :: f))

/-- The twin deadline of the next tick, on network time (R211). -/
def twinDeadline (d : Dev) : NetStamp := ⟨d.time.gen, d.time.net + toTick d - (ns 5000 + ns 1000000)⟩
/-- The twin deadline of a tick that starts now. -/
def deadlineBefore (d : Dev) : NetStamp := ⟨d.time.gen, d.time.net - (ns 5000 + ns 1000000)⟩

/-- The interval of tick n closes and, with a partner, its ledger is sent; `dl` is the twin deadline of n. -/
def closeInterval (n : Nat) (dl : NetStamp) (d : Dev) : Dev :=
  if d.twin.closed = some n then d
  else
    let w := d.twin
    let mine := w.entries.filter (fun e => e.stamp.le dl)
    let later := w.entries.filter (fun e => !e.stamp.le dl)
    let l : Ledger := { tick := n, stamp := dl, entries := mine, decisions := w.decisions, digests := w.digests, sender := roleOf d,
                        config := configDigest d n, last := true }
    let d := onTwin d (fun w => { w with closed := some n, entries := later, own := ((n, dl, mine) :: w.own).take 16, digests := [], decisions := [] })
    if !unionOn d then d
    else
      let f := ledgerFrames l
      let d := f.foldl sendLedger d
      twinCount (twinCount d 0 (f.length * (twinLinks d).length)) 10 w.decisions.length

/-- LEDGER_CLOSE: at the twin deadline of the next tick the interval closes. -/
def ledgerClose (d : Dev) : Dev :=
  if !twinned d || !d.time.ticking then d
  else
    let lead := ns 5000 + ns 1000000
    let d := if lead < toTick d then passTime d (toTick d - lead) else d
    closeInterval (curTick d + 1) (twinDeadline d) d

/-! ### Loss, withdrawal -/

/-- The partner is lost: the survivor is ALONE (R218). -/
def losePartner (d : Dev) : Dev :=
  if !unionOn d then d
  else
    let d := twinCount (twinCount d 5 d.twin.fetches.length) 15 d.twin.sentDigests.length
    let st := d.twin.states.filter (fun p => decide (p.2 = 3))
    let d := onTwin d (fun w => { w with state := 1, partner := [], missing := 0, skew := 0, config := 0, fetches := [], heldDigests := [],
                                         sentDigests := [], digests := [], states := st, joinStep := 0, joinTick := none, joined := [], awaiting := [], expect := 0, decided := [] })
    report (twinCount d 21 1) 0 0x0801 0 0

/-- PARTNER_LOST: the partner's ledgers have been missing for PartnerLossIntervals, or the partner withdraws, which may be at any
time (R218; log entry 84). -/
def partnerLost (d : Dev) : Dev := losePartner d

/-- The twin withdraws: every output is suppressed, and it waits to join again (Table 10.1). -/
def withdraw (d : Dev) : Dev :=
  let d := twinCount d 5 d.twin.fetches.length
  onTwin d (fun w => { w with state := 5, partner := [], missing := 0, skew := 0, config := 0, fetches := [], heldDigests := [], states := [],
                              joinStep := 0, joinTick := none, joined := [], awaiting := [], expect := 0, decided := [] })

/-- A withdrawal that Table 10.9 asks for: class FC3 on the twin block. -/
def forceWithdraw (d : Dev) : Dev :=
  if twinned d && decide (d.twin.state ≠ 5) then withdraw (raiseFc3 d 0x0820 0 0).1 else d

/-- TWIN_WITHDRAW: TwinCommand 1. -/
def twinWithdraw (d : Dev) : Dev :=
  if twinned d && decide (d.twin.state ≠ 5) then withdraw (accept d) else refuse d abortState

/-! ### Divergence (R217, Table 10.9) -/

/-- TwinChannelState of channel c. -/
def setTwinState (d : Dev) (c st : Nat) : Dev := onTwin d (fun w => { w with states := sput w.states c st })

/-- Channel c is single-sourced from the partner; too many of them within 10 s withdraw the twin. -/
def suppressHere (d : Dev) (c : Nat) : Dev :=
  let recent := d.twin.single.filter (fun s => decide (now d < s.2 + secs 10))
  let single := (c, now d) :: recent.filter (fun s => decide (s.1 ≠ c))
  let d := onTwin d (fun w => { w with single := single, suppress := c :: w.suppress.filter (· ≠ c) })
  let d := twinCount (setTwinState d c 3) 17 1
  if ogetN d Obj.divergenceLimit 0 0 < single.length then forceWithdraw d else d

/-- The DIVERGENCE event of channel c (Table 11.4). -/
def divergenceEvent (d : Dev) (c tick cause state local_ : Nat) : Dev :=
  channelEvent d c tick 8 0 (joinBytes [bytesOf 8 tick, bytesOf 1 cause, bytesOf 1 state, bytesOf 1 local_, bytesOf 5 0])

/-- Channel c diverges at frame tick t: `mine` and `theirs` are the LocalCauses. -/
def diverge (d : Dev) (c t cause mine theirs : Nat) : Dev :=
  let healthy := if mine = 0 ∧ theirs ≠ 0 then true else if mine ≠ 0 ∧ theirs = 0 then false else isLeader d
  let d := oset (oset (twinCount d 16 1) Obj.divergenceTick c 0 t) Obj.divergenceCause c 0 cause
  if healthy then divergenceEvent (setTwinState d c 4) c t cause 4 mine
  else
    let d := divergenceEvent d c t cause 3 mine
    suppressHere (isolateChannel (report d 2 0x0810 c 0) c) c

/-- A joined channel whose output has matched sends from now on; one that has not within 64 frames is single-sourced
(Table 10.8). -/
def joinCompare (d : Dev) (c : Nat) (same : Bool) (t : Nat) : Dev :=
  match sfind d.twin.awaiting c with
  | none => d
  | some k =>
    if same then setTwinState (onTwin d (fun w => { w with awaiting := serase w.awaiting c })) c 1
    else if 63 ≤ k then
      let d := onTwin d (fun w => { w with awaiting := serase w.awaiting c })
      let d := oset (oset (twinCount d 20 1) Obj.divergenceTick c 0 t) Obj.divergenceCause c 0 5
      suppressHere d c
    else onTwin d (fun w => { w with awaiting := sput w.awaiting c (k + 1) })

/-- On the FEEDING twin a channel has joined once a frame of it matches, or is sourced here alone after 64 frames. -/
def feedCompare (d : Dev) (c : Nat) (same : Bool) : Dev :=
  let k := sget d.twin.awaiting c 0
  if d.twin.joined.contains c then d
  else if same ∨ 63 ≤ k then
    setTwinState (onTwin d (fun w => { w with joined := c :: w.joined, awaiting := serase w.awaiting c })) c (if same then 1 else 4)
  else onTwin d (fun w => { w with awaiting := sput w.awaiting c (k + 1) })

/-- One digest record of the partner against the own one (R216). -/
def compareDigest (d : Dev) (mine theirs : Digest) : Dev :=
  let d := onTwin (twinCount d 14 1) (fun w => { w with sentDigests := w.sentDigests.filter (fun g => decide (g ≠ mine)) })
  let c := mine.channel
  let same := decide (mine.output = theirs.output)
  if d.twin.state = 3 ∧ !d.twin.joined.contains c then feedCompare d c same
  else if shas d.twin.awaiting c then joinCompare d c same mine.tick
  else
    let st := sget d.twin.states c 0
    if mine.ledger = theirs.ledger ∧ same then
      (if st = 0 then setTwinState d c 1 else d)
    else if (d.twin.state = 2 ∧ !d.twin.joined.contains c) ∨ st = 3 ∨ st = 4 then d
    else diverge d c mine.tick (if mine.ledger = theirs.ledger then 2 else 1) mine.cause theirs.cause

/-- Partner's records whose own ones are there are compared; the others wait. -/
def compareAll (d : Dev) : Dev :=
  let l := d.twin.heldDigests
  let d := onTwin d (fun w => { w with heldDigests := [] })
  l.foldl (fun d g =>
    match d.twin.sentDigests.find? (fun m => decide (m.tick = g.tick) && decide (m.channel = g.channel)) with
    | some m => compareDigest d m g
    | none => onTwin d (fun w => { w with heldDigests := w.heldDigests ++ [g] })) d

/-- Own records whose partner's never came, and partner's that no own one met, at the start of tick n: a ledger that closes
after the frame's deadline would have brought them. -/
def digestsMissing (d : Dev) (n : Nat) : Dev :=
  let old := fun (g : Digest) => decide (g.tick + 10 ≤ n)
  let due := fun (g : Digest) => old g && (decide (d.twin.state = 4) || d.twin.joined.contains g.channel)
  let d := twinCount d 15 (d.twin.sentDigests.filter due).length
  onTwin d (fun w => { w with sentDigests := w.sentDigests.filter (fun g => !old g), heldDigests := w.heldDigests.filter (fun g => !old g) })

/-! ### Fetches (R213) -/

/-- Whether the union would play a packet of the partner's ledger that this device does not hold. -/
def wantsPacket (d : Dev) (e : LedgerEntry) : Bool :=
  match chanOf d e.channel with
  | none => false
  | some x =>
    let held := (heldPackets d e.channel).any (fun k => decide (k.2.ts = e.ts) && decide (k.2.seq = e.seq))
    let mine := d.twin.entries.any (fun m => decide (m.channel = e.channel) && decide (m.seq = e.seq) && decide (m.ts = e.ts))
      || d.twin.own.any (fun l => l.2.2.any (fun m => decide (m.channel = e.channel) && decide (m.seq = e.seq) && decide (m.ts = e.ts)))
    let p : Packet := { ts := e.ts, seq := e.seq, stamp := e.stamp, octets := e.octets, marker := e.marker, sid := e.sid,
                        fetched := true, judged := false }
    let due := match mappedTick d x p with
      | some m => x.slot.all (fun s => decide (((s.tick + x.frameTicks : Nat) : Int) ≤ m))
      | none => true
    decide (x.state = 1) && !held && !mine && due && !x.played.contains e.ts

/-- The frame tick that needs a packet. -/
def neededTick (d : Dev) (e : LedgerEntry) (l : Nat) : Nat :=
  match chanOf d e.channel with
  | none => l
  | some x =>
    match x.anchor with
    | none => l
    | some a => (a.fa + (x.frameTicks : Int) * (tsDiff e.ts a.ts / ((max 1 (clockPerFrame d x) : Nat) : Int))).toNat

/-- A FETCH is sent: channel, RTP sequence, RTP timestamp. -/
def sendFetch (d : Dev) (l : Nat) (e : LedgerEntry) : Dev :=
  let d := onTwin d (fun w => { w with fetches := w.fetches ++ [⟨e, neededTick d e l⟩] })
  sendTwin (twinCount d 3 1) (joinBytes [bytesOf 4 e.channel, bytesOf 2 e.seq, bytesOf 4 e.ts])

/-- Whether an own entry names the same packet with another payload (R214). -/
def payloadClash (d : Dev) (e : LedgerEntry) : Bool :=
  d.twin.own.any (fun l => l.2.2.any (fun m =>
    decide (m.channel = e.channel) && decide (m.seq = e.seq) && decide (m.ts = e.ts) && decide (m.digest ≠ e.digest)))

/-- FETCH_RECEIVED: the holder answers with the packet or with NOT_HELD. -/
def fetchReceived (c seq ts : Nat) (d : Dev) : Dev :=
  if !unionOn d then d
  else
    let d := twinCount d 6 1
    match (heldPackets d c).find? (fun k => decide (k.2.seq = seq) && decide (k.2.ts = ts)) with
    | some (i, _) =>
      let payload := (((queueOf d c).items[i]?).map (fun x => (⟨x.data.len - 32, x.data.val / 2 ^ 256⟩ : Bytes))).getD noBytes
      let entry := (d.twin.own.findSome? (fun l => l.2.2.find? (fun m => decide (m.channel = c) && decide (m.seq = seq) && decide (m.ts = ts)))).map
        LedgerEntry.record
      sendTwin (twinCount d 7 1) (catBytes (entry.getD noBytes) payload)
    | none => sendTwin (twinCount d 8 1) (joinBytes [bytesOf 4 c, bytesOf 2 seq, bytesOf 4 ts])

/-- A fetch that has failed (R213). -/
def fetchFailed (d : Dev) (f : Fetch) : Dev :=
  onTwin (twinCount d 5 1) (fun w => { w with fetches := w.fetches.filter (fun g => decide (g ≠ f)),
                                              failed := ((f.entry.channel, f.tick) :: w.failed).take 4096 })

/-- FETCH_REPLY_RECEIVED: the packet, or NOT_HELD, for a fetch that was sent. -/
def fetchReplyReceived (c seq ts : Nat) (payload : Option Bytes) (d : Dev) : Dev :=
  match d.twin.fetches.find? (fun f => decide (f.entry.channel = c) && decide (f.entry.seq = seq) && decide (f.entry.ts = ts)) with
  | none => d
  | some f =>
    match payload with
    | none => fetchFailed d f
    | some b =>
      if d.time.ticking ∧ f.tick ≤ curTick d then fetchFailed d f
      else
        let d := onTwin (twinCount d 4 1) (fun w => { w with fetches := w.fetches.filter (fun g => decide (g ≠ f)) })
        let d := bump d Obj.channelFetched c 0
        let e := f.entry
        let old := ((heldPackets d c).map Prod.snd).find? (fun k => decide (k.seq = seq) && decide (k.ts = ts))
        let d := match old with
          | some k => dropPacket d c k
          | none => d
        let p : Packet := { ts := e.ts, seq := e.seq, stamp := e.stamp, octets := b.len, marker := e.marker, sid := e.sid,
                            fetched := true, judged := false }
        packetArrives d c p b

/-! ### A ledger of the partner -/

/-- The skew of the partner's deadline stamp of an interval (Table 10.9). -/
def skewOf (d : Dev) (l : Ledger) : Option Int :=
  (d.twin.own.find? (fun o => decide (o.1 = l.tick))).map (fun o => ((l.stamp.t : Int) - o.2.1.t) / 65536)

/-- Skew and ConfigDigest of an interval: 8 in a row out of bounds withdraw twin B. -/
def judgeInterval (d : Dev) (l : Ledger) : Dev :=
  let skew := skewOf d l
  let d := match skew with
    | some x => oset d Obj.tickSkew 0 0 x
    | none => d
  let far := skew.any (fun x => decide (ogetN d Obj.tickSkewLimit 0 0 < x.natAbs))
  let d := onTwin d (fun w => { w with skew := if far then w.skew + 1 else 0 })
  let d := if d.twin.skew = 8 then
      let d := twinCount d 23 1
      if roleOf d = 2 then forceWithdraw d else d
    else d
  let other := decide (l.config ≠ configDigest d l.tick)
  let d := bumpIf other d Obj.configMismatches 0 0
  let d := onTwin d (fun w => { w with config := if other then w.config + 1 else 0 })
  if d.twin.config = 8 ∧ roleOf d = 2 then forceWithdraw d else d

/-- Two devices of one role meet on a twin link: both stay ALONE (R208). -/
def roleClash (d : Dev) : Dev :=
  report (onTwin d (fun w => { w with state := if w.state = 5 then 5 else 1, joinStep := 0 })) 0 0x0802 0 0

/-- LEDGER_RECEIVED: the partner's ledger of an interval, in `frames` frames; `good`: they pass authentication (R209, R213
to R217). A second copy has no effect. -/
def ledgerReceived (l : Ledger) (frames : Nat) (good : Bool) (d : Dev) : Dev :=
  if !twinned d then d
  else if !good then twinCount d 22 frames
  else
    let d := twinCount d 1 frames
    if l.sender = roleOf d then roleClash d
    else if !unionOn d ∨ d.twin.partner.any (fun o => decide (o.tick = l.tick)) then d
    else
      let d := onTwin d (fun w => { w with partner := (l :: w.partner).take 16, heldDigests := w.heldDigests ++ l.digests })
      let clash := l.entries.filter (payloadClash d)
      let d := twinCount d 9 clash.length
      let want := l.entries.filter (fun e => wantsPacket d e || (roleOf d = 2 && clash.contains e))
      let d := want.foldl (fun d e => sendFetch d l.tick e) d
      let d := judgeInterval d l
      if unionOn d then compareAll d else d

/-! ### The start of a tick -/

/-- The partner is judged lost at the start of tick n: on the twin that did not lead, the records that name n wait for the next
tick, from which it decides its own (R218). -/
def judgeLoss (n : Nat) (d : Dev) : Dev :=
  if unionOn d ∧ ogetN d Obj.partnerLossIntervals 0 0 ≤ d.twin.missing then
    let led := isLeader d
    let d := losePartner d
    if led then d
    else { d with setup := { d.setup with pending := d.setup.pending.map (fun r => if r.tick ≤ n then { r with tick := n + 1 } else r) } }
  else d

/-- The start of tick n on a twin: the interval closed if it was not, and with a partner a ledger that is missing, the fetches that
have no answer by then (the identity of R213 holds at every tick start), digests that never came, and the partner's loss (R211, R213, R214, R216, R218). -/
def twinTick (n : Nat) (d : Dev) : Dev :=
  if !twinned d then d
  else
    let d := closeInterval n (deadlineBefore d) d
    let d := if unionOn d then
        (if d.twin.partner.any (fun l => decide (l.tick = n)) then onTwin d (fun w => { w with missing := 0 })
         else onTwin (twinCount d 2 1) (fun w => { w with missing := w.missing + 1 }))
      else d
    let d := d.twin.fetches.foldl fetchFailed d
    judgeLoss n (digestsMissing (compareAll d) n)

/-! ### Setup records across the pair (R215) -/

/-- What the leader decides on the records that name tick n, from the state as it stands: the records are tried in order on
a copy of the device. -/
def decideRecords (d : Dev) (n : Nat) : List Decision :=
  let l := d.setup.pending.filter (fun r => decide (r.tick = n))
  (l.foldl (fun (acc : Dev × List Decision) r =>
    let x := applyKind .check r acc.1
    let chan := if r.kind = 3 ∨ r.kind = 5 ∨ r.kind = 6 ∨ r.kind = 7 then chanOf x.dev r.subject else none
    let phase := if r.kind = 3 ∧ x.status = 0 then (chan.map Channel.phase).getD 0 else 0
    let cost := if x.status = 0 then (chan.map Channel.cost).getD 0 else 0
    (x.dev, acc.2 ++ [{ seq := r.seq, subject := r.subject, status := x.status, engine := x.engine, phase := phase, cost := cost }])) (d, [])).2

/-- A record under a decision: applied with its engine and phase, or refused with its status. The flag tells whether the
cost agrees. -/
def decidedApply (d : Dev) (r : SetupRec) (x : Decision) : Done × Bool :=
  if x.status ≠ 0 then (Done.refuse d x.status, true)
  else
    let y := applyKind (.given x.engine x.phase) r d
    let cost := if r.kind = 3 ∨ r.kind = 5 ∨ r.kind = 6 ∨ r.kind = 7 then ((chanOf y.dev r.subject).map Channel.cost).getD 0 else 0
    (y, decide (y.status ≠ 0) || decide (cost = x.cost))

/-- The channel that a record concerns is left to the leader. -/
def leaveToLeader (d : Dev) (r : SetupRec) (n cause : Nat) : Dev :=
  if 3 ≤ r.kind ∧ r.kind ≤ 7 then
    suppressHere (oset (oset d Obj.divergenceTick r.subject 0 n) Obj.divergenceCause r.subject 0 cause) r.subject
  else d

/-- One record on the twin that does not lead (Table 10.9). -/
def followRecord (n : Nat) (d : Dev) (r : SetupRec) : Dev :=
  match d.twin.partner.find? (fun l => decide (l.tick = n)) with
  | none => leaveToLeader (twinCount (finishRec r (Done.refuse d suState)) 12 1) r n 3
  | some l =>
    match l.decisions.find? (fun x => decide (x.seq = r.seq)) with
    | none => leaveToLeader (twinCount (finishRec r (Done.refuse d suState)) 13 1) r n 4
    | some x =>
      let (y, ok) := decidedApply d r x
      if ok then
        let d := twinCount (finishRec r y) 11 1
        if r.kind = 4 ∧ x.status = 0 then forgetTwin d r.subject else d
      else leaveToLeader (twinCount (finishRec r (Done.refuse d suState)) 13 1) r n 4

/-- Decisions of the leader for records that this twin does not hold (Table 10.9): one that placed a channel names it. -/
def strayDecisions (n : Nat) (held : List SetupRec) (d : Dev) : Dev :=
  match d.twin.partner.find? (fun l => decide (l.tick = n)) with
  | none => d
  | some l => (l.decisions.filter (fun x => !held.any (fun r => decide (r.seq = x.seq)))).foldl (fun d x =>
      let d := twinCount d 13 1
      if x.engine = 0xFF ∧ x.cost = 0 then d
      else suppressHere (oset (oset d Obj.divergenceTick x.subject 0 n) Obj.divergenceCause x.subject 0 4) x.subject) d

/-- Whether this twin goes by its partner's decisions for the records that name tick n: it did not decide them itself, and a
joiner only from the join boundary on. -/
def follows (d : Dev) (n : Nat) : Bool :=
  unionOn d && decide (d.twin.ledFor ≠ some n) && (decide (d.twin.state ≠ 2) || decide (5 ≤ d.twin.joinStep))

/-- A record that this device decides: under the decision that it has made as leader, or as the state stands. -/
def decideHere (mine : List Decision) (d : Dev) (r : SetupRec) : Dev :=
  match mine.find? (fun x => decide (x.seq = r.seq)) with
  | some x => finishRec r (decidedApply d r x).1
  | none => finishRec r (applyKind .check r d)

/-- The leader decides the records that name the next tick, and ledgers what it decides (R215). -/
def leadNext (n : Nat) (d : Dev) : Dev :=
  let x := decideRecords d (n + 1)
  onTwin d (fun w => { w with decided := x, ledFor := some (n + 1), decisions := if unionOn d then w.decisions ++ x else [] })

/-- The setup records that name tick n, in sequence order (R72, R215); `led`: this twin has led the pair up to now. -/
def applyRecords (n : Nat) (led : Bool) (d : Dev) : Dev :=
  let (l, d) := takeRecords d n
  let mine := if d.twin.ledFor = some n then d.twin.decided else []
  let d := if follows d n then strayDecisions n l (l.foldl (followRecord n) d) else l.foldl (decideHere mine) d
  if led then leadNext n d else d

/-! ### The join (R219, Table 10.8) -/

/-- HELLO: a joiner that is ready, locked and linked sends HELLO every 100 ms. -/
def hello (d : Dev) : Dev :=
  let due := (d.twin.helloAt.map (· + msec 100)).getD (now d)
  if !(twinned d && isReady d && (decide (d.twin.state = 1) || decide (d.twin.state = 5)) && decide (d.time.state = 2) && twinLinkUp d)
      || !ogetB d Obj.joinEnable 0 0 || !canReach d due then d
  else
    let d := passUntil d due
    sendTwin (onTwin d (fun w => { w with helloAt := some (now d), joinStep := 1 })) (bytesOf 1 (roleOf d))

/-- TWIN_START_JOIN: TwinCommand 2. -/
def twinStartJoin (d : Dev) : Dev :=
  if twinned d && (decide (d.twin.state = 1) || decide (d.twin.state = 5)) then
    hello (accept (onTwin d (fun w => { w with helloAt := none })))
  else refuse d abortState

/-- What one twin tells of itself in HELLO or in its answer. -/
structure Peer where
  role   : Nat
  keyId  : Nat
  enable : Bool              -- JoinEnable
  accepts : Bool             -- it answers a HELLO of this device, and feeds it
  deriving DecidableEq, Repr

/-- TwinLinkKeyId: the first 32 bits of the digest of the unwrapped key. -/
def twinKeyId (d : Dev) : Nat :=
  if d.twin.key = 0 then 0 else Config.keyId (Config.unwrapKey (ogetN d Obj.keyTransportKey 0 0) d.twin.key) % 2 ^ 32

/-- A new join begins in a state: what single-sourced channels were, is no more (Table 15.2, 0x0810). -/
def beginJoin (d : Dev) (st : Nat) : Dev :=
  let d := onTwin d (fun w => { w with state := st, joinStep := 2, suppress := [], single := [], states := [], joined := [], awaiting := [], missing := 0 })
  { d with faults := { d.faults with standing := d.faults.standing.filter (fun p => decide (p.1 ≠ 0x0810)) } }

/-- JOIN_ACCEPT: on HELLO an ALONE partner becomes FEEDING; on its answer the joiner becomes JOINING. -/
def joinAccept (p : Peer) (d : Dev) : Dev :=
  if !twinned d then d
  else if p.role = roleOf d then roleClash d
  else if !p.enable || !ogetB d Obj.joinEnable 0 0 || decide (p.keyId ≠ twinKeyId d) || decide (d.twin.key = 0) then d
  else if p.accepts then
    if (d.twin.state = 1 ∨ d.twin.state = 5) ∧ d.twin.joinStep = 1 then
      beginJoin d 2
    else d
  else if d.twin.state = 1 then sendTwin (beginJoin d 3) (bytesOf 1 (roleOf d))
  else d

/-- What step 3 of a join copies to the joiner. -/
structure JoinCopy where
  values    : SMap Int       -- applied dictionary values by object key
  endpoints : SMap Nat
  placed    : SMap Nat       -- flow entries that hold a place
  nextSeq   : Nat            -- SetupNextSequence at the join boundary
  channels  : Nat            -- channels that step 5 will copy
  deriving DecidableEq, Repr

/-- Whether an applied value is copied in step 3: the ranges of R220, the flow table and its profiles. -/
def joinCopied (key : Nat) : Bool :=
  let idx := key / 256 % 65536
  (decide (0x2500 ≤ idx) && decide (idx ≤ 0x27FF)) || (decide (0x2900 ≤ idx) && decide (idx ≤ 0x29FF))
    || (decide (0x2110 ≤ idx) && decide (idx ≤ 0x214F))

/-- JOIN_STATE_COPY_COMPLETE: step 3 ends; on the joiner the copied state is in force. -/
def joinStateCopyComplete (c : JoinCopy) (d : Dev) : Dev :=
  if d.twin.joinStep ≠ 2 then d
  else if d.twin.state = 3 then onTwin d (fun w => { w with joinStep := 3 })
  else if d.twin.state = 2 then
    let obj := sover d.dict.obj (c.values.filter (fun p => joinCopied p.1))
    let d := { d with dict := { d.dict with obj := obj }, endpoints := c.endpoints, fwd := { d.fwd with placed := c.placed } }
    onTwin d (fun w => { w with joinStep := 3, nextSeq := c.nextSeq, expect := c.channels })
  else d

/-- A commit is accepted with target tick t: the first after step 3 fixes the join boundary. -/
def joinCommit (t : Nat) (d : Dev) : Dev :=
  if d.twin.joinStep = 3 then onTwin d (fun w => { w with joinStep := 4, joinTick := some t }) else d

/-- Whether a channel of the feeding twin counts as joined. -/
def fedAll (d : Dev) : Bool := d.chans.all (fun c => decide (c.2.state ≠ 1) || d.twin.joined.contains c.1)

/-- The join at the start of tick n: the boundary, and its end once every active channel has joined (Table 10.8). -/
def joinTickStart (n : Nat) (d : Dev) : Dev :=
  let d := if d.twin.joinStep = 4 ∧ d.twin.joinTick = some n then
      let d := oset d Obj.joinBoundary 0 0 n
      let d := if d.twin.state = 2 then { d with setup := { d.setup with next := d.twin.nextSeq } } else d
      onTwin d (fun w => { w with joinStep := 5 })
    else d
  let done := (decide (d.twin.state = 3) && fedAll d)
    || (decide (d.twin.state = 2) && decide (d.twin.expect ≤ d.twin.joined.length) && d.twin.awaiting.isEmpty)
  if d.twin.joinStep = 5 ∧ done then twinCount (onTwin d (fun w => { w with state := 4, joinStep := 0, joinTick := none })) 19 1 else d

/-- The snapshot of a channel that the partner sends in step 5: its working state, banks, jitter queue and counters, after
its frame work at frame tick `tick`. -/
structure Snapshot where
  tick     : Nat
  chan     : Channel
  jitter   : List QItem
  counters : SMap Int
  sends    : List (Nat × List Int)   -- the send stream of its endpoint (R93)
  deriving DecidableEq, Repr

/-- Items of a BLOCK queue given the cells of this device, from a list of free ones. -/
def givePlaces : List QItem → List Nat → List QItem
  | [], _ => []
  | i :: l, p => { i with places := p.take i.cells } :: givePlaces l (p.drop i.cells)

/-- The copy of channel c that the joiner itself had run ends; the endpoint table is the partner's. -/
def dropOwnCopy (c : Nat) (d : Dev) : Dev := { shutChannel d c (curTick d) 0 with endpoints := d.endpoints }

/-- JOIN_CHANNEL_SNAPSHOT: the joiner runs channel c from the next frame tick on (Table 10.8). A snapshot that comes too
late is retaken, and has no effect. -/
def joinChannelSnapshot (c : Nat) (s : Snapshot) (d : Dev) : Dev :=
  let first := s.tick + s.chan.frameTicks
  if d.twin.state ≠ 2 ∨ d.twin.joinStep ≠ 5 ∨ first ≤ curTick d ∨ d.twin.joined.contains c then d
  else
    let d := dropOwnCopy c d
    match lowestFree d with
    | none => d
    | some t =>
      let body := s.chan.body
      let r := channelThread body s.chan.engine s.chan.cost
      let x := { s.chan with thread := t }
      let d := { d with dict := { d.dict with obj := sover d.dict.obj s.counters }, sends := sput d.sends x.endpoint ⟨s.sends⟩ }
      let d := setTcb (setChan d c x) t (newTcb r c)
      let d := noteDeficit (reclass d c) x.engine
      let held := heldPlaces d
      let need := sumNat (s.jitter.map QItem.cells)
      let d := setQueue d c { queueOf d c with items := givePlaces s.jitter (placesFrom held (held.length + need) need poolStart) }
      let d := oset d Obj.queueDepthLimit c 0 (jitterCells d x)
      let d := [c, 65536 + c, 131072 + c].foldl (fun d q => oset d Obj.queueGrantMask q 0 (2 ^ (x.engine / 16) : Nat)) d
      let d := if x.group = 0xFFFF then d
        else oaJoin { d with groups := sput d.groups x.group (sput (sget d.groups x.group []) x.member c) } x.group x.member c first
      let stream := getF body ChBody.evidenceStream
      let d := if x.recorded then
          let d := openStream d stream 1 c (slotSamples x) first
          offerEvent d stream first 4 0 0 (joinBytes [bytesOf 8 (d.twin.joinTick.getD (ogetN d Obj.joinBoundary 0 0)), bytesOf 8 first])
        else d
      onTwin (setTwinState d c 2) (fun w => { w with joined := c :: w.joined, awaiting := sput w.awaiting c 0 })

/-- TWIN_LINK_KEY_WRITE: a write of TwinLinkKey; `bad`: it fails to unwrap (R209). -/
def twinLinkKeyWrite (key : Nat) (bad : Bool) (d : Dev) : Dev :=
  if bad ∨ ogetN d Obj.keyTransportKey 0 0 = 0 then refuse d abortStore
  else accept (onTwin d (fun w => { w with key := key }))

/-- LINK_STATE_CHANGE: the link of port p comes up or goes down (R42); a twin whose link is down loses its partner. -/
def linkStateChange (p : Nat) (up : Bool) (d : Dev) : Dev :=
  let d := linkChange p up d
  if unionOn d && !twinLinkUp d then losePartner d else d

end Sys2Proof.Machine
end

