-- ==== Sys2Proof/Machine/FaultOps.lean ====
section
/-! DEFINITION. What the reset of each kind of block does at its start and at its end (R300, Table 15.3), the end of its
window (R298), the closing of log entries (R303), the release of FAULT_N (R308), and the heartbeat watch (R306). -/
namespace Sys2Proof.Machine

/-! ### Engines that stop -/

/-- A thread number that names no thread: the owner of an operation whose issuer has gone. -/
def noThread : Nat := 0xFFFFFFFF

/-- An engine that has stopped. What it had issued to other blocks may still be performed there, without an issuer. -/
def stoppedEngine (x : EngineSt) : EngineSt :=
  { EngineSt.reset with bank := x.bank, ops := x.ops.map (fun o => { o with thread := noThread }),
                        copies := x.copies.map (fun c => { c with thread := noThread }) }

/-- The engines that `mine` picks stop. -/
def stopEngines (d : Dev) (mine : Nat → Bool) : Dev :=
  let d := rollLoads d mine
  { d with engines := d.engines.map (fun p => if mine p.1 then (p.1, stoppedEngine p.2) else p) }

/-- Operations without an issuer that have not been performed by now never are. -/
def dropOrphans (d : Dev) (mine : Nat → Bool) : Dev :=
  let clear := fun (x : EngineSt) => { x with ops := x.ops.filter (fun o => decide (o.thread ≠ noThread)),
                                              copies := x.copies.filter (fun c => decide (c.thread ≠ noThread)) }
  { d with engines := d.engines.map (fun p => if mine p.1 then (p.1, clear p.2) else p) }

/-! ### Hearth reset (R300) -/

/-- Held entries of kinds 2 to 5 of hearth h are lost and counted. -/
def loseEntries (d : Dev) (h : Nat) : Dev :=
  let lost := fun (r : Ready) => decide (2 ≤ r.kind) && decide (r.kind ≤ 5)
  let l := readyOf d h
  bumpBy (setReady d h (l.filter (fun r => !lost r))) Obj.entriesLostInReset 0 0 (l.filter lost).length

/-- A thread that was RUNNING, READY or pre-empted: its interrupted release starts again from EntryPc with a cleared
context, and its RESUME entry goes. -/
def restartThread (d : Dev) (t : Nat) : Dev :=
  match tcbOf d t with
  | none => d
  | some k =>
    if k.state ≠ 2 ∧ k.state ≠ 3 then d
    else
      let d := dropKinds d t [6]
      let h := k.home / 16
      let k1 := { k with release := none, missed := false, hold := none, ctx := freshCtx k.entryPc k.lmWindow }
      match k.release with
      | some r =>
        let d := setReady d h (readyOf d h ++ [{ r with missed := k.missed }])
        setTcb d t { k1 with state := 2 }
      | none => setTcb d t { k1 with state := restState d t k1 }

/-- The reset of hearth h starts: engines and ready store cleared; entries of kinds 2 to 5 lost; TICK and FRAME entries come
back from the TCBs. -/
def hearthResetStart (d : Dev) (h : Nat) : Dev :=
  let mine := (d.stk.tcbs.filter (fun p => decide (p.2.home / 16 = h))).map Prod.fst
  let d := loseEntries (stopEngines d (fun e => decide (e / 16 = h))) h
  mine.foldl restartThread d

/-! ### The start and the end of a reset (Table 15.3) -/

/-- The drive's Writes of port r that have not completed are issued again, each counted as a retry (Table 12.10). -/
def reissue (d : Dev) (r : Nat) : Dev :=
  d.store.segs.foldl (fun d g =>
    let name := (nameOf d.store g.number).getD 0
    if name / 2 ≠ r then d
    else
      let again := fun (d : Dev) => bump (bumpStore d 7 1) Obj.portRetries r 0
      let d := (g.records.filter (fun x => decide (x.phase = 2))).foldl (fun d x => submitRec (again d) g.number x) d
      match g.header with
      | some v => submit (again d) name 1 (segLba d.store g.number) ⟨4096, v⟩
      | none => d) d

/-- What the reset of block (kind, b) does at its start; kinds 7 and 8 are the twin's withdrawal and the warm start. -/
def resetStart (d : Dev) (kind b : Nat) : Dev :=
  match kind with
  | 1 => linkDown d b
  | 2 => hearthResetStart d b
  | 3 => setUnit (restartJob d b) b { state := 4, stream := none }
  | 4 =>
    let x := checkOf d b
    let d := match x.sealing with
      | some (n, off) => onRec d n off (fun r => { r with phase := 0 })
      | none => d
    setCheck d b { x with sealing := none }
  | 6 => (linesRunning d).foldl (fun d p => setRun d p ((lineOf d p).unsettle (sampleFrom d p (mediaOff d)))) d
  | _ => d

/-- What it does at its end. The speed and width at which a PCIe link comes back are free values. -/
def resetEnd (d : Dev) (kind b : Nat) : Dev :=
  match kind with
  | 2 => dropOrphans (loseEntries d b) (fun e => decide (e / 16 = b))
  | 3 => idleUnit d b
  | 5 =>
    let (x, d) := freshNat d
    let (y, d) := freshNat d
    let s := d.store
    reissue { d with store := { s with linkUp := sput s.linkUp b (x % 5 + 1, 2 ^ (y % 3)) } } b
  | 6 => (linesRunning d).foldl (fun d p =>
      setLine d p ((lineOf d p).restart true (sampleFrom d p (mediaOff d)) (lineSettling d p))) d
  | _ => d

/-- BLOCK_RESET_END: the reset of block (kind, b) completes and its settle time begins. A withdrawn twin's reset ends with
its join; the end of a warm start is its Ready step. -/
def blockResetEnd (kind b : Nat) (d : Dev) : Dev :=
  let x := blockSt d kind b
  if x.phase ≠ 1 ∨ kind = 8 ∨ (kind = 7 ∧ d.twin.state = 2) then d
  else resetEnd (setBlock d kind b { x with phase := 2, ended := now d }) kind b

/-- Whether a window of class FC3 stands. -/
def windowStands (d : Dev) : Bool := d.faults.blocks.any (fun p => decide (p.2.phase = 1) || decide (p.2.phase = 2))

/-- The window of block (kind, b) closes. When the last standing fault of class FC3 or above clears, an EMCY tells it
(R277). -/
def closeWindow (d : Dev) (kind b : Nat) : Dev :=
  let d := setBlock d kind b { blockSt d kind b with phase := 0 }
  if windowStands d ∨ d.faults.quench ≠ 0 then d else sendEmcy d 0 0 0

/-- SETTLE_TIME_EXPIRY: SettleTime after the end of its reset, a block's window closes (R298). -/
def settleTimeExpiry (kind b : Nat) (d : Dev) : Dev :=
  let x := blockSt d kind b
  let due := x.ended + msec (ogetN d Obj.settleTime 0 0)
  if x.phase ≠ 2 ∨ !canReach d due then d else closeWindow (passUntil d due) kind b

/-- COALESCE_WINDOW_CLOSE: the open entry with a log sequence closes CoalesceWindow after its first report and is copied to
the ring (R303, R304). -/
def coalesceWindowClose (seq : Nat) (d : Dev) : Dev :=
  match d.faults.low.find? (fun e => decide (e.seq = seq)) with
  | none => d
  | some e =>
    let due := e.since + msec (ogetN d Obj.coalesceWindow 0 0)
    if !canReach d due then d
    else
      let d := passUntil d due
      toRing { d with faults := { d.faults with low := d.faults.low.filter (fun x => decide (x.seq ≠ seq)) } } e

/-- FAULT_N_RELEASE: once no FC3 window stands and 100 ms have passed since the last assertion; never after an FC4 (R308). -/
def faultNRelease (d : Dev) : Dev :=
  let due := d.faults.faultNAt + msec 100
  if !d.faults.faultN ∨ windowStands d ∨ d.faults.quench ≠ 0 ∨ !canReach d due then d
  else
    let d := passUntil d due
    { d with faults := { d.faults with faultN := false } }

/-- When the heartbeat in force is due: HeartbeatTimeout after the last one, or 5 s after Ready before the first (R306). -/
def heartbeatDue (d : Dev) : Nat :=
  d.faults.hbLast + (if d.faults.hbArmed then msec (ogetN d Obj.heartbeatTimeout 0 0) else secs 5)

/-- HEARTBEAT_TIMEOUT: the heartbeat is lost and PILOT stops (R306). -/
def heartbeatTimeout (d : Dev) : Dev :=
  if !isReady d ∨ d.faults.hbLost.isSome ∨ !canReach d (heartbeatDue d) then d
  else
    let d := passUntil d (heartbeatDue d)
    { d with faults := { d.faults with hbLost := some (now d), pilot := 0 } }

/-! ### Outputs that are held off -/

/-- Links down, pins at their inactive level, engines, compressors and check channels stopped, PILOT low. -/
def haltOutputs (d : Dev) : Dev :=
  let pins := d.time.pins.map (fun p => { p with level := p.rest })
  let d := haltBlocks (stopEngines d (fun _ => true))
  { d with
    fwd := { d.fwd with ports := d.fwd.ports.map (fun p => (p.1, { p.2 with linkUp := false, txPrio := none })) }
    time := { d.time with pins := pins, ppsOut := false, ppsEnd := none }
    faults := { d.faults with pilot := 0 } }

end Sys2Proof.Machine
end

