-- ==== Sys2Proof/Machine/Start.lean ====
section
/-! DEFINITION. Supplies, straps and starting (R311 to R326): the two kinds of start, failed starts and the banked state,
firmware load, sensors and rails. A start is one command that tells what it meets; where the spec makes it wait (step 8 in
boot mode 2, step 10) it stops there and a later command takes it on. -/
namespace Sys2Proof.Machine

/-- The start machinery changed. -/
def onStart (d : Dev) (f : Start → Start) : Dev := { d with start := f d.start }
/-- The retention register changed (R324). -/
def onRetention (d : Dev) (f : Retention → Retention) : Dev := onStart d (fun s => { s with retention := f s.retention })
/-- StartStep. -/
def atStep (d : Dev) (n : Nat) : Dev := onStart d (fun s => { s with step := n })
/-- Whether the start in progress is a warm one, by LastStartKind. -/
def isWarm (d : Dev) : Bool := decide (6 ≤ d.start.kind)

/-! ### CAN boot-up (R275) -/

/-- Bus b, where it is enabled, sends its boot-up message and is pre-operational. -/
def canBoot (d : Dev) (b : Nat) : Dev :=
  if busEnabled d b then
    let n := { canNode d b with nmt := 127, syncCount := [] }
    emit { d with cans := sput d.cans b n, canAt := sput d.canAt 4 (now d) } (.can b (0x700 + d.start.straps.node % 128) (bytesOf 1 0))
  else d

/-! ### Beginning a start, and its failure -/

/-- A cold start clears everything but the fuses, the straps last sampled and the retention register. -/
def coldClear (d : Dev) (kind : Nat) : Dev :=
  let s := d.start
  let r := { s.retention with colds := s.retention.colds + 1, warm := 0, cold := if kind = 3 then 0 else s.retention.cold }
  { Dev.reset with
    start := { Start.reset with straps := s.straps, state := 0, step := 1, kind := kind, due := some kind, boot := s.boot, retention := r,
                                armed := s.armed, resetLow := s.resetLow, temps := s.temps, tjMax := maxInt s.temps, fused := s.fused,
                                main := s.main, recovery := s.recovery, flash := s.flash }
    out := d.out, free := d.free }
where
  maxInt : List Int → Int
    | [] => 0
    | [x] => x
    | x :: l => max x (maxInt l)

/-- A cold start that a command or a failure begins (R316, Table 16.8): it waits for its steps to run. -/
def beginCold (d : Dev) (kind : Nat) : Dev :=
  coldClear (onStart d (fun s => { s with boot := if kind = 3 then s.boot else s.straps.boot })) kind

/-- Setup records pending at a warm start produce results with Status STATE (R321). -/
def dropPending (d : Dev) : Dev :=
  let l := d.setup.pending
  l.foldl (fun d r => putResult (bump d Obj.setupRefusedAtTick 0 0) r suState 0xFF r.tick)
    { d with setup := { d.setup with pending := [] } }

/-- The counters of every group start again with its members gone (R113). -/
def wipeGroups (d : Dev) : Dev :=
  (skeys d.oa).foldl (fun d n =>
    if 8192 ≤ n ∨ (oaOf d n).closed.isNone then d
    else [Obj.ticksMixed, Obj.ticksClosedLate, Obj.talkerSelections, Obj.claimsNotSelected].foldl (fun d o => oset d o n 0 0) d) d

/-- Every channel is closed without a final block, every thread freed and every queue emptied (R321). -/
def wipeCalls (d : Dev) : Dev :=
  let d := wipeGroups ((skeys d.chans).foldl dropSwap d)
  let d := d.chans.foldl (fun d p =>
    let d := setEpF (setEpF d p.2.endpoint Ep.state 1) p.2.endpoint Ep.boundChannel 0xFFFFFFFF
    let d := [p.1, 65536 + p.1, 131072 + p.1].foldl (fun d q => oset d Obj.queueGrantMask q 0 0) d
    clearChannelFaults (oset d Obj.queueDepthLimit p.1 0 0) p.1) d
  let left := d.faults.standing.filter (fun p => decide (p.1 ≠ 0x0511) && decide (p.1 ≠ 0x0611))
  let late := skeys d.stk.deficit
  let d := { d with chans := [], sends := [], groups := [], queues := [], banks := [], oa := d.oa.map (fun p => (p.1, { OaCtx.empty with params := p.2.params })),
                    stk := { d.stk with tcbs := [], ready := [], latches := [], owed := [], port := [] }, faults := { d.faults with standing := left } }
  bindLines (late.foldl noteDeficit d)

/-- Every evidence stream is closed: its open blocks and jobs are discarded and counted in BlocksNotMade (R321). -/
def wipeEvidence (d : Dev) : Dev :=
  let blocks := sumNat (d.ev.streams.map (fun p => (p.2.blocks.filter (fun b => b.made)).length))
  let pages := sumNat (d.ev.jobs.map (fun j => j.granted / 4096))
  let d := rollUnits (bumpBy d Obj.blocksNotMade 0 0 (blocks + d.ev.jobs.length : Nat))
  { d with ev := { d.ev with streams := [], jobs := [], units := [] }, store := { d.store with free := d.store.free + pages } }

/-- Firmware check jobs are lost with their queues, and seal jobs start again. -/
def wipeChecks (d : Dev) : Dev :=
  let d := haltBlocks d
  { d with store := { d.store with checks := [] } }

/-- The twin logic begins again: a twin-strapped device is ALONE until it joins (R321); TwinLinkKey is kept. -/
def wipeTwin (d : Dev) : Dev :=
  { d with twin := { Twin.reset with state := if twinned d then 1 else 0, key := d.twin.key } }

/-- A warm start begins (R320): the device quiesces and what R321 discards is discarded. The retry of a commanded one that has not resumed
the store finds its index clean still (R252). -/
def beginWarm (d : Dev) (kind : Nat) (selftest : Bool) : Dev :=
  let d := if kind = 6 then closeSegment d 3 else d
  let d := wipeTwin (wipeChecks (wipeEvidence (wipeCalls (dropPending (haltOutputs d)))))
  let d := settleFlows { d with dict := { d.dict with staged := [], commit := none } }
  let d := { d with line := { d.line with commands := [], edges := [] }, store := { d.store with clean := decide (kind = 6) || (decide (kind = 9) && d.store.clean) } }
  let d := onRetention d (fun r => { r with warms := r.warms + 1 })
  onStart d (fun s => { s with state := 2, step := 1, kind := kind, due := some kind, selftest := selftest, begun := now d, ready := false })

/-- The banked state (R325), for one of its three causes. -/
def enterBanked (d : Dev) (reason : Nat) : Dev :=
  let d := haltOutputs d
  let d := { d with line := { d.line with awake := 0, locked := false }, faults := { d.faults with pilot := 2 } }
  let d := onRetention (onStart d (fun s => { s with state := 3, ready := false, due := none, world := none })) (fun r => { r with banked := reason })
  canBoot (canBoot d 0) 1

/-- A start fails at a step, for a reason: 1 condition, 2 bound, 3 no heartbeat. The next start is that of Table 16.8. -/
def failStart (d : Dev) (step reason : Nat) : Dev :=
  let d := onRetention d (fun r => { r with failedStep := step, failReason := reason })
  if isWarm d then
    let d := onRetention d (fun r => { r with warm := r.warm + 1 })
    if 3 ≤ d.start.retention.warm then beginCold (onRetention d (fun r => { r with warm := 0 })) 4 else beginWarm d 9 false
  else
    let d := onRetention d (fun r => { r with cold := r.cold + 1 })
    if 3 ≤ d.start.retention.cold then enterBanked d 1 else beginCold d 5

/-- The failure of a world that lies in some steps. -/
def failsIn (w : StartWorld) (a b : Nat) : Option (Nat × Nat) := w.fail.filter (fun f => decide (a ≤ f.1) && decide (f.1 ≤ b))

/-! ### Ready -/

/-- Media time starts at Ready (R32): the first tick is the next whole multiple of 2.5 ms, and its number at least one more
than the last tick of the evidence found. -/
def startMedia (d : Dev) : Dev :=
  let t := d.time
  let next := ceilDiv t.net tickLen * tickLen
  let first := max (next / tickLen) (d.store.lastTick + 1)
  { d with time := { t with media := t.net, mediaLocked := true, started := true, nextTick := next, firstTick := first,
                            tickOffset := (first : Int) - (next / tickLen : Nat) } }

/-- The capture streams whose StreamKind is 2, open (R222, R321). -/
def openCaptures (d : Dev) : Dev :=
  (d.dict.obj.filter (fun p => decide (p.1 % 2 ^ 24 = Obj.streamKind.key 0 0) && decide (p.2 = 2))).foldl (fun d p =>
    let s := p.1 / 2 ^ 24
    if streamFree d s then openStream d s 2 0xFFFFFFFF 0 (curTick d) else d) d

/-- OutputPool takes its pages for this start (R250). -/
def startPool (d : Dev) : Dev :=
  let n := ogetN d Obj.outputPoolPages 0 0
  let held := sumNat ((d.store.segs.flatMap Segment.records ++ d.store.waiting).map Rec.pages)
  { d with store := { d.store with pool := n, free := n - held } }

/-- The Ready step: boot-up messages, and the watch for the first heartbeat (R275, R306). -/
def readyStep (d : Dev) (step : Nat) : Dev :=
  let d := onStart d (fun s => { s with state := 1, step := step, ready := true, world := none, due := none,
                                        ms := (now d - s.begun) / msec 1 })
  let f := { d.faults with hbArmed := false, hbLast := now d, hbLost := none, pilot := 0 }
  canBoot (canBoot (openCaptures { d with faults := f }) 0) 1

/-- Steps 11 and 12 of a cold start: the evidence-store scan and Ready, ticks starting under R32. -/
def finishCold (d : Dev) : Dev :=
  match d.start.world with
  | none => d
  | some w =>
    if d.start.step ≠ 10 ∨ d.start.state ≠ 0 then d
    else
      let d := passTime (startPool (atStep d 11)) (msec w.scan.ms)
      match failsIn w 11 12 with
      | some (f, r) => failStart (atStep d f) f r
      | none =>
        let d := storeScan w.scan d
        let d := oset (oset d Obj.lastScanMode 0 0 (if w.scan.linear then 2 else 1)) Obj.lastScanTime 0 0 w.scan.ms
        readyStep (startMedia d) 12

/-- Step 9 and the wait of step 10: every object at its default, the default slot armed, a twin ALONE. -/
def coldDefaults (w : StartWorld) (d : Dev) : Dev :=
  let d := slotEnabling (slotEnabling (wipeTwin (atStep d 9)) 0) 1
  match failsIn w 9 10 with
  | some (f, r) => failStart (atStep d f) f r
  | none =>
    let d := passTime (atStep d 10) (msec w.ms)
    onStart d (fun s => { s with world := some w, waitFrom := now d })

/-! ### Firmware (R318, R319) -/

/-- Bytes of a flash slot. -/
def flashSlot : Nat := 16777216

/-- The image in some bytes, as verification finds it (R318, Table 16.6); `signed`: the key hash and the signature hold. -/
def imageOf (d : Dev) (b : Bytes) (signed : Bool) : Image :=
  let v := b.val
  let n := getF v ImageHdr.imageLength
  { accepted := decide (getF v ImageHdr.magic = 0x51465731) && decide (1 ≤ n) && decide (n ≤ 16776704) && decide (512 + n ≤ b.len)
      && decide (getF v ImageHdr.keyIndex < 4) && signed
      && decide (getF v ImageHdr.minStepping ≤ ogetN d Obj.stepping 0 0)
    tooLong := decide (16776704 < n) || decide (flashSlot < b.len)
    version := getF v ImageHdr.firmwareVersion
    rollback := getF v ImageHdr.rollbackIndex
    digest := Config.sha384 (512 + n) (bitsAt v 0 (8 * (512 + n))) }

/-- The image that a flash slot holds, if anything is found there. -/
def foundImage (d : Dev) (x : FlashSlot) : Option Image := if x.data.len = 0 then none else some (imageOf d x.data x.signed)

/-- The image received through FirmwareLoadData: each write over those before it (R319). -/
def receivedImage (d : Dev) : Bytes :=
  let l := d.start.load
  let n := l.foldl (fun n p => max n (p.1 + p.2.len)) 0
  ⟨n, l.foldr (fun p v => setF v ⟨8 * p.1, 8 * p.2.len⟩ p.2.val) (Config.loadGap % 2 ^ (8 * n))⟩

/-- The fused rollback index. -/
def fusedIndex (d : Dev) : Nat := max d.start.fused ((oget d Obj.fusedRollbackIndex 0 0).toNat % 65536)
/-- Whether an image is accepted (R318). -/
def imageOk (d : Dev) (i : Image) : Bool := i.accepted && !i.tooLong && decide (fusedIndex d ≤ i.rollback)
/-- FirmwareLoadStatus of a refusal. -/
def imageStatus (i : Image) : Nat := if i.tooLong then 7 else if !i.accepted then 5 else 6

/-- An image is refused and counted. -/
def refusedImage (d : Dev) (i : Option Image) : Dev := bumpIf i.isSome d Obj.signatureFailures 0 0

/-- The image runs: FirmwareImage names where it came from. -/
def runImage (d : Dev) (i : Image) (source : Nat) : Dev := onStart d (fun s => { s with image := some i, imageFrom := source })

/-- The image that boot mode `boot` loads, 0 or 1; none is accepted where the flag is false. -/
def bootImage (d : Dev) : Dev × Bool :=
  let tryRecovery := fun (d : Dev) =>
    match d.start.recovery with
    | some i => if imageOk d i then (runImage d i 1, true) else (refusedImage d (some i), false)
    | none => (d, false)
  if d.start.boot = 1 then tryRecovery d
  else
    match d.start.main with
    | some i => if imageOk d i then (runImage d i 0, true) else tryRecovery (refusedImage d (some i))
    | none => tryRecovery d

/-! ### Warm start (Table 16.7) -/

/-- Reset records of blocks at the Ready of a warm start: the windows that it superseded close, and that of the device
begins its settle time (Table 15.4, R298). -/
def warmWindows (d : Dev) : Dev :=
  let upd := fun (p : Nat × BlockSt) =>
    if p.1 = 2048 ∧ p.2.phase = 1 then (p.1, { p.2 with phase := 2, ended := now d })
    else if p.2.phase = 3 then p else (p.1, { p.2 with phase := 0 })
  { d with faults := { d.faults with blocks := d.faults.blocks.map upd } }

/-- Units that were behind have applied every committed epoch (R87). -/
def allUnits (d : Dev) : Dev :=
  let late := d.dict.units.flatMap (fun u => u.2.waiting.map Prod.snd)
  { d with dict := { d.dict with obj := late.foldl sover d.dict.obj, units := [] } }

/-- Steps 9 to 11 of a warm start: values kept, the store resumed from its index, Ready. -/
def finishWarm (w : StartWorld) (d : Dev) : Dev :=
  match failsIn w 9 11 with
  | some (f, r) => failStart (atStep d f) f r
  | none =>
    let d := startPool d
    let (d, mode) :=
      if !w.indexOk then (storeScan w.scan (if d.store.clean then d else storeDrop d), if w.scan.linear then 2 else 1)
      else if d.store.clean then (drainStore d, 3)
      else (storeDirty w.scan d, 4)
    let d := oset (oset d Obj.lastScanMode 0 0 mode) Obj.lastScanTime 0 0 w.scan.ms
    let d := { d with store := { d.store with clean := false } }
    readyStep (warmWindows (allUnits d)) 11

/-- The line die at a warm start: its values are reused within 10.0 °C of CalibrationTemperature, and measured again
otherwise; the decimators start again (R270). -/
def warmLine (d : Dev) : Dev :=
  if d.line.awake ≠ 2 then d
  else if (lineDieTemp d - d.line.calTemp).natAbs ≤ 100 then
    let d := resetEnd { d with line := { d.line with locked := true } } 6 0
    { d with line := { d.line with calibration := 3 } }
  else lineAwake d

/-- The highest main-die sensor. -/
def mainDieTemp (d : Dev) : Int := (d.start.temps.take 4).foldl max (d.start.temps.headD 0)

/-- DDR at a warm start: training, where the retained values do not serve, sets DdrTrainTemperature (Table 16.7, step 6). -/
def warmDdr (w : StartWorld) (d : Dev) : Dev :=
  if w.ddrOk ∧ mainDieTemp d < d.start.ddrTemp + 200 then d else onStart d (fun s => { s with ddrTemp := mainDieTemp d })

/-- Sensor readings, with TjMax. -/
def setTemps (d : Dev) (l : List Int) : Dev :=
  onStart d (fun s => { s with temps := l, tjMax := l.foldl max s.tjMax })

/-- WARM_START: a warm start that is due runs its steps. -/
def warmStart (w : StartWorld) (d : Dev) : Dev :=
  match d.start.due with
  | none => d
  | some k =>
    if k < 6 ∨ d.start.state ≠ 2 then d
    else
      let d := dropOrphans (onStart d (fun s => { s with due := none })) (fun _ => true)
      let d := setTemps d w.temps
      let last := if d.start.selftest ∨ ogetB d Obj.warmSelfTest 0 0 then 7 else 6
      match failsIn w 1 last with
      | some (f, r) => failStart (atStep d f) f r
      | none =>
        let d := (List.range 32).foldl linkDown (warmLine d)
        let d := warmDdr w (onStart d (fun s => { s with lanes := w.lanes, step := 8 }))
        if w.imageOk then finishWarm w d
        else
          let d := bump d Obj.imageReloads 0 0
          if d.start.boot = 2 then onStart d (fun s => { s with world := some w, waitFrom := now d })
          else
            let (d, ok) := bootImage d
            if ok then finishWarm w d else failStart d 8 1

/-! ### Cold start (Table 16.5) -/

/-- Trained DRAM, GiB (R146): the powered controllers times the smallest capacity that any of them trained, at most 64 GiB each (R5). -/
def trainedGiB (d : Dev) (w : StartWorld) : Nat :=
  let l := (List.range (ddrOf d)).map (fun i => min 64 (w.drams.getD i 0))
  ddrOf d * l.foldl min 64

/-- The failure of steps 4 to 8 of a cold start: step 6 fails where it trains less than 16 GiB (R146). -/
def coldFails (d : Dev) (w : StartWorld) : Option (Nat × Nat) :=
  match failsIn w 4 6 with
  | some x => some x
  | none => if trainedGiB d w < 16 then some (6, 1) else failsIn w 7 8

/-- Steps 1 to 8 of a cold start. -/
def coldSteps (w : StartWorld) (d : Dev) : Dev :=
  let d := setTemps (onStart d (fun s => { s with due := none, armed := true, tjMax := 0 })) w.temps
  match failsIn w 1 3 with
  | some (f, r) => failStart (atStep d f) f r
  | none =>
    let s := d.start
    let d := atStep d 3
    if 3 ≤ s.retention.cold then enterBanked d 1
    else if s.straps.twin = 3 then enterBanked d 3
    else if s.boot = 3 then enterBanked d 2
    else
      match coldFails d w with
      | some (f, r) => failStart (atStep d f) f r
      | none =>
        let d := if s.straps.tier < 2 then d else lineAwake d
        let d := onStart d (fun s => { s with step := 8, lanes := w.lanes, dramGiB := trainedGiB d w, ddrTemp := mainDieTemp d,
                                              main := foundImage d w.main, recovery := foundImage d w.recovery, flash := w.flash })
        if s.boot = 2 then onStart d (fun s => { s with world := some w, waitFrom := now d })
        else
          let (d, ok) := bootImage d
          if ok then coldDefaults w d else failStart d 8 1

/-- COLD_START: the rising edge of RESET_N, which samples the straps, or a cold start that is due runs its steps. -/
def coldStart (straps : Straps) (w : StartWorld) (s : Sys) : Sys :=
  let d := s.dev
  if quenched d then s
  else if d.start.resetLow then
    let st : Straps := ⟨straps.node % 128, straps.tier % 4, straps.boot % 4, straps.twin % 4, straps.line % 4⟩
    let d := onStart d (fun x => { x with straps := st, boot := st.boot, resetLow := false })
    { mem := Mem.reset, dev := coldSteps w (coldClear d (if d.start.due = some 0 then 0 else 1)) }
  else
    match d.start.due with
    | some k => if k < 6 then { mem := Mem.reset, dev := coldSteps w d } else s
    | none => s

/-- A start that waits in step 8 has an image that runs: it goes on. -/
def afterLoad (d : Dev) : Dev :=
  match d.start.world with
  | none => d
  | some w =>
    let d := onStart d (fun s => { s with world := none })
    if isWarm d then finishWarm w d else coldDefaults w d

/-- PTP_ACQUIRE_TIMEOUT: step 10 ends with network time FREERUN. -/
def ptpAcquireTimeout (d : Dev) : Dev :=
  let due := d.start.waitFrom + msec (ogetN d Obj.ptpAcquireTimeout 0 0)
  if d.start.state ≠ 0 ∨ d.start.step ≠ 10 then d else finishCold (passUntil d due)

/-- Step 10 ends when a slot is LOCKED. -/
def afterLock (d : Dev) : Dev :=
  if d.start.state = 0 ∧ d.start.step = 10 ∧ (d.time.slots.any (fun s => decide (s.state = 2))) then finishCold d else d

/-- FRAME_RECEIVED, with the end of step 10 that a PTP message may bring. -/
def frameArrives (p dt : Nat) (f : Frame) (d : Dev) : Dev := afterLock (frameReceived p dt f d)

/-! ### StartCommand (Table 16.9) -/

/-- PROCEED: StartCommand 6. -/
def proceed (d : Dev) : Dev := if d.start.state = 0 ∧ d.start.step = 10 then finishCold (accept d) else refuse d abortState
/-- WARM: StartCommand 1. -/
def warm (d : Dev) : Dev := if d.start.state = 1 then beginWarm (accept d) 6 false else refuse d abortState
/-- WARM_SELFTEST: StartCommand 2. -/
def warmSelftest (d : Dev) : Dev := if d.start.state = 1 then beginWarm (accept d) 6 true else refuse d abortState
/-- COLD: StartCommand 3. -/
def cold (d : Dev) : Dev := if d.start.state = 1 then beginCold (accept d) 2 else refuse d abortState
/-- REKINDLE: StartCommand 4; with STRAP_BOOT 3 it follows boot mode 0 (R325). -/
def rekindle (d : Dev) : Dev :=
  if d.start.state = 3 then
    beginCold (onStart (accept d) (fun s => { s with boot := if s.straps.boot = 3 then 0 else s.straps.boot })) 3
  else refuse d abortState
/-- REKINDLE_RECOVERY: StartCommand 5, with boot mode 1. -/
def rekindleRecovery (d : Dev) : Dev :=
  if d.start.state = 3 then beginCold (onStart (accept d) (fun s => { s with boot := 1 })) 3 else refuse d abortState

/-- A write of StartCommand. -/
def startCommand (v : Nat) (d : Dev) : Dev :=
  match v with
  | 1 => warm d
  | 2 => warmSelftest d
  | 3 => cold d
  | 4 => rekindle d
  | 5 => rekindleRecovery d
  | 6 => proceed d
  | _ => refuse d abortRange

/-- START_STEP_TIMEOUT: a start that is due exceeds the bound of a step, and fails (R322). -/
def startStepTimeout (step : Nat) (d : Dev) : Dev :=
  if d.start.resetLow ∨ quenched d ∨ step = 0 ∨ 12 < step then d
  else
    match d.start.due with
    | some _ => failStart (atStep (onStart d (fun s => { s with due := none })) step) step 2
    | none => d

/-! ### Firmware load (R319) -/

/-- Whether the device waits in step 8 of boot mode 2. -/
def awaitsImage (d : Dev) : Bool := d.start.world.isSome && decide (d.start.step = 8)

/-- FIRMWARE_LOAD_DATA: image bytes at FirmwareLoadOffset, which advances. -/
def firmwareLoadData (data : Bytes) (d : Dev) : Dev :=
  if quenched d then refuse d abortState
  else if data.len = 0 ∨ 262144 < data.len then refuse d 0x06070010
  else
    let off := ogetN d Obj.firmwareLoadOffset 0 0
    let d := onStart d (fun s => { s with load := (off, data) :: s.load, loadStatus := 1 })
    accept (oset d Obj.firmwareLoadOffset 0 0 ((off + data.len) % 2 ^ 32 : Nat))

/-- VERIFY_AND_COMMIT: FirmwareLoadCommand 1; `signed`: the key hash and the signature of what was received hold. The image received runs, in boot mode 2, or its writing to a flash slot begins;
or it is refused. -/
def verifyAndCommit (signed : Bool) (d : Dev) : Dev :=
  let target := ogetN d Obj.firmwareLoadTarget 0 0
  let i := imageOf d (receivedImage d) signed
  if quenched d ∨ d.start.loadStatus ≠ 1 ∨ (target = 0 ∧ !awaitsImage d) then refuse d abortState
  else if imageOk d i then
    if target = 0 then afterLoad (runImage (onStart (accept d) (fun s => { s with load := [], loadStatus := 4 })) i 2)
    else onStart (accept d) (fun s => { s with loadStatus := 3, loadImage := some i })
  else refusedImage (onStart (accept d) (fun s => { s with loadStatus := imageStatus i })) (some i)

/-- FLASH_WRITE_DONE: the image is in its slot. -/
def flashWriteDone (d : Dev) : Dev :=
  match d.start.loadImage with
  | none => d
  | some i =>
    let slot := ogetN d Obj.firmwareLoadTarget 0 0
    onStart d (fun s => { s with loadImage := none, load := [], loadStatus := 4,
                                 main := if slot = 2 then s.main else some i, recovery := if slot = 2 then some i else s.recovery })

/-- DISCARD: FirmwareLoadCommand 2. -/
def discard (d : Dev) : Dev :=
  if quenched d then refuse d abortState else onStart (accept d) (fun s => { s with load := [], loadStatus := 0 })

/-- RAISE_ROLLBACK_INDEX: FirmwareLoadCommand 3 raises the fused index to that of the image that runs. -/
def raiseRollbackIndex (d : Dev) : Dev :=
  match d.start.image with
  | none => refuse d abortState
  | some i => if quenched d then refuse d abortState else onStart (accept d) (fun s => { s with fused := max (fusedIndex d) i.rollback })

/-- FIRMWARE_LOAD_TIMEOUT: no image has come within FirmwareLoadTimeout, and step 8 fails. -/
def firmwareLoadTimeout (d : Dev) : Dev :=
  let due := d.start.waitFrom + msec (ogetN d Obj.firmwareLoadTimeout 0 0)
  if !awaitsImage d ∨ !canReach d due then d
  else failStart (onStart (passUntil d due) (fun s => { s with world := none })) 8 2

/-! ### Rails, sensors, RESET_N -/

/-- RAIL_OUT_OF_RANGE: while the monitors are armed, the device quenches (R312). -/
def railOutOfRange (rail : Nat) (d : Dev) : Dev :=
  if d.start.armed ∧ rail < 10 ∧ !quenched d then raiseFc4 d 0x0D40 rail 0 else d

/-- One sensor reads `temp`. -/
def sensorReads (d : Dev) (s : Nat) (temp : Int) : Dev := setTemps d (d.start.temps.set s temp)

/-- THERMAL_WARNING: a sensor reaches ThermalWarning; one report until the warning re-arms (R312). -/
def thermalWarning (s : Nat) (temp : Int) (d : Dev) : Dev :=
  if 6 ≤ s ∨ d.start.resetLow then d
  else
    let d := sensorReads d s temp
    if d.start.warned ∨ temp < oget d Obj.thermalWarning 0 0 then d
    else report (bump (onStart d (fun x => { x with warned := true })) Obj.thermalWarnings 0 0) 0 0x0D01 s 0

/-- THERMAL_WARNING_REARM: every sensor has fallen 5.0 °C below ThermalWarning. -/
def thermalWarningRearm (temps : List Int) (d : Dev) : Dev :=
  if temps.length ≠ 6 ∨ d.start.resetLow then d
  else
    let d := setTemps d temps
    if temps.all (fun t => decide (t ≤ oget d Obj.thermalWarning 0 0 - 50)) then onStart d (fun x => { x with warned := false }) else d

/-- OVER_TEMPERATURE: a sensor at or above OverTemperatureLimit for 1 ms quenches the device. -/
def overTemperature (s : Nat) (temp : Int) (d : Dev) : Dev :=
  if 6 ≤ s ∨ d.start.resetLow then d
  else
    let d := sensorReads d s temp
    if temp < oget d Obj.overTemperatureLimit 0 0 ∨ quenched d then d else raiseFc4 d 0x0D41 s 0

/-- RESET_N_LOW (R314): outputs are idle, submitted NVMe commands are abandoned and the monitors disarmed. -/
def resetNLow (d : Dev) : Dev :=
  if d.start.resetLow then d
  else
    let d := (List.range (pcieOf d)).foldl (fun d r => emit d (.abandon r)) (haltOutputs d)
    onStart d (fun s => { s with resetLow := true, armed := false, ready := false, world := none, due := some 1,
                                 state := if s.state = 4 then 4 else 0, step := 0 })

/-- VDD_IO18_REMOVED: power is gone; nothing is left but the fuses, and the flash and drives that the next start finds
(R324). -/
def vddIo18Removed (s : Sys) : Sys :=
  let d := s.dev
  { Sys.reset with dev := { Dev.reset with start := { Start.reset with fused := d.start.fused }, out := d.out, free := d.free } }

end Sys2Proof.Machine
end

