-- ==== Sys2Proof/Machine/Collector.lean ====
section
/-! DEFINITION. FAULT_REPORT: the collector's reaction to a report of any detector (R295, R296, Tables 15.1 to 15.3), the
watchdog (R306), and the two audits whose failure resets blocks (R62, R199). -/
namespace Sys2Proof.Machine

/-- Whether a class and code stand in Table 15.2 and the instance names an item that the tier powers. Escalation is no
detector's report (R299), and the codes of R297 come from firmware alone. -/
def reportable (d : Dev) (cls code inst detail : Nat) : Bool :=
  match cls, code with
  | 0, 0x0101 => portExists d inst
  | 0, 0x0102 => portExists d inst
  | 0, 0x0201 => decide (inst < 2)
  | 0, 0x0202 => decide (inst < 2)
  | 0, 0x0203 => decide (inst < 2)
  | 0, 0x0204 => decide (inst = 0)
  | 0, 0x0205 => decide (inst = 0)
  | 0, 0x0301 => decide (inst < enginesOf d)
  | 0, 0x0302 => decide (inst < enginesOf d)
  | 0, 0x0303 => decide (inst = 0)
  | 0, 0x0401 => decide (inst < enginesOf d)
  | 0, 0x0601 => decide (inst < 128)
  | 0, 0x0801 => decide (inst = 0)
  | 0, 0x0802 => decide (inst = 0)
  | 0, 0x0A01 => decide (inst = 0)
  | 0, 0x0B01 => decide (inst = 0)
  | 0, 0x0B02 => decide (inst < linesPowered d)
  | 0, 0x0C01 => decide (inst = 0)
  | 0, 0x0C02 => decide (inst < 2)
  | 0, 0x0D01 => decide (inst < 6)
  | 1, 0x0310 => decide (inst < enginesOf d)
  | 1, 0x0311 => decide (inst < hearthsOf d)
  | 1, 0x0510 => decide (inst < 262144)
  | 1, 0x0A10 => decide (inst < checksOf d)
  | 1, 0x0A11 => decide (inst < pcieOf d)
  | 1, 0x0A12 => decide (inst < pcieOf d)
  | 1, 0x0E10 => decide (inst < ddrOf d)
  | 2, 0x0511 => decide (inst < 262144)
  | 2, 0x0610 => decide (inst < 65536)
  | 2, 0x0611 => if bitSet detail 31 then shas d.stk.tcbs inst else decide (inst < 65536)
  | 2, 0x0810 => decide (inst < 65536)
  | 2, 0x0A13 => decide (inst < 2 * pcieOf d)
  | 2, 0x0A14 => decide (inst = 0)
  | 3, 0x0120 => portExists d inst
  | 3, 0x0121 => decide (inst < 24)
  | 3, 0x0220 => decide (inst = 0)
  | 3, 0x0320 => decide (inst < hearthsOf d)
  | 3, 0x0412 => decide (inst < hearthsOf d)
  | 3, 0x0520 => decide (inst = 0)
  | 3, 0x0820 => decide (inst = 0)
  | 3, 0x0920 => decide (inst < compressorsOf d)
  | 3, 0x0A20 => decide (inst < checksOf d)
  | 3, 0x0A21 => decide (inst < pcieOf d)
  | 3, 0x0B20 => decide (inst = 0)
  | 3, 0x0C20 => decide (inst = 0)
  | 3, 0x0E20 => decide (inst < ddrOf d)
  | 4, 0x0C40 => decide (inst = 0)
  | 4, 0x0D40 => decide (inst < 10)
  | 4, 0x0D41 => decide (inst < 6)
  | _, _ => false

/-- The thread that serves a channel goes FAULTED where it runs or waits (R140). -/
def faultThread (d : Dev) (t : Nat) : Dev :=
  match tcbOf d t with
  | none => d
  | some k => setTcb (stopEngines d (fun e => decide ((engineOf d e).thread = some t))) t { k with state := 4, move := none, via := none }

/-- The isolation that a report of class FC2 brings (Tables 15.1, 15.2); it takes place in a consequential window too
(R298). -/
def fc2Reaction (d : Dev) (code inst detail : Nat) : Dev :=
  match code with
  | 0x0511 => setQueue d inst { queueOf d inst with isolated := true }
  | 0x0610 => isolateChannel d inst
  | 0x0810 => suppressHere (isolateChannel d inst) inst
  | 0x0611 =>
    if bitSet detail 31 then faultThread d inst
    else isolateChannel (((d.stk.tcbs.find? (fun p => decide (p.2.channel = inst))).map (fun p => faultThread d p.1)).getD d) inst
  | _ => d

/-- An FC3 report: its block's reset starts, or a warm start of LastStartKind `warm` begins (R298, Table 15.3). A report
that asks for a warm start while the device does not run starts nothing. -/
def fc3Reaction (d : Dev) (code inst detail warm : Nat) : Dev :=
  if (blockOf code inst).1 = 8 ∧ d.start.state ≠ 1 then report d 3 code inst detail
  else
    match raiseFc3 d code inst detail with
    | (d, some (8, _)) => beginWarm d warm false
    | (d, some (kind, b)) => resetStart d kind b
    | (d, none) => d

/-- FAULT_REPORT: the collector receives a report of class `cls` (R295). In a quench it only logs. -/
def faultReport (cls code inst detail : Nat) (d : Dev) : Dev :=
  let detail := detail % 2 ^ 32
  if d.start.resetLow ∨ reportable d cls code inst detail = false then d
  else if quenched d then report d cls code inst detail
  else
    match cls with
    | 2 => if code = 0x0A13 then failNamespace d inst else fc2Reaction (report d 2 code inst detail) code inst detail
    | 3 => if code = 0x0820 then forceWithdraw d else fc3Reaction d code inst detail 8
    | 4 => raiseFc4 d code inst detail
    | _ => report d cls code inst detail

/-- WATCHDOG: WatchdogGrace has passed since the heartbeat was lost. Where none came since Ready the start has failed (R322);
otherwise a warm start begins (R306). -/
def watchdog (d : Dev) : Dev :=
  match d.faults.hbLost with
  | none => d
  | some t =>
    let due := t + msec (ogetN d Obj.watchdogGrace 0 0)
    if !isReady d ∨ d.start.state ≠ 1 ∨ quenched d ∨ !canReach d due then d
    else
      let d := passUntil d due
      if d.faults.hbArmed then fc3Reaction d 0x0C20 0 0 7
      else failStart (report d 3 0x0C20 0 0) d.start.step 3

/-- FLUE_CREDIT_MISMATCH: an audit point of a flue stop finds a virtual channel whose terms do not add up (R62). -/
def flueCreditMismatch (stop : Nat) (d : Dev) : Dev :=
  if 24 ≤ stop ∨ d.start.resetLow ∨ quenched d then d
  else
    let links := (List.range 432).filter (fun w => decide (w / 18 = stop))
    fc3Reaction (links.foldl (fun d w => bump d Obj.flueAuditMismatches w 0) d) 0x0121 stop 0 8

/-- CELL_AUDIT: an audit point finds the cells of the queue memory not conserved (R199). -/
def cellAudit (d : Dev) : Dev :=
  if d.start.resetLow ∨ quenched d then d else fc3Reaction (bump d Obj.cellAuditMismatches 0 0) 0x0520 0 0 8

end Sys2Proof.Machine
end

