-- ==== Sys2Proof/Machine/Epoch.lean ====
section
/-! DEFINITION. Epochs (R86, R87, Table 4.9): the commit, its abort, and what the target tick does in each unit, with the
effects of the values that an epoch, or a write before Ready (R317), puts in force. -/
namespace Sys2Proof.Machine

/-! ### Units (Table 4.9) -/

/-- The units that exist. -/
def unitReal (u : Nat) : Bool :=
  decide (u < 5) || (decide (16 ≤ u) && decide (u < 60)) || (decide (64 ≤ u) && decide (u < 68)) || (decide (80 ≤ u) && decide (u < 98))

/-- Whether a unit is gated: not powered by the tier, or the line shell while it is not awake (R87, R255). -/
def unitGated (d : Dev) (u : Nat) : Bool :=
  if u = 4 then decide (d.line.awake ≠ 2)
  else if u < 16 then false
  else if u < 48 then !portExists d (u - 16)
  else if u < 64 then decide (hearthsOf d ≤ u - 48)
  else if u < 80 then decide (compressorsOf d ≤ u - 64)
  else if u < 96 then decide (checksOf d ≤ u - 80)
  else decide (pcieOf d ≤ u - 96)

/-- Whether a unit is in block reset (Table 15.3). -/
def unitInReset (d : Dev) (u : Nat) : Bool :=
  let (kind, b) :=
    if u = 4 then (6, 0) else if u < 16 then (0, 0) else if u < 48 then (1, u - 16) else if u < 64 then (2, u - 48)
    else if u < 80 then (3, u - 64) else if u < 96 then (4, u - 80) else (5, u - 96)
  decide (kind ≠ 0) && decide ((blockSt d kind b).phase = 1)

/-- UnitState (0x2609:04). -/
def unitState (d : Dev) (u : Nat) : Nat :=
  if !unitReal u then 3 else if unitGated d u then 2 else if shas d.dict.units u then 1 else 0

/-- UnitsBehind: units in state 1. -/
def unitsBehind (d : Dev) : Nat := (d.dict.units.filter (fun p => decide (unitState d p.1 = 1))).length

/-- The unit to which the object of a key belongs alone: the line shell and its ports, a port, a hearth (Table 4.9). -/
def unitOfKey (key : Nat) : Option Nat :=
  let idx := key / 256 % 65536
  let i := key / 2 ^ 24
  if 0x2B00 ≤ idx ∧ idx < 0x2B80 then some 4
  else if 0x3000 ≤ idx ∧ idx < 0x3040 then some (16 + i)
  else if 0x4000 ≤ idx ∧ idx < 0x4040 then some (48 + i)
  else none

/-- Whether the value of a key has to wait: its unit is in block reset, or is the line shell asleep (R87). -/
def heldBack (d : Dev) (key : Nat) : Bool :=
  (unitOfKey key).any (fun u => if u = 4 then unitGated d u || unitInReset d u else !unitGated d u && unitInReset d u)

/-- Whether a value takes effect from the first tick closed after its epoch's target tick (R111): TalkerLimit, PriorityMemberCount,
TalkerHangover, MixShift. -/
def mixKey (key : Nat) : Bool :=
  let idx := key / 256 % 65536
  decide (idx = 0x2702) || decide (idx = 0x2770)

/-- The values of some keys as they are before an epoch applies at tick n are kept for the closes of that tick and earlier ones. -/
def notePast (n : Nat) (values : SMap Int) (d : Dev) : Dev :=
  (values.filter (fun p => mixKey p.1)).foldl (fun d p =>
    let l := (sget d.dict.past p.1 []).filter (fun x => decide (n < x.1 + 1024))
    { d with dict := { d.dict with past := sput d.dict.past p.1 ((n, sfind d.dict.obj p.1) :: l) } }) d

/-! ### Effects of values that come into force -/

/-- Whether some values hold the key of an object's instance. -/
def setsKey (values : SMap Int) (r : Row) (i : Nat) : Bool := shas values (r.key i 0)

/-- Trigger unit k under new settings: armed again by a change of when it fires, and the pin that it owns at rest (R35, R36). The
pins that units have lost are left before. -/
def triggerEpoch (values : SMap Int) (d : Dev) (k : Nat) : Dev :=
  let timing := [Obj.trigMode, Obj.trigTimeBase, Obj.trigStartSeconds, Obj.trigStartNanoseconds, Obj.trigPeriod]
  let pin := [Obj.trigMode, Obj.trigTarget, Obj.trigOutPin, Obj.trigPolarity]
  let d := if timing.any (fun r => setsKey values r k) then
      armTrigger d k
    else d
  if pin.any (fun r => setsKey values r k) then restPin d k else d

/-- StreamKind opens and closes a capture stream at its epoch (R222). -/
def streamEpoch (n : Nat) (d : Dev) (p : Nat × Int) : Dev :=
  let s := p.1 / 2 ^ 24
  if p.1 % 2 ^ 24 ≠ Obj.streamKind.key 0 0 ∨ !d.time.ticking then d
  else
    match streamOf d s with
    | none => if p.2 = 2 then openStream d s 2 0xFFFFFFFF 0 n else d
    | some x => if p.2 = 0 ∧ x.kind = 2 ∧ x.state = 1 then endStream d s n else d

/-- A firmware context under new parameters (R162). -/
def oaEpoch (n : Nat) (values : SMap Int) (d : Dev) : Dev :=
  let hit := values.filterMap (fun p =>
    let i := p.1 / 2 ^ 24
    if p.1 / 256 % 65536 = 0x2520 ∧ 0x16 ≤ p.1 % 256 ∧ p.1 % 256 ≤ 0x1A ∧ 261632 ≤ i then some (i - 253440) else none)
  hit.eraseDups.foldl (fun d c => oaNewParams d c n) d

/-- What values that have come into force at tick n bring about. `old` is the device before. -/
def valueEffects (old : Dev) (n : Nat) (values : SMap Int) (d : Dev) : Dev :=
  let d := settleFlows d
  let d := slotEnabling (slotEnabling d 0) 1
  let d := if setsKey values Obj.preferredDomain 0 then reselect d else d
  let d := if setsKey values Obj.ref10mEnable 0 then steerHold d else d
  let d := (List.range 16).foldl (triggerEpoch values) ((List.range 16).foldl leavePin d)
  let d := values.foldl (streamEpoch n) d
  let d := oaEpoch n values d
  let d := if setsKey values Obj.holdSegment 0 then drainStore d else d
  lineEpoch old d

/-! ### The target tick (R87) -/

/-- A unit that could not apply takes the epochs that wait for it, in order. -/
def catchUp (n : Nat) (d : Dev) (u : Nat) : Dev :=
  match sfind d.dict.units u with
  | none => d
  | some x =>
    if unitGated d u ∨ unitInReset d u then d
    else
      let values := x.waiting.foldl (fun m w => sover m w.2) []
      let old := d
      let d := { d with dict := { d.dict with obj := sover d.dict.obj values, units := serase d.dict.units u } }
      let d := if 96 ≤ u then x.waiting.foldl (fun d w => storeEpoch (u - 96) w.1 n d) d else d
      if values.isEmpty then d else valueEffects old n values d

/-- What the target tick of epoch e does in unit u: it takes the tag, or it waits. A gated unit is not armed; one in block
reset reports EPOCH_MISS. A unit that waits keeps its values until it can apply the new ones: of its own objects, and of those that the
epoch has changed for other units. `old` is the device before. -/
def unitEpoch (n e : Nat) (old : Dev) (values : SMap Int) (d : Dev) (u : Nat) : Dev :=
  let gated := unitGated d u
  if !gated ∧ !unitInReset d u ∧ !shas d.dict.units u then
    if 96 ≤ u then storeEpoch (u - 96) e n d else d
  else if gated ∧ u ≠ 4 then d
  else
    let mine := values.filter (fun p => unitOfKey p.1 = some u)
    let x := (sfind d.dict.units u).getD ⟨old.dict.epoch, [], []⟩
    let kept := (values.filter (fun p => unitOfKey p.1 = none)).foldl (fun m p =>
      if shas m p.1 then m else sput m p.1 (sfind old.dict.obj p.1)) x.kept
    let x := { x with waiting := x.waiting ++ [(e, mine)], kept := kept }
    let d := { d with dict := { d.dict with units := sput d.dict.units u x } }
    if gated then d else report (bump d Obj.unitEpochMisses u 0) 0 0x0601 u e

/-- The start of tick n, before any other work of it: units that can catch up do so, and a commit whose target it is applies
(R87). -/
def epochTick (n : Nat) (d : Dev) : Dev :=
  let d := (skeys d.dict.units).foldl (catchUp n) d
  match d.dict.commit with
  | none => d
  | some c =>
    if n < c.tick then d
    else
      let old := d
      let now_ := c.values.filter (fun p => !heldBack d p.1)
      let d := notePast n now_ d
      let d := { d with dict := { d.dict with obj := sover d.dict.obj now_, epoch := c.epoch, commit := none } }
      let d := ((List.range 98).filter unitReal).foldl (unitEpoch n c.epoch old c.values) d
      valueEffects old n now_ d

/-- LINE_SHELL_WAKE_COMPLETE: the line shell has calibrated and, before its first output, applies the committed epochs
(R255, R87). -/
def lineShellWakeComplete (d : Dev) : Dev :=
  if d.line.awake ≠ 1 then d else catchUp (curTick d) (lineAwake d) 4

/-! ### Commit and abort (R86) -/

/-- Whether a commit comes to a joiner from its partner, which fixes the join boundary by it: the epoch that both apply is the
partner's next one (Table 10.8, step 4). -/
def forwarded (d : Dev) : Bool := decide (d.twin.state = 2) && decide (d.twin.joinStep = 3)

/-- EPOCH_COMMIT: the staging set becomes epoch `e` for tick `t`. -/
def epochCommit (e t : Nat) (d : Dev) : Dev :=
  if !isReady d ∨ quenched d then refuse (bump d Obj.commitsRefused 0 0) abortState
  else if (e ≠ (d.dict.epoch + 1) % 2 ^ 32 ∧ !forwarded d) ∨ t < curTick d + 4 ∨ d.dict.commit.isSome then refuse (bump d Obj.commitsRefused 0 0) abortStore
  else
    let c : Commit := { epoch := e, tick := t, values := d.dict.staged }
    joinCommit t (bump (accept { d with dict := { d.dict with commit := some c, staged := [] } }) Obj.epochsCommitted 0 0)

/-- EPOCH_ABORT: the pending commit goes back to staging, beneath later writes. -/
def epochAbort (d : Dev) : Dev :=
  match d.dict.commit with
  | none => refuse d abortState
  | some c =>
    if c.tick < curTick d + 2 ∨ quenched d then refuse d abortState
    else
      let d := accept { d with dict := { d.dict with commit := none, staged := sover c.values d.dict.staged } }
      if d.twin.joinStep = 4 then onTwin d (fun w => { w with joinStep := 3, joinTick := none }) else d

end Sys2Proof.Machine
end

