-- ==== Sys2Proof/Machine/DictRead.lean ====
section
/-! DEFINITION. Reading the dictionary (R279, R280, R282): the present value of every object that a block's own state gives,
chapter by chapter, over the values that the dictionary itself holds. -/
namespace Sys2Proof.Machine

/-- Index and subindex of a row's first element, as one number. -/
def Row.code (r : Row) : Nat := r.idx * 256 + r.sub

/-- A natural number as an object's value. -/
def natVal (n : Nat) : Option Int := some (n : Int)
/-- A flag as an object's value. -/
def boolVal (b : Bool) : Option Int := some (b2n b : Int)

/-! ### Present values, by chapter -/

/-- Time objects (Table 2.8). -/
def readTime (d : Dev) (r : Row) (i _j : Nat) : Option Int :=
  let t := d.time
  match r.code with
  | 0x220001 => natVal t.state
  | 0x220002 => natVal (if t.state = 0 ∨ t.state = 4 then 255 else t.selected)
  | 0x220003 => natVal t.gen
  | 0x220004 => natVal (curTick d)
  | 0x220005 => some (if t.started then mediaD t else 0)
  | 0x220006 => some t.tickOffset
  | 0x220008 => some (t.addend * 1000000000000 / 8589934592)
  | 0x220009 => natVal (if !t.started then 2 else if t.mediaLocked then 0 else 1)
  | 0x220110 => natVal (slotAt d i).state
  | 0x220111 => some (slotAt d i).offset
  | 0x220112 => some ((slotAt d i).mpd.getD 0)
  | 0x220113 => natVal (((slotAt d i).master.map (fun m => m.data.identity)).getD 0)
  | 0x220114 => natVal (slotAt d i).cands.length
  | 0x220502 => if t.dacHeld then natVal t.dacCode else none
  | 0x22100F => natVal (if (triggerOf d i).armed then 1 else if (triggerOf d i).done then 2 else 0)
  | 0x223005 => natVal (captureOf d i).records.length
  | _ => none

/-- State of flow entry n: 0 free, 1 staged, 2 installed, 3 installed with a staged change. -/
def flowEntryStateOf (d : Dev) (n : Nat) : Nat :=
  match sfind d.fwd.placed n with
  | none => 0
  | some 1 => 1
  | some _ =>
    let touched := fun (m : SMap Int) => m.any (fun p => decide (p.1 / 2 ^ 24 = n) && decide (p.1 / 256 % 65536 = 0x2140))
    if touched d.dict.staged || d.dict.commit.any (fun c => touched c.values) then 3 else 2

/-- Port and forwarding objects (Tables 3.11, 3.12). -/
def readPorts (d : Dev) (r : Row) (i _j : Nat) : Option Int :=
  match r.code with
  | 0x210102 => natVal (d.fwd.placed.filter (fun p => decide (p.2 = 2))).length
  | 0x210103 => natVal (d.fwd.placed.filter (fun p => decide (p.2 = 1))).length
  | 0x210202 => natVal (cipherMbits d)
  | 0x210305 => natVal d.fwd.nodes.length
  | 0x21400E => natVal (flowEntryStateOf d i)
  | 0x215009 => some (oget d Obj.flueAuditMismatches (i / 18 * 18) 0)
  | 0x300101 => boolVal (portOf d i).linkUp
  | 0x300102 => natVal (if (portOf d i).linkUp then rateCode d i else 0)
  | _ => none

/-- A counter of an endpoint context, by its place in 0x2620:05 to :0B. -/
def endpointCounter (d : Dev) (i j : Nat) : Nat :=
  epF d i ([Ep.rxPackets, Ep.rxOctets, Ep.txPackets, Ep.txOctets, Ep.authFailures, Ep.replayDrops, Ep.sourceMismatch].getD j Ep.rxPackets)

/-- Endpoint, setup and epoch objects (Table 4.11). -/
def readCalls (d : Dev) (r : Row) (i j : Nat) : Option Int :=
  match r.code with
  | 0x260002 => natVal (d.endpoints.filter (fun p => decide (1 ≤ getF p.2 Ep.state) && decide (getF p.2 Ep.state ≤ 3))).length
  | 0x260004 => natVal d.chans.length
  | 0x260006 => natVal (d.groups.filter (fun g => !g.2.isEmpty)).length
  | 0x260103 => natVal d.setup.next
  | 0x260104 => natVal d.setup.pending.length
  | 0x26010C => natVal d.setup.results.length
  | 0x260201 => natVal 0
  | 0x260202 =>
    let k := ogetN d Obj.keyTransportKey 0 0
    natVal (if k = 0 then 0 else Config.keyId (Config.unwrapKey 0 k) % 2 ^ 32)
  | 0x260306 => natVal (cipherCommitted d / 1000000)
  | 0x260802 => natVal d.dict.epoch
  | 0x260803 => natVal ((d.dict.commit.map Commit.epoch).getD 0)
  | 0x260804 => natVal ((d.dict.commit.map Commit.tick).getD 0)
  | 0x260807 => natVal d.dict.staged.length
  | 0x260808 => natVal (unitsBehind d)
  | 0x260902 => natVal (if unitReal i then (if unitGated d i ∧ i ≠ 4 then 0 else unitTag d i) else 0)
  | 0x260904 => natVal (unitState d i)
  | 0x262003 => natVal (epF d i Ep.state)
  | 0x262004 => if shas d.endpoints i then natVal (epF d i Ep.boundChannel) else none
  | 0x262005 => natVal (endpointCounter d i j)
  | 0x264002 => natVal (if (sget d.groups i []).isEmpty then 0 else 1)
  | 0x264003 => natVal (sget d.groups i []).length
  | 0x264004 => some (oget d Obj.mixTalkerLimit i 0)
  | 0x264005 => natVal (oaOf d i).selected.length
  | _ => none

/-- Channel window (0x2630). -/
def readChannel (d : Dev) (r : Row) (i _j : Nat) : Option Int :=
  match chanOf d i with
  | none => none
  | some x =>
    match r.code with
    | 0x263002 => natVal x.state
    | 0x263003 => natVal x.endpoint
    | 0x263004 => natVal x.output
    | 0x263005 => natVal x.group
    | 0x263006 => natVal x.member
    | 0x263007 => natVal x.engine
    | 0x263008 => natVal x.thread
    | 0x263009 => natVal x.phase
    | 0x26300A => natVal x.frameTicks
    | 0x26300B => natVal x.cost
    | 0x26300C => boolVal x.traceA
    | 0x26300D => natVal x.tag
    | 0x26300E => natVal x.depth
    | 0x26300F => natVal x.target
    | 0x263010 => natVal x.jmin
    | 0x263011 => natVal x.jmax
    | 0x263012 => natVal x.openTick
    | 0x263027 => natVal (getF x.body ChBody.evidenceStream)
    | _ => none

/-- CancellerState of a channel (0x2760:02). -/
def cancellerStateOf (d : Dev) (x : Channel) : Nat :=
  if ogetU d (unitOf x) Obj.echoEnable (profileOf x) 0 = 0 then 0
  else if x.canceller.bypassed then 4
  else if x.canceller.fadeLeft ≠ 0 then 3
  else if x.canceller.converged then 2
  else 1

/-- Treatment objects (Table 5.8). -/
def readTreatment (d : Dev) (r : Row) (i _j : Nat) : Option Int :=
  match r.code with
  | 0x27101A => natVal (profileCost d i true)
  | 0x27101B => natVal (profileCost d i false)
  | 0x27101C => natVal (channelsUsing d i)
  | 0x276002 => (chanOf d i).map (fun x => (cancellerStateOf d x : Int))
  | 0x276009 => (chanOf d i).map (fun x => (b2n x.canceller.held : Int))
  | _ => none

/-- Gauge, steering, engine and Stoker objects (Tables 8.11 to 8.13). -/
def readStoker (d : Dev) (r : Row) (i j : Nat) : Option Int :=
  let w := sget d.stk.waits i WaitStats.zero
  match r.code with
  | 0x230003 => natVal (sumNat ((List.range (enginesOf d)).map (allocatedOf d)))
  | 0x230004 => natVal (sumNat (d.stk.tcbs.map (fun p => p.2.cost)))
  | 0x230005 => natVal ((List.range (enginesOf d)).filter (fun e => decide (0 < deficitOf d e))).length
  | 0x230108 => natVal d.stk.avs.command
  | 0x230109 => natVal (vddFloor d)
  | 0x23010D => natVal (mostLoaded d)
  | 0x23010E => natVal (loadRatio d (mostLoaded d))
  | 0x232002 => natVal (capacityOf d i)
  | 0x232003 => natVal (allocatedOf d i)
  | 0x232004 => natVal (freeOf d i)
  | 0x232005 => natVal (deficitOf d i)
  | 0x232009 => natVal (d.stk.tcbs.filter (fun p => decide (p.2.home = i))).length
  | 0x23200A => natVal (readyDepthOf d i)
  | 0x23200C => natVal w.least
  | 0x23200D => natVal (w.sum / w.count)
  | 0x23200E => natVal w.most
  | 0x232010 => natVal ((loadOf d i (engineOf d i).thread.isSome).last * 10000 / loadWindow)
  | 0x232011 => natVal (runnableOn d i)
  | 0x240002 => natVal d.stk.tcbs.length
  | 0x240011 => natVal d.stk.result
  | 0x244003 => natVal (((tcbOf d i).map Tcb.state).getD 0)
  | 0x244004 => natVal (((tcbOf d i).map (fun k => k.home / 16)).getD 0)
  | 0x400003 => natVal (sumNat ((enginesOfHearth i).map (allocatedOf d)))
  | 0x400004 => natVal (16 * capacityOf d (16 * i))
  | 0x400005 => natVal (readyOf d i).length
  | 0x400101 => natVal (freeOf d (16 * i + j))
  | _ => none

/-- QueueState: 0 unused, 1 active, 2 isolated. -/
def queueStateOf (d : Dev) (q : Nat) : Nat :=
  if (queueOf d q).isolated then 2
  else
    match queueKind q with
    | 0 => b2n (shas d.chans q)
    | 1 => b2n (shas d.chans (q - 65536))
    | 2 => b2n (shas d.chans (q - 131072))
    | 4 => b2n (!queueReserved q)
    | 6 => b2n (!(sget d.groups (q - 253440) []).isEmpty)
    | 7 => b2n (ogetB d Obj.oaEnable q 0)
    | _ => 1

/-- Items that queue q holds and that are not wholly read; entries of open rounds, for an ordered-accumulate context. -/
def queueDepthOf (d : Dev) (q : Nat) : Nat :=
  match queueKind q with
  | 6 => oaHeld (oaOf d (q - 253440))
  | 7 => oaHeld (oaOf d (q - 253440))
  | _ => (queueOf d q).depth

/-- Queue and speech-bank objects (Table 9.8). -/
def readQueues (d : Dev) (r : Row) (i j : Nat) : Option Int :=
  match r.code with
  | 0x250004 => natVal (freeCells d)
  | 0x250005 => natVal (heldCells d)
  | 0x252002 => natVal (queueKind i)
  | 0x252005 => boolVal (queueClassA d i)
  | 0x252009 => natVal (queueDepthOf d i)
  | 0x25200A => natVal (cellsHeld d i)
  | 0x25200B => boolVal (queueOf d i).mark.isSome
  | 0x25200C => boolVal (decide (queueDepthOf d i = 0))
  | 0x252013 => natVal (queueStateOf d i)
  | 0x252015 => natVal (queueOf d i).last
  | 0x25201B => if j = 5 ∧ 253440 ≤ i then natVal (oaHeld (oaOf d (i - 253440))) else none
  | 0x252024 => natVal (queueOf d i).stranded.length
  | 0x254002 => (chanOf d i).map (fun x => if x.rate16 then 5 else 3)
  | 0x254003 => (chanOf d i).map (fun x => (x.banks.filling : Int))
  | 0x254004 => (chanOf d i).map (fun x => (x.banks.draining : Int))
  | _ => none

/-- Twin and evidence objects (Tables 10.10, 11.10). -/
def readTwin (d : Dev) (r : Row) (i _j : Nat) : Option Int :=
  match r.code with
  | 0x280002 => natVal d.twin.state
  | 0x280003 => natVal (leaderRole d)
  | 0x280009 => if unionOn d then none else natVal 0
  | 0x28000F => natVal 0
  | 0x280010 => natVal (twinKeyId d)
  | 0x280012 => natVal (configDigest d (curTick d))
  | 0x282002 => natVal (sget d.twin.states i 0)
  | 0x290006 => natVal (stagingUsed d)
  | 0x29000E => natVal d.ev.streams.length
  | 0x29000F => natVal (d.ev.jobs.filter (fun j => decide (j.state ≠ 2))).length
  | 0x291001 => natVal (compUnit d i).state
  | 0x291002 => natVal ((compUnit d i).stream.getD 0xFFFFFFFF)
  | 0x291006 => natVal ((unitBusyOf d i (compUnit d i).stream.isSome).last * 10000 / loadWindow)
  | 0x292002 => if (streamOf d i).any (fun x => decide (x.kind = 1)) then natVal 1 else none
  | 0x292003 => natVal (((streamOf d i).map Stream.state).getD 0)
  | 0x292006 => (streamOf d i).map (fun x => (x.source : Int))
  | 0x292007 => (streamOf d i).map (fun x => (x.openTick : Int))
  | 0x292008 => (streamOf d i).map (fun x => (x.nextIndex : Int))
  | 0x292009 => natVal (imagesUsed d i)
  | 0x29200A => natVal ((((jobsOf d i).head?).map Job.state).getD 0)
  | _ => none

/-- The open segment. -/
def openSeg (s : Store) : Option Segment := s.segs.find? (fun g => decide (g.reason = 0))

/-- StoreWriteRate: MB/s over the last 60 s. -/
def writeRate (d : Dev) : Nat :=
  sumNat ((d.store.wrote.filter (fun p => decide (now d ≤ p.1 + secs 60))).map Prod.snd) / 60000000

/-- SegmentStatus of segment n. -/
def segmentStatusOf (d : Dev) (n : Nat) : Nat :=
  let s := d.store
  if s.segs.any (fun g => decide (g.number = n)) then 2
  else if !s.ready ∨ n = 0 ∨ s.next ≤ n ∨ n + s.total < s.next then 0
  else if !mapsLive s n then 4
  else
    match sfind s.held n with
    | some h => if h.broken then 5 else 1
    | none => 3

/-- State of check channel k. -/
def checkStateOf (d : Dev) (k : Nat) : Nat :=
  let x := checkOf d k
  if (blockSt d 4 k).phase = 1 then 4
  else if x.sealing.isSome then (if x.job.isSome then 3 else 2)
  else b2n x.job.isSome

/-- Check and store objects (Table 12.13). -/
def readStore (d : Dev) (r : Row) (i j : Nat) : Option Int :=
  let s := d.store
  match r.code with
  | 0x2A0005 => natVal (storeState d)
  | 0x2A0006 => natVal s.identity
  | 0x2A0007 => natVal s.total
  | 0x2A0008 => natVal (((openSeg s).map Segment.number).getD (if s.ready then s.next else 0))
  | 0x2A0009 => natVal (((openSeg s).map Segment.offset).getD 0)
  | 0x2A000A => natVal ((s.held.head?.map Prod.fst).getD 0)
  | 0x2A000E => natVal s.free
  | 0x2A000F => natVal (writeRate d)
  | 0x2A0010 => if s.total = 0 then natVal 0 else if writeRate d = 0 then none else natVal ((s.total - 1) * 4194304 / (writeRate d * 1000000))
  | 0x2A0016 => if j = 2 then natVal (sumNat (s.segs.map (fun g => g.records.length)) + s.waiting.length) else none
  | 0x2A001F => natVal s.lastTick
  | 0x2A1001 => natVal (checkStateOf d i)
  | 0x2A1009 => natVal ((checkBusyOf d i (checkOf d i).on).last * 10000 / loadWindow)
  | 0x2A3001 => boolVal (shas s.linkUp i)
  | 0x2A3002 => natVal (sget s.linkUp i (0, 0)).1
  | 0x2A3003 => natVal (sget s.linkUp i (0, 0)).2
  | 0x2A3006 => natVal (nameSt s (2 * i)).state
  | 0x2A3007 => natVal (nameSt s (2 * i + 1)).state
  | 0x2A3008 => natVal (nameSt s (2 * i)).capacity
  | 0x2A3009 => natVal (nameSt s (2 * i + 1)).capacity
  | 0x2A300A =>
    let lba := fun (k : Nat) => if shas s.names k then (nameSt s k).lba else 0
    natVal (lba (2 * i) + lba (2 * i + 1) * 65536)
  | 0x2A300C => if shas s.names (2 * i) || shas s.names (2 * i + 1) then none else natVal 0
  | 0x2A6004 => natVal (segmentStatusOf d i)
  | _ => none

/-- Line objects (Table 13.6). -/
def readLine (d : Dev) (r : Row) (i _j : Nat) : Option Int :=
  let (l, k, m) := lineFilter d i
  match r.code with
  | 0x2B0004 => boolVal d.line.locked
  | 0x2B0007 => natVal d.line.calibration
  | 0x2B0008 => some d.line.calTemp
  | 0x2B0009 => some (lineDieTemp d)
  | 0x2B400C => some (lineOf d i).dc
  | 0x2B400D => if (lineOf d i).bound.isSome then natVal 1 else none
  | 0x2B4010 => natVal (rateOfLM l m)
  | 0x2B4011 => natVal (groupDelayOf l k m)
  | 0x2B4012 => natVal (settlingOf l k m)
  | 0x2B4013 => natVal ((lineOf d i).bound.getD 0xFFFFFFFF)
  | _ => none

/-- A key identifier of a Gencel Object Access slot: 0 where it is empty (R288). -/
def goaKeyIdOf (d : Dev) (j : Nat) : Nat :=
  let k := d.goa.keys.getD j 0
  if k = 0 then 0 else Config.keyId (Config.unwrapKey 0 k) % 2 ^ 32

/-- Communication, identity and management objects (Tables 14.10, 14.11). -/
def readManagement (d : Dev) (r : Row) (_i j : Nat) : Option Int :=
  match r.code with
  | 0x100100 => natVal (errorReg d)
  | 0x100300 => natVal d.faults.emcyField.length
  | 0x100301 => natVal (d.faults.emcyField.getD j 0)
  | 0x200006 => d.start.image.map (fun i => (i.version : Int))
  | 0x200007 => natVal d.start.imageFrom
  | 0x201006 => natVal d.goa.link
  | 0x201009 => natVal (goaKeyIdOf d j)
  | 0x20100C => natVal d.goa.sessions.length
  | 0x201104 => natVal (if busEnabled d j then (canNode d j).state else 3)
  | _ => none

/-- The log entry with a sequence. -/
def logEntryAt (d : Dev) (n : Nat) : Option (LogEntry × Nat) :=
  match d.faults.low.find? (fun e => decide (e.seq = n)) with
  | some e => some (e, 1)
  | none => (d.faults.ring.find? (fun e => decide (e.seq = n))).map (fun e => (e, 2))

/-- Fault objects (Table 15.9). -/
def readFaults (d : Dev) (r : Row) (i _j : Nat) : Option Int :=
  let b := blockSt d (i / 256) (i % 256)
  match r.code with
  | 0x2C0004 => natVal (faultRing d)
  | 0x2C0005 => natVal ((d.faults.ring.getLast?.map LogEntry.seq).getD 0)
  | 0x2C0006 => natVal d.faults.seq
  | 0x2C0007 => natVal d.faults.low.length
  | 0x2C000D => natVal (d.faults.blocks.filter (fun p => decide (p.2.phase = 1) || decide (p.2.phase = 2))).length
  | 0x2C000E => natVal d.faults.quench
  | 0x2C000F => boolVal d.faults.faultN
  | 0x2C0010 => natVal d.faults.pilot
  | 0x2C2003 => natVal (((logEntryAt d i).map Prod.snd).getD 0)
  | 0x2C4002 => natVal b.phase
  | 0x2C4004 => natVal (b.starts.filter (fun t => decide (now d ≤ t + msec 10000))).length
  | 0x2C4005 => natVal b.lastTick
  | 0x2C4006 => natVal b.cause
  | _ => none

/-- The version of an image that would be accepted, or 0. -/
def versionOf (d : Dev) (i : Option Image) : Nat := ((i.filter (imageOk d)).map Image.version).getD 0

/-- Supply, thermal and start objects (Table 16.11). -/
def readStart (d : Dev) (r : Row) (_i j : Nat) : Option Int :=
  let s := d.start
  match r.code with
  | 0x2D0401 => some (s.temps.getD j 0)
  | 0x2D0407 => some s.tjMax
  | 0x2D1002 => natVal s.state
  | 0x2D1003 => natVal s.step
  | 0x2D1004 => natVal s.kind
  | 0x2D1005 => natVal s.ms
  | 0x2D1006 => natVal s.retention.failedStep
  | 0x2D1007 => natVal s.retention.failReason
  | 0x2D1008 => natVal s.retention.warm
  | 0x2D1009 => natVal s.retention.cold
  | 0x2D100A => natVal s.retention.colds
  | 0x2D100B => natVal s.retention.warms
  | 0x2D100C => natVal s.retention.banked
  | 0x2D1010 => some s.ddrTemp
  | 0x2D2001 => natVal (versionOf d s.main)
  | 0x2D2002 => natVal (versionOf d s.recovery)
  | 0x2D2003 => natVal ((s.image.map Image.rollback).getD 0)
  | 0x2D2004 => natVal (fusedIndex d)
  | 0x2D2005 => natVal s.flash
  | 0x2D200A => natVal s.loadStatus
  | 0x2D200D => natVal ((s.image.map Image.digest).getD 0)
  | _ => none

/-- The value that a block's own state gives an object, if any. -/
def present (d : Dev) (r : Row) (i j : Nat) : Option Int :=
  if atBoundary r.code then some (sget d.dict.shown (r.key i j) 0) else
  if streamCounters.contains r then some (sget d.ev.shown (r.key i j) 0) else
  match r.idx / 256 with
  | 0x21 => readPorts d r i j
  | 0x30 => readPorts d r i j
  | 0x22 => readTime d r i j
  | 0x23 => readStoker d r i j
  | 0x24 => readStoker d r i j
  | 0x40 => readStoker d r i j
  | 0x25 => readQueues d r i j
  | 0x26 => if r.idx = 0x2630 then readChannel d r i j else readCalls d r i j
  | 0x27 => readTreatment d r i j
  | 0x28 => readTwin d r i j
  | 0x29 => readTwin d r i j
  | 0x2A => readStore d r i j
  | 0x2B => readLine d r i j
  | 0x2C => readFaults d r i j
  | 0x2D => readStart d r i j
  | _ => readManagement d r i j

/-- Objects whose value the spec lets nobody compute: loads and errors of analogue or unstated origin. -/
def isFreeRead (r : Row) : Bool :=
  [0x280009, 0x2A0010, 0x2A300C, 0x2D0101, 0x2D0201, 0x2D0301].contains r.code

/-- The present value of an object of fixed length: that of the block, that held, or its default. -/
def readValue (d : Dev) (r : Row) (i j : Nat) : Int × Dev :=
  if r.code = 0x2B4014 then
    let (n, d) := unsettledLeft d i
    ((n : Int), d)
  else
    match present d r i j with
    | some v => (v, d)
    | none =>
      if isFreeRead r then
        let (n, d) := freshNat d
        (((n % 2 ^ (8 * r.ty.size) : Nat) : Int), d)
      else (oget d r i j, d)

/-- The value as the object's bytes, in its type's length. -/
def valueBytes (r : Row) (v : Int) : Bytes := ⟨r.ty.size, r.ty.encode v⟩

/-! ### DOMAIN objects -/

/-- A DOMAIN as it stands now; `frees` tells that reading it frees records of so many bytes each. -/
def readDomain (d : Dev) (r : Row) (i : Nat) : Bytes :=
  match r.code with
  | 0x223006 => joinBytes ((captureOf d i).records.map (bytesOf 24))
  | 0x260102 => joinBytes (d.setup.results.map (bytesOf 24))
  | 0x262002 => bytesOf 512 (setF (setF (setF (epOf d i) Ep.rxKeyBlock 0) Ep.txKeyBlock 0) Ep.rxKeyBlockPrevious 0)
  | 0x264006 => joinBytes ((List.range 256).map (fun m => bytesOf 4 (sget (sget d.groups i []) m 0xFFFFFFFF)))
  | 0x23200F => joinBytes ((sget d.stk.waits i WaitStats.zero).hist.map (bytesOf 4))
  | 0x244002 => bytesOf 64 (tcbRecordOf d i)
  | 0x2A6002 => bytesOf 4096 (((sfind d.store.held i).map Held.header).getD 0)
  | 0x2A6003 => ((sfind d.store.held i).map Held.data).getD noBytes
  | 0x2C2002 => bytesOf 48 (((logEntryAt d i).map (fun e => e.1.record)).getD 0)
  | _ => noBytes

/-- Whether reading a DOMAIN frees the records read (R39, R75). -/
def readFrees (r : Row) : Bool := decide (r.code = 0x223006) || decide (r.code = 0x260102)

/-- The records of such a DOMAIN, oldest first. -/
def readRecords (d : Dev) (r : Row) (i : Nat) : List Nat :=
  match r.code with
  | 0x223006 => (captureOf d i).records
  | 0x260102 => d.setup.results
  | _ => []

/-- Records that a read has returned are freed: object by its code, instance, records. -/
def freeRecords (d : Dev) (code i : Nat) (l : List Nat) : Dev :=
  match code with
  | 0x223006 => setCapture d i { captureOf d i with records := (captureOf d i).records.filter (fun x => !l.contains x) }
  | 0x260102 => { d with setup := { d.setup with results := d.setup.results.filter (fun x => !l.contains x) } }
  | _ => d

end Sys2Proof.Machine
end

