-- ==== Sys2Proof/Machine/DictWrite.lean ====
section
/-! DEFINITION. Access to the dictionary (R272, R279 to R286): which route serves an object, windows and aliases, the
refusals of Table 14.5, the checks of the owning chapters (R281), staging, and what a write that applies at once does. -/
namespace Sys2Proof.Machine

/-! ### Routes, windows and aliases -/

/-- A route: the CANopen server of bus 0 or 1, or Gencel Object Access session s as route s + 2. -/
def routeIsCan (route : Nat) : Bool := decide (route < 2)

/-- Abort codes of Table 14.5 that are not named elsewhere. -/
def abortRoute : Nat := 0x06010000
/-- Read of a write-only object. -/
def abortWo : Nat := 0x06010001
/-- Write of a const or read-only object. -/
def abortRo : Nat := 0x06010002
/-- Object does not exist. -/
def abortIndex : Nat := 0x06020000
/-- Subindex does not exist. -/
def abortSub : Nat := 0x06090011
/-- Length does not match the type. -/
def abortLength : Nat := 0x06070010
/-- DOMAIN too long for a single READ. -/
def abortLong : Nat := 0x06070012
/-- Object cannot be mapped to a PDO. -/
def abortMap : Nat := 0x06040041
/-- PDO length exceeded. -/
def abortPdo : Nat := 0x06040042
/-- Block incomplete, or its CRC-32C fails. -/
def abortBlock : Nat := 0x08000000

/-- Whether a route does not serve an object (Table 14.1). -/
def notServed (route idx sub : Nat) : Bool :=
  routeIsCan route && ((decide (idx = 0x2601) && decide (sub = 1)) || (decide (idx = 0x2A60) && decide (sub = 3))
    || (decide (0x5000 ≤ idx) && decide (idx < 0x6000)))

/-- The base indexes of the windows, in the order of Table 14.7. -/
def windowBases : List Nat :=
  [0x2140, 0x2320, 0x2440, 0x2520, 0x2540, 0x2609, 0x2620, 0x2630, 0x2640, 0x2710, 0x2740, 0x2760, 0x2770, 0x2820, 0x2920, 0x2A60]

/-- The select rows of the dictionary (R285). -/
def selectRows : List Row :=
  [Obj.flowSelect, Obj.flueStopSelect, Obj.linkSelect, Obj.flueChannelSelect, Obj.unitSelect, Obj.endpointSelect, Obj.channelSelect,
   Obj.groupSelect, Obj.profileSelect, Obj.toneSetSelect, Obj.toneSelect, Obj.treatChannelSelect, Obj.mixGroupSelect, Obj.engineSelect,
   Obj.threadSelect, Obj.queueSelect, Obj.bankChannelSelect, Obj.twinChannelSelect, Obj.streamSelect, Obj.segmentSelect,
   Obj.logSelect, Obj.blockSelect]

/-- Whether a row is a select object. -/
def isSelect (r : Row) : Bool := selectRows.any (fun s => decide (s.code = r.code))

/-- What a route has selected in a select object; its default until it writes one. -/
def selected (d : Dev) (route code : Nat) : Nat :=
  sget d.dict.sel (route * 16777216 + code) (if code = 0x2C4001 then 0x0800 else 0)

/-- The item that a route's window at an index shows. -/
def windowItem (d : Dev) (route idx : Nat) : Nat :=
  match idx with
  | 0x2150 => selected d route 0x215001 * 18 + selected d route 0x215002 * 3 + selected d route 0x215003
  | 0x2740 => selected d route 0x274001 * 16 + selected d route 0x274002
  | idx => selected d route (idx * 256 + 1)

/-- The selections of a route, as when its session opens or its bus is reset (R285). -/
def clearSelections (d : Dev) (route : Nat) : Dev :=
  { d with dict := { d.dict with sel := d.dict.sel.filter (fun p => decide (p.1 / 16777216 ≠ route)) } }

/-- Whether a block of Table 15.3 exists: kind and instance of a BlockSelect value. -/
def blockReal (v : Nat) : Bool :=
  decide (v % 256 < ([0, 32, 12, 4, 16, 2, 1, 1, 1] : List Nat).getD (v / 256) 0)

/-- Whether a select object takes a value. -/
def selectable (r : Row) (v : Nat) : Bool := if r.code = 0x2C4001 then blockReal v else decide ((v : Int) ≤ r.hi)

/-! ### Objects by index -/

/-- Whether a row covers an index: its own, or one of its instances' indexes. -/
def Row.covers (r : Row) (idx : Nat) : Bool :=
  if r.step = 0 then decide (r.idx = idx)
  else decide (r.idx ≤ idx) && decide ((idx - r.idx) % r.step = 0) && decide ((idx - r.idx) / r.step < r.inst)

/-- What an index and subindex name: an element of an instance of a row, or the count at subindex 00 of an instance of the object
with an index. -/
inductive Loc where
  | obj (r : Row) (i j : Nat)
  | count (n : Nat) (idx i : Nat)
  deriving DecidableEq, Repr

/-- The object that a request names, or the code of its refusal. `item` is the item number of an alias. -/
def resolve (d : Dev) (route idx sub item : Nat) : Nat ⊕ Loc :=
  if notServed route idx sub then .inl abortRoute
  else
    let alias_ := decide (0x5000 ≤ idx) && decide (idx < 0x5010)
    let base := if alias_ then windowBases.getD (idx - 0x5000) 0 else idx
    let rows := objRows.filter (fun r => r.covers base)
    if rows.isEmpty then .inl abortIndex
    else
      let instOf := fun (r : Row) =>
        if r.step ≠ 0 then (base - r.idx) / r.step
        else if isSelect r then 0
        else if alias_ then item
        else if r.inst ≤ 1 then 0
        else windowItem d route base
      match rows.find? (fun r => decide (r.sub ≤ sub) && decide (sub < r.sub + r.subs)) with
      | none =>
        let i := maxNat (rows.map instOf)
        if sub = 0 then .inr (.count (maxNat (rows.map (fun r => r.sub + r.subs - 1))) (base - i * (rows.headD Obj.deviceType).step) i)
        else .inl abortSub
      | some r =>
        let i := instOf r
        if alias_ && !isSelect r && decide (r.inst ≤ item) then .inl abortRange
        else .inr (.obj r i (sub - r.sub))
where
  maxNat (l : List Nat) : Nat := l.foldl max 0

/-! ### What the device state allows (R16, R309, R317, R320, R325) -/

/-- Whether no management request is answered: RESET_N low, or a quench that the supervisor caused. -/
def silent (d : Dev) : Bool := d.start.resetLow || (quenched d && d.faults.quenchSup)

/-- The indexes served in the banked state (R325), and while step 8 of a cold start waits for an image. -/
def alwaysServed (idx : Nat) : Bool :=
  (decide (0x1000 ≤ idx) && decide (idx < 0x2100)) || (decide (0x2C00 ≤ idx) && decide (idx < 0x2E00))

/-- Whether the device state refuses an access. -/
def stateRefuses (d : Dev) (idx sub : Nat) (write : Bool) : Bool :=
  let s := d.start.state
  (write && (decide (s = 4) || (decide (s = 2) && !(decide (idx = 0x2D10) && decide (sub = 1)))))
    || ((decide (s = 3) || (decide (s = 0) && decide (d.start.step < 9))) && !alwaysServed idx)

/-- Whether element j of an instance is gated, or the instance does not exist in the present layout (R16, R41, R255). -/
def instanceGated (d : Dev) (idx i j : Nat) : Bool :=
  match idx / 256 with
  | 0x21 => decide (idx = 0x2100) && decide (lanesOf d ≤ 4 * j)
  | 0x30 => !portExists d i
  | 0x40 => decide (hearthsOf d ≤ i)
  | 0x23 => decide (idx = 0x2320) && decide (enginesOf d ≤ i)
  | 0x29 => decide (0x2910 ≤ idx) && decide (idx < 0x2914) && decide (compressorsOf d ≤ i)
  | 0x2A =>
    (decide (0x2A10 ≤ idx) && decide (idx < 0x2A20) && decide (checksOf d ≤ i))
      || (decide (0x2A30 ≤ idx) && decide (idx < 0x2A32) && decide (pcieOf d ≤ i))
  | 0x2B => decide (0x2B40 ≤ idx) && decide (linesPowered d ≤ i)
  | 0x2C =>
    decide (idx = 0x2C40) &&
      (match i / 256 with
        | 1 => !portExists d (i % 256)
        | 2 => decide (hearthsOf d ≤ i % 256)
        | 3 => decide (compressorsOf d ≤ i % 256)
        | 4 => decide (checksOf d ≤ i % 256)
        | 5 => decide (pcieOf d ≤ i % 256)
        | _ => false)
  | _ => false

/-! ### Checks of a staging write (R281) -/

/-- The value that an object will have when the write applies: staged, else pending, else applied. -/
def coming (d : Dev) (r : Row) (i j : Nat) : Int := (stagedValue d r i j).getD (oget d r i j)

/-- The value that an object will have once a write of `v` to element `j` of instance `i` of `w` has applied. -/
def comingAs (d : Dev) (w : Row) (i j : Nat) (v : Int) (r : Row) (i' j' : Nat) : Int :=
  if r.key i' j' = w.key i j then v else coming d r i' j'

/-- The item mode that queue q will have: 0 WORD, 1 BLOCK, 2 neither (Table 9.2). -/
def queueModeOf (c : Row → Nat → Nat → Int) (q : Nat) : Nat :=
  match queueKind q with
  | 2 => 2
  | 4 => if queueReserved q then 2 else 1
  | 5 => (c Obj.itemMode q 0).toNat
  | _ => 1

/-- Objects that name a queue, with the mode that their records need (R192). -/
def queueNamers : List (Row × Nat) :=
  [(Obj.traceQueue, 1), (Obj.toneEventQueue, 1), (Obj.diagnosticQueue, 1), (Obj.controlQueue, 1), (Obj.monitorQueue, 1),
   (Obj.txQueue, 1), (Obj.targetQueue, 1), (Obj.exceptionQueue, 0)]

/-- Refusal of a queue number by the object that names it: 0xFFFFFFFF unsets it. -/
def queueNameCheck (c : Row → Nat → Nat → Int) (mode : Nat) (v : Int) : Nat :=
  if v = 0xFFFFFFFF then 0
  else if 262144 ≤ v then abortRange
  else if queueModeOf c v.toNat = mode then 0
  else abortStore

/-- Whether some object will name queue q and need the other mode. -/
def namedOtherwise (d : Dev) (q mode : Nat) : Bool :=
  let hit := fun (m : SMap Int) => m.any (fun p =>
    decide (p.2 = (q : Int)) &&
      (match rowOfKey p.1 with
        | some (r, i, j) => queueNamers.any (fun n => decide (n.1.code = r.code) && decide (n.2 ≠ mode)) && decide (coming d r i j = (q : Int))
        | none => false))
  hit d.dict.obj || hit d.dict.staged || (d.dict.commit.map Commit.values).any hit

/-- Whether DomainNumber lies in the range that Table 2.2 gives for a profile. -/
def domainFits (profile domain : Int) : Bool :=
  let (a, b) := match profile with
    | 2 => ((24, 43) : Int × Int)
    | 3 => (44, 63)
    | _ => (0, 127)
  decide (a ≤ domain) && decide (domain ≤ b)

/-- Checks of the time unit's objects (R35, R36, R40). -/
def checkTime (c : Row → Nat → Nat → Int) (i : Nat) : Nat :=
  let media := c Obj.trigTimeBase i 0 = 1
  let owns := fun (k : Nat) => decide (c Obj.trigMode k 0 ≠ 0) && (c Obj.trigTarget k 0).toNat.testBit 0
  if media ∧ (2500000 ≤ c Obj.trigStartNanoseconds i 0 ∨ c Obj.trigPeriod i 0 % 2500000 ≠ 0) then abortRange
  else if c Obj.trigPeriod i 0 - 8 < c Obj.trigWidth i 0 then abortRange
  else if owns i && (List.range 16).any (fun k => decide (k ≠ i) && owns k && decide (c Obj.trigOutPin k 0 = c Obj.trigOutPin i 0)) then
    abortStore
  else 0

/-- Checks of the flow window and of the port arrays. -/
def checkPorts (r : Row) (c : Row → Nat → Nat → Int) (i : Nat) (v : Int) : Nat :=
  match r.code with
  | 0x214004 => if 2 < v then abortRange else 0
  | 0x214008 => if 2 < v then abortRange else 0
  | _ =>
    if (r.code = Obj.xoffCells.code ∨ r.code = Obj.xonCells.code) ∧ c Obj.xoffCells i 0 ≤ c Obj.xonCells i 0 then abortRange
    else 0

/-- Checks of treatment profiles, tones and mixing (R92, Table 5.8). -/
def checkTreatment (d : Dev) (r : Row) (c : Row → Nat → Nat → Int) (i : Nat) (v : Int) : Nat :=
  if r.idx = 0x2710 then
    let cost := fun wide => decide (profileCostOf (fun x => c x i 0) wide ≠ profileCostOf (fun x => coming d x i 0) wide)
    if (r.code = 0x271003 ∨ r.code = 0x271004) ∧ v % 16 ≠ 0 then abortRange
    else if r.code = 0x27100C ∧ 15 < v ∧ v ≠ 255 then abortRange
    else if channelsUsing d i ≠ 0 ∧ (cost true || cost false) then abortState
    else 0
  else if r.idx = 0x2740 then
    if r.code = 0x274005 ∧ v ≠ 0 ∧ (v < 200 ∨ 7400 < v) then abortRange
    else if c Obj.toneOffMax i 0 < c Obj.toneOffMin i 0 then abortRange
    else 0
  else 0

/-- Checks of the setup defaults of the jitter buffers (0x2604). -/
def checkJitter (c : Row → Nat → Nat → Int) : Nat :=
  let x := c Obj.jitterInitialDefault 0 0
  if c Obj.jitterMinDefault 0 0 ≤ x ∧ x ≤ c Obj.jitterMaxDefault 0 0 then 0 else abortRange

/-- Checks of the AVS ratios (Table 8.8). -/
def checkAvs (c : Row → Nat → Nat → Int) : Nat :=
  let up := c Obj.avsRaiseRatio 0 0
  let down := c Obj.avsLowerRatio 0 0
  if 8000 ≤ up ∧ up ≤ 9900 ∧ 5000 ≤ down ∧ down ≤ up - 200 then 0 else abortRange

/-- Checks of the queue window (R192, R207, Table 7.5, Table 9.2). -/
def checkQueue (d : Dev) (r : Row) (c : Row → Nat → Nat → Int) (i : Nat) (v : Int) : Nat :=
  let kind := queueKind i
  let oa := decide (0x16 ≤ r.sub) && decide (r.sub ≤ 0x1A)
  let mode := c Obj.oaMode i 0
  let most := if mode = 0 then 48 else if mode = 1 then 28 else 24
  if kind < 4 ∨ queueReserved i then abortState
  else if r.code = 0x252003 then
    (if kind ≠ 5 then abortState else if namedOtherwise d i v.toNat then abortStore else 0)
  else if oa then
    (if kind < 6 then abortState
     else if kind = 6 then abortState
     else if r.code = 0x252016 ∧ 2 < v then abortRange
     else if (r.code = 0x252016 ∨ r.code = 0x252017) ∧ (c Obj.oaElementCount i 0 < 1 ∨ most < c Obj.oaElementCount i 0) then abortRange
     else 0)
  else 0

/-- Checks of the line ports (R255, R258, R259, R268). -/
def checkLine (d : Dev) (r : Row) (c : Row → Nat → Nat → Int) (i : Nat) (v : Int) : Nat :=
  let filter := fun (c : Row → Nat → Nat → Int) =>
    let k := (c Obj.preset i 0).toNat
    if k < 4 then (presetL k, presetM k) else ((c Obj.cicLength i 0).toNat, (c Obj.firDecimation i 0).toNat)
  let (l, m) := filter c
  let bound := (lineOf d i).bound.isSome
  let shape := decide (3 ≤ r.sub) && decide (r.sub ≤ 6)
  if r.code = 0x2B4006 ∧ v ≠ 1 ∧ v ≠ 2 ∧ v ≠ 4 ∧ v ≠ 8 then abortRange
  else if shape ∧ c Obj.preset i 0 = 4 ∧ !([768, 384, 128, 64].contains (l * m)) then abortRange
  else if shape ∧ bound ∧ rateOfLM l m ≠ lineRate d i then abortState
  else if r.code = 0x2B4001 ∧ v = 0 ∧ bound then abortState
  else if r.code = 0x2B400D ∧ v = 1 then abortState
  else 0

/-- Whether a write of `v` to a staged object passes the rules of its owning chapter: 0, or the code of its refusal. -/
def checkRules (d : Dev) (r : Row) (i j : Nat) (v : Int) : Nat :=
  let c := comingAs d r i j v
  match queueNamers.find? (fun n => decide (n.1.code = r.code)) with
  | some (_, mode) => queueNameCheck c mode v
  | none =>
    match r.idx with
    | 0x2201 =>
      if (r.sub = 2 ∨ r.sub = 3) ∧ !domainFits (c Obj.slotProfile i 0) (c Obj.domainNumber i 0) then abortRange else 0
    | 0x2210 => checkTime c i
    | 0x2604 => if r.sub ≤ 3 then checkJitter c else 0
    | 0x2301 => if r.sub ≤ 2 then checkAvs c else 0
    | 0x2710 => checkTreatment d r c i v
    | 0x2740 => checkTreatment d r c i v
    | 0x2520 => checkQueue d r c i v
    | 0x2920 =>
      if r.sub = 2 ∧ (v = 1 ∨ (streamOf d i).any (fun x => decide (x.kind = 1))) then abortState else 0
    | 0x2B40 => checkLine d r c i v
    | 0x2D04 =>
      if 600 ≤ v ∧ v ≤ (if oget d Obj.temperatureGrade 0 0 = 0 then 1050 else 1000) then 0 else abortRange
    | _ => checkPorts r c i v

/-! ### Staging, and application at once -/

/-- A value takes effect now, before Ready or on a write (R280, R317). -/
def applyNow (d : Dev) (r : Row) (i j : Nat) (v : Int) : Dev :=
  valueEffects d (curTick d) [(r.key i j, v)] (oset d r i j v)

/-- A value without the reserved bits of its object, which are ignored (R8): those of FlowKey and of EditData. -/
def unreserved (r : Row) (v : Int) : Int :=
  if r.code = 0x214003 then v - v % (2 ^ 52 : Nat)
  else if r.code = 0x214009 then v % (2 ^ 112 : Nat)
  else v

/-- A write to an rws object: checked, and staged; before Ready it applies (R281, R317). -/
def stageWrite (d : Dev) (r : Row) (i j : Nat) (v : Int) : Dev :=
  let v := unreserved r v
  let code := checkRules d r i j v
  if code ≠ 0 then refuse d code
  else
    let key := if r.code = 0x214003 then some v.toNat
      else if r.code = 0x21400D ∧ v = 1 ∧ !shas d.fwd.placed i then some (comingN d Obj.flowKey i) else none
    let (d, ok) := match key with
      | some k => stageKey d i k
      | none => (d, true)
    if !ok then refuse d abortStore
    else if isReady d then accept { d with dict := { d.dict with staged := sput d.dict.staged (r.key i j) v } }
    else accept (applyNow d r i j v)

/-! ### PDO configuration (R278, R293) -/

/-- The row and element that a mapping entry names: index, subindex. -/
def mappedRow (entry : Nat) : Option (Row × Nat × Nat) :=
  let idx := entry / 65536 % 65536
  let sub := entry / 256 % 256
  (objRows.find? (fun r => r.covers idx && decide (r.sub ≤ sub) && decide (sub < r.sub + r.subs))).map
    (fun r => (r, if r.step = 0 then 0 else (idx - r.idx) / r.step, sub - r.sub))

/-- Whether an object can be mapped into a TPDO, or an RPDO. -/
def mappable (rpdo : Bool) (r : Row) : Bool :=
  let window := decide (r.step = 0) && decide (1 < r.inst)
  let sized := decide (0 < r.ty.size) && decide (r.ty.size ≤ 8)
  !window && !isSelect r && sized &&
    (if rpdo then decide (r.acc = .rw) && decide (r.applies = .onWrite)
     else decide (r.acc = .const) || decide (r.acc = .ro) || decide (r.acc = .rw))

/-- The bytes that the first `n` entries of a mapping hold. -/
def mappedBytes (d : Dev) (m : Row) (i n : Nat) : Nat :=
  sumNat ((List.range n).map (fun j => ((mappedRow (ogetN d m i j)).map (fun x => x.1.ty.size)).getD 0))

/-- A write of the PDO objects, by the procedure of CiA 301: a mapping changes while the PDO is invalid and its count is 0. -/
def pdoWrite (d : Dev) (r : Row) (i j : Nat) (v : Int) : Dev :=
  let rpdo := decide (r.idx = 0x1400) || decide (r.idx = 0x1600)
  let cob := if rpdo then Obj.rpdoCobId else Obj.tpdoCobId
  let count := if rpdo then Obj.rpdoMappedCount else Obj.tpdoMappedCount
  let map := if rpdo then Obj.rpdoMapping else Obj.tpdoMapping
  let off := bitSet (ogetN d cob i 0) 31
  let n := v.toNat
  if r.code = cob.code then
    if !off ∧ !bitSet n 31 ∧ n % 2 ^ 30 ≠ ogetN d cob i 0 % 2 ^ 30 then refuse d abortRange else accept (oset d r i 0 v)
  else if r.code = count.code then
    if !off then refuse d abortState
    else if (List.range n).any (fun k => !((mappedRow (ogetN d map i k)).any (fun x => mappable rpdo x.1))) then refuse d abortMap
    else if 64 < mappedBytes d map i n then refuse d abortPdo
    else accept (oset d r i 0 v)
  else if r.code = map.code then
    if !off ∨ ogetN d count i 0 ≠ 0 then refuse d abortState
    else
      match mappedRow n with
      | some (x, _, _) =>
        if mappable rpdo x ∧ n % 256 = 8 * x.ty.size then accept (oset d r i j v) else refuse d abortMap
      | none => if n = 0 then accept (oset d r i j v) else refuse d abortMap
  else if r.sub = 2 ∧ (n = 0 ∨ (240 < n ∧ n < 254)) then refuse d abortRange
  else accept (oset d r i j v)

/-! ### Writes that act at once -/

/-- What a write meets outside the device: whether key blocks unwrap and an image is signed. -/
structure Outside where
  badKeys : Nat              -- bit k: a key block of setup record k fails to unwrap
  keyBad  : Bool             -- the wrapped key written fails to unwrap
  signed  : Bool             -- the key hash and the signature of the image that FirmwareLoadCommand verifies hold
  deriving DecidableEq, Repr

/-- KEY_TRANSPORT_KEY_WRITE: a wrapped key is taken; forty zero bytes clear it (R66). -/
def keyTransportKeyWrite (key : Nat) (bad : Bool) (d : Dev) : Dev :=
  if bad ∧ key ≠ 0 then refuse (bump d Obj.keyUnwrapFailures 0 0) abortStore
  else accept (oset d Obj.keyTransportKey 0 0 key)

/-- GOA_KEY_WRITE: a wrapped key enters slot 0 or 1; forty zero bytes clear it (R288). -/
def goaKeyWrite (slot key : Nat) (bad : Bool) (d : Dev) : Dev :=
  if bad ∧ key ≠ 0 then refuse d abortStore
  else accept { d with goa := { d.goa with keys := d.goa.keys.set slot key } }

/-- ERROR_COUNT_CLEAR: 0 written to 0x1003:00 clears PreDefinedErrorField (R277). -/
def errorCountClear (d : Dev) : Dev := accept { d with faults := { d.faults with emcyField := [] } }

/-- DomainSwitchCommand, by its value. -/
def domainSwitchWrite (v : Nat) (d : Dev) : Dev :=
  match v with
  | 1 => domainSwitchSlew 0 d
  | 2 => domainSwitchSlew 1 d
  | 3 => domainSwitchStep 0 d
  | 4 => domainSwitchStep 1 d
  | 5 => domainSwitchHoldover d
  | 6 => domainSwitchClearSuspect 0 d
  | 7 => domainSwitchClearSuspect 1 d
  | _ => refuse d abortRange

/-- StoreCommand, by its value. -/
def storeCommandWrite (v : Nat) (d : Dev) : Dev :=
  match v with
  | 1 => formatStore d
  | 2 => closeSegmentCmd d
  | 3 => adoptNamespace d
  | _ => refuse d abortRange

/-- FirmwareLoadCommand, by its value. -/
def firmwareCommandWrite (v : Nat) (signed : Bool) (d : Dev) : Dev :=
  match v with
  | 1 => verifyAndCommit signed d
  | 2 => discard d
  | _ => raiseRollbackIndex d

/-- A namespace is selected or, by 0, deselected: only while no ring runs (R254). -/
def namespaceWrite (r : Row) (i : Nat) (v : Int) (d : Dev) : Dev :=
  let st := storeState d
  if st ≠ 0 ∧ st ≠ 1 ∧ st ≠ 6 then refuse d abortState
  else
    let d := accept (oset d r i 0 v)
    if v = 0 ∧ !d.store.ready then
      { d with store := { d.store with names := serase d.store.names (2 * i + (r.sub - 4)) } }
    else d

/-- QUEUE_RESET: QueueReset returns an isolated queue to use; general and device block queues (R198). -/
def queueResetWrite (q : Nat) (d : Dev) : Dev :=
  if (queueKind q = 5 ∨ (queueKind q = 4 ∧ !queueReserved q)) ∧ (queueOf d q).isolated then accept (settling q (fun d => resetQueue d q) d)
  else refuse d abortState

/-- GrantMask, in force at once (R200); of a device-configured or reserved queue it cannot be written. -/
def grantWrite (q : Nat) (v : Int) (d : Dev) : Dev :=
  if queueKind q < 4 ∨ queueReserved q then refuse d abortState else accept (oset d Obj.queueGrantMask q 0 v)

/-- A write whose row says "on write", and that has no value to hold but acts: by object. -/
def actWrite (x : Outside) (r : Row) (i j : Nat) (data : Bytes) (d : Dev) : Dev :=
  let n := data.val
  match r.code with
  | 0x22030A => domainSwitchWrite n d
  | 0x260101 => setupRecordWrite data x.badKeys d
  | 0x260201 => keyTransportKeyWrite n x.keyBad d
  | 0x260801 => epochCommit (n % 2 ^ 32) (n / 2 ^ 32) d
  | 0x260805 => if n = 1 then epochAbort d else accept d
  | 0x240010 => stokerCommand (accept d) none (n % 256) (stokerRecOf n)
  | 0x252014 => if n = 1 then queueResetWrite i d else accept d
  | 0x28000E => if n = 1 then twinWithdraw d else twinStartJoin d
  | 0x28000F => twinLinkKeyWrite n x.keyBad d
  | 0x291007 => unitAbort i d
  | 0x2A0011 => storeCommandWrite n d
  | 0x2B000D => syncCommand (n % 2 ^ 64) (n / 2 ^ 64) d
  | 0x2B4022 => if n = 1 then recalibrateNow i d else accept d
  | 0x201007 => goaKeyWrite j n x.keyBad d
  | 0x2D1001 => startCommand n d
  | 0x2D2008 => firmwareLoadData data d
  | 0x2D2009 => firmwareCommandWrite n x.signed d
  | _ => accept (oset d r i j n)

/-- A write of PortRate, FecMode or AutoNeg of port p: only while the port is down, and only an option of Table 3.2. Above 25G
FEC is always RS(544,514), so FecMode takes only the first choice there (R42, R64). -/
def portOptionWrite (r : Row) (p : Nat) (v : Int) (d : Dev) : Dev :=
  if ogetB d Obj.adminUp p 0 then refuse d abortState
  else if r.code = 0x300003 ∧ v ≠ 0 ∧ 2 < rateCode d p then refuse d abortRange
  else accept (oset d r p 0 v)

/-- A write of TwinLinkPort0 or TwinLinkPort1: a port number, or 0xFF, while ALONE or WITHDRAWN (R221). -/
def twinPortWrite (r : Row) (v : Int) (d : Dev) : Dev :=
  if d.twin.state ≠ 1 ∧ d.twin.state ≠ 5 then refuse d abortState
  else if 32 ≤ v ∧ v ≠ 255 then refuse d abortRange
  else accept (oset d r 0 0 v)

/-- A write of an rw object that applies at once. -/
def rwWrite (r : Row) (i j : Nat) (v : Int) (d : Dev) : Dev :=
  match r.code with
  | 0x210001 => laneGroupModeWrite j v.toNat d
  | 0x300001 => adminUpWrite i v.toNat d
  | 0x300002 => portOptionWrite r i v d
  | 0x300003 => portOptionWrite r i v d
  | 0x300004 => portOptionWrite r i v d
  | 0x252006 => grantWrite i v d
  | 0x2B400B => dcFreezeWrite i (decide (v = 1)) d
  | 0x280004 => twinPortWrite r v d
  | 0x280005 => twinPortWrite r v d
  | 0x2A3004 => namespaceWrite r i v d
  | 0x2A3005 => namespaceWrite r i v d
  | 0x2B0001 => lineShellEnable (decide (v = 1)) d
  | 0x100300 => errorCountClear d
  | c =>
    if [0x14, 0x16, 0x18, 0x1A].contains (c / 65536) then pdoWrite d r i j v
    else accept (oset d r i j v)

/-! ### One access -/

/-- A write access, with exactly one answer. -/
def writeAccess (route idx sub item : Nat) (data : Bytes) (x : Outside) (d : Dev) : Dev :=
  match resolve d route idx sub item with
  | .inl code => refuse d code
  | .inr (.count _ x i) => if stateRefuses d x sub true || instanceGated d x i 0 then refuse d abortState else refuse d abortRo
  | .inr (.obj r i j) =>
    let v := r.ty.decode data.val
    if !isSelect r && instanceGated d r.idx i j then refuse d abortState
    else if r.acc = .const ∨ r.acc = .ro then refuse d abortRo
    else if stateRefuses d (if 0x5000 ≤ idx then r.idx else idx) sub true then refuse d abortState
    else if r.ty ≠ .domain ∧ data.len ≠ r.ty.size then refuse d abortLength
    else if isSelect r then
      if !selectable r v.toNat then refuse d abortRange
      else if 0x5000 ≤ idx then accept d
      else accept { d with dict := { d.dict with sel := sput d.dict.sel (route * 16777216 + r.code) v.toNat } }
    else if r.ty ≠ .domain ∧ (v < r.lo ∨ r.hi < v) then refuse d abortRange
    else if r.ty = .bool ∧ 1 < v then refuse d abortRange
    else
      match r.acc with
      | .wo => actWrite x r i j data d
      | .rws => stageWrite d r i j v
      | _ => rwWrite r i j v d

/-- OBJECT_WRITE (R280): a write by any route. Nothing answers while RESET_N is low or the supervisor has failed. -/
def objectWrite (route idx sub item : Nat) (data : Bytes) (x : Outside) (d : Dev) : Dev :=
  if silent d then d else writeAccess route idx sub item data x d

/-- A write command of its own row: what the device state allows is asked first (R309, R320, R325). -/
def guarded (r : Row) (f : Dev → Dev) (d : Dev) : Dev :=
  if silent d then d else if stateRefuses d r.idx r.sub true then refuse d abortState else f d

/-- What a read comes to: its data or the code of its refusal, the records that it is to free, and the device. -/
structure Got where
  result : Nat ⊕ Bytes
  frees  : List (Nat × Nat × List Nat)
  dev    : Dev

/-- The value of a select object as a read returns it: the route's selection, or the item that an alias names. -/
def selectValue (d : Dev) (route : Nat) (alias_ : Bool) (item : Nat) (r : Row) : Nat :=
  if !alias_ then selected d route r.code
  else if r.code = 0x274001 then item / 16
  else if r.code = 0x274002 then item % 16
  else item

/-- A read access (R280, R282). `staged` asks for the staged value; `limit` bounds a DOMAIN (R287). -/
def readAccess (route idx sub item : Nat) (staged : Bool) (limit : Nat) (d : Dev) : Got :=
  match resolve d route idx sub item with
  | .inl code => ⟨.inl code, [], d⟩
  | .inr (.count n x i) =>
    if stateRefuses d x sub false || instanceGated d x i 0 then ⟨.inl abortState, [], d⟩ else ⟨.inr (bytesOf 1 n), [], d⟩
  | .inr (.obj r i j) =>
    let alias_ := decide (0x5000 ≤ idx)
    if r.acc = .wo ∧ r.code ≠ 0x260201 ∧ r.code ≠ 0x28000F then ⟨.inl abortWo, [], d⟩
    else if stateRefuses d (if alias_ then r.idx else idx) sub false then ⟨.inl abortState, [], d⟩
    else if isSelect r then ⟨.inr (valueBytes r (selectValue d route alias_ item r : Nat)), [], d⟩
    else if instanceGated d r.idx i j then ⟨.inl abortState, [], d⟩
    else if r.ty = .domain then
      if readFrees r then
        let l := (readRecords d r i).take (limit / 24)
        ⟨.inr (joinBytes (l.map (bytesOf 24))), [(r.code, i, l)], d⟩
      else
        let b := readDomain d r i
        if limit < b.len then ⟨.inl abortLong, [], d⟩ else ⟨.inr b, [], d⟩
    else
      match staged, sfind d.dict.staged (r.key i j) with
      | true, some v => ⟨.inr (valueBytes r v), [], d⟩
      | _, _ =>
        let (v, d) := readValue d r i j
        ⟨.inr (valueBytes r v), [], d⟩

/-- Records that reads have returned are freed. -/
def freeAll (l : List (Nat × Nat × List Nat)) (d : Dev) : Dev := l.foldl (fun d f => freeRecords d f.1 f.2.1 f.2.2) d

/-- A read access with its answer over CANopen, where the records read are freed when the transfer completes (R289). -/
def objectRead (route idx sub item : Nat) (d : Dev) : Dev :=
  if silent d then d
  else
    let g := readAccess route idx sub item false (2 ^ 32) d
    match g.result with
    | .inl code => refuse g.dev code
    | .inr b => answer (freeAll g.frees g.dev) 0 b

end Sys2Proof.Machine
end

