-- ==== Sys2Proof/Machine/Can.lean ====
section
/-! DEFINITION. CANopen FD on the two buses (R273 to R278): NMT, heartbeats, PDOs, SYNC, USDO requests, and the states of
the buses and of the management link. -/
namespace Sys2Proof.Machine

/-- The node number, and identifiers of the predefined connection set. -/
def nodeNumber (d : Dev) : Nat := d.start.straps.node % 128

/-- Whether bus b carries the device's CANopen: enabled, not in bus-off, and the management plane not silent. -/
def busOn (d : Dev) (b : Nat) : Bool :=
  decide (b < 2) && busEnabled d b && decide ((canNode d b).state ≠ 2) && !silent d && decide ((canNode d b).nmt ≠ 0)

/-- The node of bus b changed. -/
def setNode (d : Dev) (b : Nat) (n : CanNode) : Dev := { d with cans := sput d.cans b n }

/-- A frame on each bus that carries the device's CANopen and whose NMT state passes. -/
def sendBoth (d : Dev) (ok : Nat → Bool) (frame : Nat → Nat × Bytes) : Dev :=
  [0, 1].foldl (fun d b =>
    if busOn d b && ok (canNode d b).nmt then emit d (.can b (frame b).1 (frame b).2) else d) d

/-- An NMT command sets the state of bus b. -/
def nmtTo (b st : Nat) (d : Dev) : Dev :=
  if busOn d b then setNode d b { canNode d b with nmt := st } else d

/-- NMT_START (R275): PDOs run; the event timers run from here. -/
def nmtStart (b : Nat) (d : Dev) : Dev :=
  if !busOn d b then d
  else
    let idle := !(busOn d (1 - b) && decide ((canNode d (1 - b)).nmt = 5))
    let d := nmtTo b 5 d
    if idle then { d with canAt := (List.range 4).foldl (fun m k => sput m k (now d)) d.canAt } else d
/-- NMT_STOP. -/
def nmtStop (b : Nat) (d : Dev) : Dev := nmtTo b 4 d
/-- NMT_PRE_OPERATIONAL. -/
def nmtPreOperational (b : Nat) (d : Dev) : Dev := nmtTo b 127 d

/-- Bus b's communication starts afresh from the applied values, with its boot-up message (R275, R285, R294). -/
def nmtReset (b : Nat) (d : Dev) : Dev :=
  if !busOn d b then d
  else
    let n := { canNode d b with nominal := ogetN d Obj.canNominalRate 0 0, data := ogetN d Obj.canDataRate 0 0 }
    canBoot (clearSelections (setNode d b n) b) b
/-- NMT_RESET_NODE. -/
def nmtResetNode (b : Nat) (d : Dev) : Dev := nmtReset b d
/-- NMT_RESET_COMMUNICATION. -/
def nmtResetCommunication (b : Nat) (d : Dev) : Dev := nmtReset b d

/-! ### PDOs (R274, R278) -/

/-- The data of TPDO n: its mapped objects in order, read as one snapshot; none where one cannot be read. -/
def tpdoData (d : Dev) (n : Nat) : Option Bytes × Dev :=
  (List.range (ogetN d Obj.tpdoMappedCount n 0)).foldl (fun acc k =>
    match acc with
    | (none, d) => (none, d)
    | (some b, d) =>
      let e := ogetN d Obj.tpdoMapping n k
      let g := readAccess 0 (e / 65536 % 65536) (e / 256 % 256) 0 false (2 ^ 32) d
      match g.result with
      | .inl _ => (none, g.dev)
      | .inr x => (some (catBytes b x), g.dev)) (some noBytes, d)

/-- TPDO n is sent on each bus that is operational. -/
def tpdoSend (d : Dev) (n : Nat) : Dev :=
  let cob := ogetN d Obj.tpdoCobId n 0
  if bitSet cob 31 then d
  else
    match tpdoData d n with
    | (none, d) => d
    | (some b, d) => { sendBoth d (fun st => decide (st = 5)) (fun _ => (cob % 2 ^ 29, b)) with canAt := sput d.canAt n (now d) }

/-- SYNC on bus b: each synchronous TPDO is sent at every so many SYNCs as its transmission type says. -/
def syncMessage (b : Nat) (d : Dev) : Dev :=
  if !busOn d b ∨ (canNode d b).nmt ≠ 5 then d
  else
    (List.range 4).foldl (fun d n =>
      let ty := ogetN d Obj.tpdoTransmissionType n 0
      if ty = 0 ∨ 240 < ty ∨ bitSet (ogetN d Obj.tpdoCobId n 0) 31 then d
      else
        let x := canNode d b
        let k := sget x.syncCount n 0 + 1
        if k < ty then setNode d b { x with syncCount := sput x.syncCount n k }
        else tpdoSend (setNode d b { x with syncCount := serase x.syncCount n }) n) d

/-- TPDO_EVENT_TIMER: the event timer of TPDO n expires; time goes on to that point, its inhibit time included. -/
def tpdoEventTimer (n : Nat) (d : Dev) : Dev :=
  let ty := ogetN d Obj.tpdoTransmissionType n 0
  let period := ogetN d Obj.tpdoEventTimer n 0
  if 4 ≤ n ∨ ty < 254 ∨ period = 0 ∨ ([0, 1].all (fun b => !busOn d b || decide ((canNode d b).nmt ≠ 5))) then d
  else
    let due := sget d.canAt n (now d) + max (msec period) (usec (100 * ogetN d Obj.tpdoInhibitTime n 0))
    if canReach d due then tpdoSend (passUntil d due) n else d

/-- The answer of an access taken out of what the device has sent: a PDO or a datagram item answers in its own way. -/
def dropAnswer : List Emission → List Emission
  | [] => []
  | .answer _ _ :: r => r
  | e :: r => e :: dropAnswer r

/-- RPDO n received on bus b: a write of each mapped object, in order (R274). -/
def rpdo (b n : Nat) (data : Bytes) (x : Outside) (d : Dev) : Dev :=
  let cnt := ogetN d Obj.rpdoMappedCount n 0
  if 4 ≤ n ∨ !busOn d b ∨ (canNode d b).nmt ≠ 5 ∨ bitSet (ogetN d Obj.rpdoCobId n 0) 31 ∨ data.len < mappedBytes d Obj.rpdoMapping n cnt then d
  else
    ((List.range cnt).foldl (fun (acc : Nat × Dev) k =>
      let (off, d) := acc
      let e := ogetN d Obj.rpdoMapping n k
      let len := e % 256 / 8
      let d := writeAccess b (e / 65536 % 65536) (e / 256 % 256) 0 ⟨len, sliceBytes data.val off len⟩ x d
      (off + len, { d with out := dropAnswer d.out })) (0, d)).2

/-! ### Heartbeats (R276) -/

/-- PRODUCER_HEARTBEAT: the NMT state, every ProducerHeartbeatTime. -/
def producerHeartbeat (d : Dev) : Dev :=
  let period := ogetN d Obj.producerHeartbeatTime 0 0
  let due := sget d.canAt 4 (now d) + msec period
  if period = 0 ∨ !(busOn d 0 || busOn d 1) ∨ !canReach d due then d
  else
    let d := passUntil d due
    let d := [0, 1].foldl (fun d b =>
      if busOn d b then emit d (.can b (0x700 + nodeNumber d) (bytesOf 1 (canNode d b).nmt)) else d) d
    { d with canAt := sput d.canAt 4 (now d) }

/-- CONSUMER_HEARTBEAT_TIMEOUT: the heartbeat of the node that entry k of ConsumerHeartbeatTime names has not come on bus b. -/
def consumerHeartbeatTimeout (b k : Nat) (d : Dev) : Dev :=
  let v := ogetN d Obj.consumerHeartbeatTime 0 k
  let node := v / 65536 % 256
  if 2 ≤ k ∨ !busOn d b ∨ v % 65536 = 0 ∨ node = 0 then d else report d 0 0x0C02 b node

/-! ### Buses and the management link -/

/-- BUS_OFF: bus b enters bus-off, and is counted, or has recovered by ISO 11898-1 (R274). -/
def busOff (b : Nat) (back : Bool) (d : Dev) : Dev :=
  if 2 ≤ b ∨ !busEnabled d b then d
  else
    let x := canNode d b
    if back then (if x.state = 2 then setNode d b { x with state := 0 } else d)
    else if x.state = 2 then d
    else bump (setNode d b { x with state := 2 }) Obj.busOffCount 0 b

/-- CAN_ERROR_PASSIVE: bus b becomes error passive, or error active again (R274). -/
def canErrorPassive (b : Nat) (passive : Bool) (d : Dev) : Dev :=
  if 2 ≤ b ∨ !busEnabled d b ∨ (canNode d b).state = 2 then d
  else setNode d b { canNode d b with state := b2n passive }

/-- MGMT_LINK_CHANGE: the management Ethernet link goes down (0) or comes up at a speed (R287, 0x2010:06). -/
def mgmtLinkChange (speed : Nat) (d : Dev) : Dev := { d with goa := { d.goa with link := speed % 4 } }

/-! ### USDO (R273, R274) -/

/-- USDO_REQUEST on bus b: a read, or a write of `data`; served while the bus is pre-operational or operational. -/
def usdoRequest (b : Nat) (write : Bool) (idx sub : Nat) (data : Bytes) (x : Outside) (d : Dev) : Dev :=
  if !busOn d b ∨ (canNode d b).nmt = 4 then d
  else if write then objectWrite b idx sub 0 data x d
  else objectRead b idx sub 0 d

end Sys2Proof.Machine
end

