-- ==== Sys2Proof/Machine/Goa.lean ====
section
/-! DEFINITION. Gencel Object Access (R287 to R291): datagrams, keys, sessions, kept responses and block transfers. -/
namespace Sys2Proof.Machine

/-- What a received datagram's header and tag come to (Table 14.8): sequence, session, key identifier, whether the tag
verifies under the key named, and whether the form of the datagram is good. -/
structure GoaHead where
  seq     : Nat
  session : Nat
  keyId   : Nat
  tagOk   : Bool
  good    : Bool
  deriving DecidableEq, Repr

/-- The Gencel Object Access server changed. -/
def onGoa (d : Dev) (f : Goa → Goa) : Dev := { d with goa := f d.goa }
/-- A counter of 0x2010:0D: 0 GoaRequests, 1 GoaAuthFailures, 2 GoaSequenceRefused, 3 GoaRetriesAnswered,
4 GoaSessionsRefused, 5 GoaBlocksDiscarded. -/
def goaCount (d : Dev) (j : Nat) : Dev := bump d Obj.goaCounters 0 j

/-- The opcode of a body. -/
def GoaBody.opcode : GoaBody → Nat
  | .read _ _ => 1
  | .write _ => 2
  | .blockBegin _ _ _ _ _ => 3
  | .blockData _ _ => 4
  | .blockEnd => 5
  | .blockRead _ _ _ _ => 6
  | .keyLoad _ _ => 7

/-- A response: header and payload, without its tag. -/
def responseOf (h : GoaHead) (op status count : Nat) (payload : Bytes) : Bytes :=
  let v := setF (setF (setF (setF 0 GoaHdr.sequence h.seq) GoaHdr.sessionId h.session) GoaHdr.keyId h.keyId) GoaHdr.status status
  let v := setF (setF (setF (setF v GoaHdr.payloadLength payload.len) GoaHdr.opcode op) GoaHdr.response 1) GoaHdr.itemCount count
  catBytes (bytesOf 32 (setF (setF v GoaHdr.version 1) GoaHdr.magic 0x4F47)) payload

/-- A response leaves, tagged under a key (R287). -/
def sendDatagram (d : Dev) (key : Nat) (b : Bytes) : Dev :=
  emit d (.datagram (catBytes b (bytesOf 32 (Config.hmac key b.len b.val))))

/-- The slot whose key a datagram names and whose tag verifies, if any (R288). -/
def keySlot (d : Dev) (h : GoaHead) : Option Nat :=
  if !h.tagOk then none
  else [0, 1].find? (fun j => decide (d.goa.keys.getD j 0 ≠ 0) && decide (goaKeyIdOf d j = h.keyId))

/-! ### Sessions (R289) -/

/-- The route of a session. -/
def sessionRoute (id : Nat) : Nat := id + 2
/-- Session `id`. -/
def sessionOf (d : Dev) (id : Nat) : Option Session := d.goa.sessions.find? (fun s => decide (s.id = id))
/-- The session changed. -/
def setSession (d : Dev) (s : Session) : Dev :=
  onGoa d (fun g => { g with sessions := g.sessions.map (fun x => if x.id = s.id then s else x) })

/-- The session idle longest, among those open. -/
def idlest : List Session → Option Session
  | [] => none
  | s :: r =>
    match idlest r with
    | none => some s
    | some x => if s.last ≤ x.last then some s else some x

/-- A session opens, in place of the one idle longest where eight are open; none where that one is not idle enough. -/
def openSession (d : Dev) (id slot : Nat) : Option Dev :=
  let fresh : Session := { id := id, key := slot, high := 0, last := now d, kept := [], block := none, frees := [], snap := none }
  let add := fun (d : Dev) => clearSelections (onGoa d (fun g => { g with sessions := g.sessions ++ [fresh] })) (sessionRoute id)
  if d.goa.sessions.length < 8 then some (add d)
  else
    match idlest d.goa.sessions with
    | none => some (add d)
    | some s =>
      if now d < s.last + secs (ogetN d Obj.sessionIdleTime 0 0) then none
      else
        let d := bumpIf s.block.isSome d Obj.goaCounters 0 5
        some (add (clearSelections (onGoa d (fun g => { g with sessions := g.sessions.filter (fun x => decide (x.id ≠ s.id)) })) (sessionRoute s.id)))

/-! ### Requests -/

/-- What performing a request comes to: header status, items, payload, device. -/
structure Performed where
  status  : Nat
  count   : Nat
  payload : Bytes
  dev     : Dev

/-- A byte string filled up to a multiple of 4 bytes. -/
def padded (b : Bytes) : Bytes := ⟨ceilDiv b.len 4 * 4, b.val % 2 ^ (8 * b.len)⟩

/-- The header of a response item: index, subindex, a reserved byte and the status. -/
def itemHead (i : GoaItem) (status : Nat) : Bytes :=
  joinBytes [bytesOf 2 i.idx, bytesOf 1 i.sub, bytesOf 1 0, bytesOf 4 status]

/-- Records to free at the session's next request. -/
def toFree (d : Dev) (id : Nat) (l : List (Nat × Nat × List Nat)) : Dev :=
  match sessionOf d id with
  | some s => setSession d { s with frees := s.frees ++ l }
  | none => d

/-- One item of a READ: the value follows its length. -/
def readItem (id : Nat) (staged : Bool) (acc : List Bytes × Dev) (i : GoaItem) : List Bytes × Dev :=
  let g := readAccess (sessionRoute id) i.idx i.sub i.item staged 1024 acc.2
  match g.result with
  | .inl code => (acc.1 ++ [itemHead i code, bytesOf 4 0], g.dev)
  | .inr b => (acc.1 ++ [itemHead i 0, bytesOf 4 b.len, padded b], toFree g.dev id g.frees)

/-- A write made for a datagram: its code and data are taken for the response. -/
def goaWrite (id : Nat) (i : GoaItem) (x : Outside) (d : Dev) : Nat × Bytes × Dev :=
  let d := writeAccess (sessionRoute id) i.idx i.sub i.item i.data x d
  let data := match d.out.find? (fun e => match e with | .answer _ _ => true | _ => false) with
    | some (.answer _ b) => b
    | _ => noBytes
  (d.dict.abort, data, { d with out := dropAnswer d.out })

/-- The item status that status bytes of SetupRecord come to: SEQUENCE as 2, a full store as 0x0800_0020 (R71, R75, R291). -/
def setupItemStatus (n : Nat) (bytes : Bytes) : Nat :=
  match ((List.range n).map (fun i => bitsAt bytes.val (8 * i) 8)).find? (fun s => s != 0) with
  | none => 0
  | some 0xFE => abortStore
  | some s => s

/-- One item of a WRITE. -/
def writeItem (id : Nat) (x : Outside) (acc : List Bytes × Dev) (i : GoaItem) : List Bytes × Dev :=
  let (code, reply, d) := goaWrite id i x acc.2
  let status := if code = 0 ∧ i.idx = 0x2601 ∧ i.sub = 1 then setupItemStatus reply.len reply else code
  (acc.1 ++ [itemHead i status], d)

/-- Whether a block's bytes are all present, none in two readings, and match its CRC-32C. -/
def blockBytes (b : Block) : Option Bytes :=
  let parts := (List.range (ceilDiv b.len 1024)).map (fun k => sfind b.segs (k * 1024))
  if b.clash ∨ parts.any Option.isNone then none
  else
    let data := joinBytes (parts.filterMap id)
    if data.len = b.len ∧ crcOf 0 data = b.crc then some data else none

/-- A request of session `s` performed. -/
def performGoa (s : Session) (body : GoaBody) (x : Outside) (d : Dev) : Performed :=
  let none_ := fun (st : Nat) (d : Dev) => (⟨st, 1, noBytes, d⟩ : Performed)
  match body with
  | .read staged items =>
    let (l, d) := items.foldl (readItem s.id staged) ([], d)
    ⟨0, items.length, joinBytes l, d⟩
  | .write items =>
    let (l, d) := items.foldl (writeItem s.id x) ([], d)
    ⟨0, items.length, joinBytes l, d⟩
  | .blockBegin idx sub item len crc =>
    if len = 0 ∨ 262144 < len then none_ abortRange d
    else
      let b : Block := { idx := idx, sub := sub, item := item, len := len, crc := crc, segs := [], clash := false, last := now d }
      none_ 0 (setSession (bumpIf s.block.isSome d Obj.goaCounters 0 5) { s with block := some b })
  | .blockData off data =>
    match s.block with
    | none => none_ abortState d
    | some b =>
      if off % 1024 ≠ 0 ∨ b.len ≤ off ∨ data.len ≠ min 1024 (b.len - off) then none_ 4 d
      else
        let clash := b.clash || (match sfind b.segs off with | some old => decide (old ≠ data) | none => false)
        none_ 0 (setSession d { s with block := some { b with segs := sput b.segs off data, clash := clash, last := now d } })
  | .blockEnd =>
    match s.block with
    | none => none_ abortState d
    | some b =>
      match blockBytes b with
      | none => none_ abortBlock (setSession d { s with block := some { b with last := now d } })
      | some data =>
        let (code, reply, d) := goaWrite s.id ⟨b.idx, b.sub, b.item, data⟩ x (setSession d { s with block := none })
        ⟨code, 1, reply, d⟩
  | .blockRead idx sub item off =>
    if off = 0 then
      let g := readAccess (sessionRoute s.id) idx sub item false (2 ^ 32) d
      match g.result with
      | .inl code => none_ code g.dev
      | .inr b => ⟨0, 1, bytesOf (min 1024 b.len) b.val, toFree (setSession g.dev { s with snap := some (idx, sub, item, b) }) s.id g.frees⟩
    else
      match s.snap with
      | some (i, u, n, b) =>
        if i = idx ∧ u = sub ∧ n = item then ⟨0, 1, ⟨min 1024 (b.len - off), sliceBytes b.val off (min 1024 (b.len - off))⟩, d⟩
        else none_ abortState d
      | none => none_ abortState d
  | .keyLoad _ _ => none_ 4 d

/-- Whether the form of a body is good: 1 to 64 items. -/
def bodyGood (h : GoaHead) (body : GoaBody) : Bool :=
  h.good && decide (h.session ≠ 0) &&
    (match body with
      | .read _ l => decide (1 ≤ l.length) && decide (l.length ≤ 64)
      | .write l => decide (1 ≤ l.length) && decide (l.length ≤ 64)
      | _ => true)

/-- A request accepted in session `s`: what earlier reads returned is freed, the request is performed, and its response is
kept and sent. -/
def acceptGoa (slot : Nat) (h : GoaHead) (body : GoaBody) (x : Outside) (s : Session) (d : Dev) : Dev :=
  let key := d.goa.keys.getD slot 0
  let d := freeAll s.frees (goaCount d 0)
  let s := { s with key := slot, high := h.seq, last := now d, frees := [] }
  let d := setSession d s
  let p := if bodyGood h body then performGoa s body x d else ⟨4, 0, noBytes, d⟩
  let resp := responseOf h body.opcode p.status p.count p.payload
  let d := match sessionOf p.dev s.id with
    | some t => setSession p.dev { t with kept := (⟨h.seq, body, resp⟩ :: t.kept).take 32 }
    | none => p.dev
  sendDatagram d key resp

/-- A datagram other than KEY_LOAD (R288, R289): checked, matched with its session, and performed or answered again. -/
def goaRequest (h : GoaHead) (body : GoaBody) (x : Outside) (d : Dev) : Dev :=
  if silent d then d
  else
    match keySlot d h with
    | none => goaCount d 1
    | some slot =>
      match sessionOf d h.session with
      | none =>
        match openSession d h.session slot with
        | none => sendDatagram (goaCount d 4) (d.goa.keys.getD slot 0) (responseOf h body.opcode 3 0 noBytes)
        | some d =>
          match sessionOf d h.session with
          | some s => acceptGoa slot h body x s d
          | none => d
      | some s =>
        match s.kept.find? (fun k => decide (k.seq = h.seq) && decide (k.body = body)) with
        | some k => sendDatagram (goaCount d 3) (d.goa.keys.getD slot 0) k.resp
        | none => if h.seq ≤ s.high then goaCount d 2 else acceptGoa slot h body x s d

/-- READ: up to 64 items. -/
def goaReadReq (h : GoaHead) (staged : Bool) (items : List GoaItem) (d : Dev) : Dev :=
  goaRequest h (.read staged items) ⟨0, false, false⟩ d
/-- WRITE: up to 64 items. -/
def goaWriteReq (h : GoaHead) (items : List GoaItem) (x : Outside) (d : Dev) : Dev := goaRequest h (.write items) x d
/-- BLOCK_BEGIN. -/
def blockBeginReq (h : GoaHead) (idx sub item len crc : Nat) (d : Dev) : Dev :=
  goaRequest h (.blockBegin idx sub item len crc) ⟨0, false, false⟩ d
/-- BLOCK_DATA. -/
def blockDataReq (h : GoaHead) (off : Nat) (data : Bytes) (d : Dev) : Dev := goaRequest h (.blockData off data) ⟨0, false, false⟩ d
/-- BLOCK_END. -/
def blockEndReq (h : GoaHead) (x : Outside) (d : Dev) : Dev := goaRequest h .blockEnd x d
/-- BLOCK_READ. -/
def blockReadReq (h : GoaHead) (idx sub item off : Nat) (d : Dev) : Dev :=
  goaRequest h (.blockRead idx sub item off) ⟨0, false, false⟩ d

/-- KEY_LOAD (R288): the first key, while both slots are empty; `bad`: it fails to unwrap. -/
def keyLoad (h : GoaHead) (slot key : Nat) (bad : Bool) (d : Dev) : Dev :=
  if silent d then d
  else if d.goa.keys.any (fun k => decide (k ≠ 0)) ∨ bad ∨ !h.tagOk ∨ !h.good ∨ 1 < slot ∨ key = 0 ∨ h.session = 0 then goaCount d 1
  else
    let d := onGoa d (fun g => { g with keys := g.keys.set slot key, sessions := g.sessions.filter (fun s => decide (s.id ≠ h.session)) })
    match openSession d h.session slot with
    | none => sendDatagram (goaCount d 4) key (responseOf h 7 3 0 noBytes)
    | some d =>
      let resp := responseOf h 7 0 0 noBytes
      let d := match sessionOf d h.session with
        | some s => setSession (goaCount d 0) { s with high := h.seq, kept := [⟨h.seq, .keyLoad slot key, resp⟩] }
        | none => d
      sendDatagram d key resp

/-- BLOCK_TIMEOUT: 5 s have passed without a datagram for the open block of a session; time goes on to that point. -/
def blockTimeout (id : Nat) (d : Dev) : Dev :=
  match sessionOf d id with
  | none => d
  | some s =>
    match s.block with
    | none => d
    | some b =>
      let due := b.last + secs 5
      if canReach d due then goaCount (setSession (passUntil d due) { s with block := none }) 5 else d

end Sys2Proof.Machine
end

