-- ==== Sys2Proof/Machine/Tick.lean ====
section
/-! DEFINITION. The media tick and the time triggers (R29, R31, R35 to R37): what the start of a tick does in every block, in
the order of R29, and the firing of a trigger unit. -/
namespace Sys2Proof.Machine

/-- The work of tick n, once it has started: the twin's account of the interval, the pending epoch, evidence blocks, the setup
records that name the tick, the speech banks (R203), the closes of ordered-accumulate rounds (R164), the per-tick steps of the
channels, the line ports, and then the release of the tick (R29). -/
def tickWork (n : Nat) (reanchored : Bool) (d : Dev) : Dev :=
  let d := if reanchored then lengthenTick d n else d
  let led := isLeader d
  let d := joinTickStart n (twinTick n d)
  let d := epochTick n d
  let d := evidenceTick d n reanchored d.time.tickOffset
  let d := applyRecords n led d
  let d := if reanchored then (skeys d.chans).foldl (fun d c => discontinuity d n c) d else d
  let d := oaTick n (closeBlocks (bankTicks n d))
  let d := (skeys d.chans).foldl (fun d c => channelTick d c n) d
  tickRelease (noteShown (lineTickStart n reanchored d)) n

/-- TICK_START (R29): time goes on to the boundary and the next tick starts. Until Ready, and in a warm start, only the time
unit runs; before Ready of a cold start, with RESET_N low or in a quench, no tick starts. -/
def tickStart (d : Dev) : Dev :=
  if !d.time.started ∨ d.start.resetLow ∨ quenched d then d
  else
    let old := (onTime d (fun t => t.advanceMedia (slewRate d) (toTick d))).time
    let (d, re) := startTick d
    if isReady d then tickWork d.time.tick re (lineTickEnd old d) else d

/-- Time goes on to the point at which unit k fires, where that lies before the next tick; none where it does not. -/
def reachFiring (d : Dev) (k : Nat) (next : Nat) : Option Dev :=
  if next ≤ trigNow d k then some d
  else if trigMedia d k then
    let t := d.time
    if t.ticking && decide (next / tickLen = t.tick) then
      some { d with time := t.advanceMedia (slewRate d) (t.tickStart + next % tickLen - t.media) }
    else none
  else if netReachable d next then some (passNet d next)
  else none

/-- The three things that a firing of unit k may do, by the bits of Target (R35): a pulse on its pin, a reset of the
decimators in ConverterMask, a post to a thread. -/
def fireTargets (d : Dev) (k : Nat) : Dev :=
  let target := ogetN d Obj.trigTarget k 0
  let pin := ogetN d Obj.trigOutPin k 0
  let d := if bitSet target 0 then
      let rest := decide (ogetN d Obj.trigPolarity k 0 = 1)
      let x := triggerOf d k
      onTime (setTrigger d k { x with pin := some pin, pulseEnd := some (now d + ns (ogetN d Obj.trigWidth k 0)) })
        (fun t => { t with pins := t.pins.set pin ⟨!rest, rest⟩ })
    else d
  let d := if bitSet target 1 then triggerReset d (ogetN d Obj.trigConverterMask k 0) else d
  if bitSet target 2 then hwPost d (32 + k) (ogetN d Obj.trigThreadNumber k 0) 5 k else d

/-- TRIGGER_FIRE: unit k fires at its next point (R35, Table 2.6). -/
def triggerFire (k : Nat) (d : Dev) : Dev :=
  let x := triggerOf d k
  if 16 ≤ k ∨ !x.armed ∨ d.start.resetLow ∨ quenched d then d
  else
    match if x.late then some d else reachFiring d k x.next with
    | none => d
    | some d =>
      let once := decide (ogetN d Obj.trigMode k 0 = 1)
      let y : Trigger := { x with armed := !once, done := once, late := false, next := x.next + trigPeriod d k }
      let d := bumpIf x.late (bump (setTrigger d k y) Obj.trigFired k 0) Obj.trigLate k 0
      fireTargets d k

end Sys2Proof.Machine
end

