-- ==== Sys2Proof/Syntax.lean ====
section
/-! DEFINITION. The commands of the block: one constructor for each row of spec/opcode_table.json, with its operands. Engine
instructions carry the engine that executes them; timed events carry what the outside brings. -/
namespace Sys2Proof
open Sys2Proof.Machine

/-- A command (spec/opcode_table.json). -/
inductive Instr where
  -- The clocks, ticks, time triggers, pins and captures (R21 to R39, R164, R203)
  | tickStart
  | bankSeal
  | oaRoundClose (n r : Nat)
  | mediaLock
  | suspectClearTimeExpiry (slot : Nat)
  | slotLost (slot : Nat)
  | domainSwitchSlew (slot : Nat)
  | domainSwitchStep (slot : Nat)
  | domainSwitchHoldover
  | domainSwitchClearSuspect (slot : Nat)
  | triggerFire (k : Nat)
  | triggerPulseEnd (k : Nat)
  | ppsOutPulse
  | ppsOutPulseEnd
  | timeInEdge (input : Nat) (rising : Bool) (dt : Nat)
  | captureRecordsRead (input : Nat)
  -- The Ethernet ports and the forwarding path (R41 to R62)
  | laneGroupModeWrite (group mode : Nat)
  | adminUpWrite (port v : Nat)
  | linkStateChange (port : Nat) (up : Bool)
  | frameReceived (port dt : Nat) (frame : Frame)
  | pauseExpiry (port prio : Nat)
  | damperBreak (port prio : Nat)
  | damperIgnoreEnd (port prio : Nat)
  | pauseTxRefresh (port prio : Nat)
  | egressFrameTx (port : Nat)
  | lifeCheckTx (pair : Nat)
  | prpNodeForget
  | flowKeyWrite (entry key : Nat)
  | flueCreditMismatch (stop : Nat)
  -- Setup records, frames of work, and the epochs of the dictionary (R17, R64 to R91)
  | setupRecordWrite (data : Bytes) (badKeys : Nat)
  | endpointRegister (rec_ : SetupRec)
  | endpointRemove (rec_ : SetupRec)
  | channelOpen (rec_ : SetupRec)
  | channelClose (rec_ : SetupRec)
  | channelModify (rec_ : SetupRec)
  | groupJoin (rec_ : SetupRec)
  | groupLeave (rec_ : SetupRec)
  | keyUpdate (rec_ : SetupRec)
  | endpointUpdate (rec_ : SetupRec)
  | previousKeyExpiry (endpoint : Nat)
  | setupResultsRead
  | frameWork (channel : Nat) (work : Work)
  | epochCommit (epoch tick : Nat)
  | epochAbort
  | objectWrite (route idx sub item : Nat) (data : Bytes) (facts : Outside)
  -- Engine instructions over the general registers (R130, R134)
  | add (e : Nat) (rd ra rb : BitVec 5)
  | sub (e : Nat) (rd ra rb : BitVec 5)
  | addS (e : Nat) (rd ra rb : BitVec 5)
  | subS (e : Nat) (rd ra rb : BitVec 5)
  | and (e : Nat) (rd ra rb : BitVec 5)
  | or (e : Nat) (rd ra rb : BitVec 5)
  | xor (e : Nat) (rd ra rb : BitVec 5)
  | shl (e : Nat) (rd ra rb : BitVec 5)
  | shr (e : Nat) (rd ra rb : BitVec 5)
  | sar (e : Nat) (rd ra rb : BitVec 5)
  | mul (e : Nat) (rd ra rb : BitVec 5)
  | mulh (e : Nat) (rd ra rb : BitVec 5)
  | div (e : Nat) (rd ra rb : BitVec 5)
  | cmp (e : Nat) (ra rb : BitVec 5)
  | min (e : Nat) (rd ra rb : BitVec 5)
  | max (e : Nat) (rd ra rb : BitVec 5)
  | clz (e : Nat) (rd ra : BitVec 5)
  | nrm (e : Nat) (rd ra : BitVec 5)
  | addi (e : Nat) (rd ra : BitVec 5) (imm : BitVec 16)
  | andi (e : Nat) (rd ra : BitVec 5) (imm : BitVec 16)
  | ori (e : Nat) (rd ra : BitVec 5) (imm : BitVec 16)
  | xori (e : Nat) (rd ra : BitVec 5) (imm : BitVec 16)
  | lui (e : Nat) (rd : BitVec 5) (imm : BitVec 16)
  | cmpi (e : Nat) (ra : BitVec 5) (imm : BitVec 16)
  | shli (e : Nat) (rd ra : BitVec 5) (count : BitVec 6)
  | shri (e : Nat) (rd ra : BitVec 5) (count : BitVec 6)
  | sari (e : Nat) (rd ra : BitVec 5) (count : BitVec 6)
  -- Engine instructions over local memory, address registers and accumulators (R120, R125 to R131, R134)
  | ld (e : Nat) (rd : BitVec 5) (an : BitVec 3) (width mode : BitVec 2) (step_ : BitVec 14)
  | st (e : Nat) (rs : BitVec 5) (an : BitVec 3) (width mode : BitVec 2) (step_ : BitVec 14)
  | amov (e : Nat) (an : BitVec 3) (cd : BitVec 2) (ra : BitVec 5) (imm : BitVec 16)
  | aget (e : Nat) (rd : BitVec 5) (an : BitVec 3)
  | cdset (e : Nat) (k : BitVec 2) (brev : Bool) (ra rb : BitVec 5)
  | macS16 (e : Nat) (aa ab : BitVec 3) (stepA stepB : BitVec 7) (v : BitVec 6)
  | macW16 (e : Nat) (aa ab : BitVec 3) (stepA stepB : BitVec 7) (v : BitVec 6)
  | macS32 (e : Nat) (aa ab : BitVec 3) (stepA stepB : BitVec 7) (v : BitVec 6)
  | macW32 (e : Nat) (aa ab : BitVec 3) (stepA stepB : BitVec 7) (v : BitVec 6)
  | cmacS16 (e : Nat) (aa ab : BitVec 3) (stepA stepB : BitVec 7) (v : BitVec 6)
  | bflyS16 (e : Nat) (aa ab : BitVec 3) (stepA stepB : BitVec 7) (v : BitVec 6)
  | acst (e : Nat) (an acc : BitVec 3) (shift : BitVec 6) (round : BitVec 2) (sat : Bool) (width : BitVec 2) (vec : Bool) (step_ : BitVec 6)
  | acmv (e : Nat) (rd : BitVec 5) (acc : BitVec 3) (shift : BitVec 6) (round : BitVec 2) (sat : Bool) (width : BitVec 2)
  | acld (e : Nat) (ra : BitVec 5) (acc : BitVec 3) (shift : BitVec 6)
  | acsum (e : Nat)
  | acclr (e : Nat) (acc : BitVec 3) (vec : Bool)
  -- Engine instructions that reach beyond the engine: external memory, copies, queues and fences (R121, R147 to R157, R193 to
  -- R202)
  | xld64 (e : Nat) (rd ra : BitVec 5)
  | xld128 (e : Nat) (rd ra : BitVec 5)
  | xst64 (e : Nat) (ra rb : BitVec 5)
  | xst128 (e : Nat) (ra rb : BitVec 5)
  | xcopyIn (e : Nat) (rd ra rb : BitVec 5)
  | xcopyOut (e : Nat) (rd ra rb : BitVec 5)
  | xwait (e : Nat) (tag : BitVec 3)
  | xamoAdd (e : Nat) (rd ra rb : BitVec 5)
  | xamoSwp (e : Nat) (rd ra rb : BitVec 5)
  | xamoCas (e : Nat) (rd ra rb : BitVec 5)
  | qpush (e : Nat) (ra rb : BitVec 5)
  | qpushRel (e : Nat) (ra rb : BitVec 5)
  | qpushBlk (e : Nat) (rd ra rb : BitVec 5)
  | qpushBlkRel (e : Nat) (rd ra rb : BitVec 5)
  | qpop (e : Nat) (rd ra : BitVec 5)
  | qpopAcq (e : Nat) (rd ra : BitVec 5)
  | qpopBlk (e : Nat) (rd ra rb : BitVec 5)
  | qpopBlkAcq (e : Nat) (rd ra rb : BitVec 5)
  | qmark (e : Nat) (ra : BitVec 5)
  | qrewind (e : Nat) (ra : BitVec 5)
  | qrelease (e : Nat) (ra : BitVec 5)
  | qstat (e : Nat) (rd ra : BitVec 5)
  | fenceLd (e : Nat)
  | fenceSt (e : Nat)
  | fenceAll (e : Nat)
  | fenceQ (e : Nat)
  | fenceEpoch (e : Nat)
  | fenceTick (e : Nat) (ra : BitVec 5)
  -- Control flow of the engines, block exponents and status, and the engine's own events (R118, R121, R131, R134 to R147,
  -- R174)
  | b (e : Nat) (cond : BitVec 5) (off : BitVec 21)
  | call (e : Nat) (off : BitVec 21)
  | jr (e : Nat) (ra : BitVec 5)
  | loop (e : Nat) (ra : BitVec 5) (off : BitVec 21)
  | yield (e : Nat)
  | wait (e : Nat) (rd ra : BitVec 5)
  | post (e : Nat) (rd ra rb : BitVec 5)
  | exit (e : Nat)
  | trap (e : Nat) (code : BitVec 5)
  | bexpArm (e : Nat) (width : BitVec 5)
  | bexpRead (e : Nat) (rd : BitVec 5)
  | bexpOff (e : Nat)
  | stclr (e : Nat) (ra : BitVec 5)
  | strd (e : Nat) (rd : BitVec 5)
  | illegalInstruction (e : Nat) (word : BitVec 32)
  | externalAccessComplete (e n : Nat)
  | xcopyComplete (e n : Nat)
  | stolenCycle (e : Nat)
  -- The Stoker, the gauge and the steering of VDD_CORE (R142, R164 to R190), and queue events (R198, R199)
  | contextWriteback (e : Nat)
  | candidatePreload (e : Nat)
  | dispatch (hearth : Nat)
  | latchRetry (poster : Nat)
  | deadlineMiss (thread : Nat)
  | create (port : Option Nat) (rec_ : StokerRec)
  | set (port : Option Nat) (rec_ : StokerRec)
  | migrate (port : Option Nat) (rec_ : StokerRec)
  | migrationMove (thread : Nat)
  | resume (port : Option Nat) (rec_ : StokerRec)
  | remove (port : Option Nat) (rec_ : StokerRec)
  | clearStatistics (port : Option Nat) (rec_ : StokerRec)
  | gaugeReading (hearth g : Nat)
  | deficitStanding (engine : Nat)
  | avsDecision
  | avsReport (mv : Nat)
  | avsFailure
  | queueReset (q : Nat)
  | cellAudit
  -- The twin: ledgers, fetches, joining and withdrawal (R208 to R221), and keys (R66, R209)
  | ledgerClose
  | ledgerReceived (ledger : Ledger) (frames : Nat) (good : Bool)
  | fetchReceived (channel seq ts : Nat)
  | fetchReplyReceived (channel seq ts : Nat) (payload : Option Bytes)
  | partnerLost
  | hello
  | joinAccept (peer : Peer)
  | joinChannelSnapshot (channel : Nat) (snap : Snapshot)
  | twinWithdraw
  | twinStartJoin
  | twinLinkKeyWrite (key : Nat) (bad : Bool)
  | keyTransportKeyWrite (key : Nat) (bad : Bool)
  -- Evidence compression, check-value channels and the evidence store (R222 to R254)
  | evidenceBlockClose (stream : Nat)
  | compressorJobStart (unit : Nat)
  | compressorJobSuspend (unit : Nat)
  | compressorJobComplete (unit : Nat)
  | outputPageGrant (stream : Nat)
  | unitAbort (unit : Nat)
  | checkJobStart (k : Nat)
  | checkJobComplete (k : Nat)
  | sealJob (k : Nat)
  | sealComplete (k : Nat) (poison : Bool)
  | nvmeWriteComplete (seg off : Nat) (end_ : NvmeEnd)
  | segmentCloseTime
  | segmentHeaderWritten (seg : Nat)
  | format
  | closeSegment
  | adopt
  -- The line ports and the converter chain (R255 to R271)
  | lineShellEnable (on : Bool)
  | lineShellWakeComplete
  | syncConvEdge (rising long : Bool) (dt : Nat)
  | syncCommand (mask tick : Nat)
  | syncReset
  | pllUnlock
  | pllRelock
  | recalibrateNow (port : Nat)
  | calibrationComplete (port : Nat)
  | calDrift (temp : Int)
  -- CANopen, Gencel Object Access and the management link (R272 to R291)
  | usdoRequest (bus : Nat) (write : Bool) (idx sub : Nat) (data : Bytes) (facts : Outside)
  | nmtStart (bus : Nat)
  | nmtStop (bus : Nat)
  | nmtPreOperational (bus : Nat)
  | nmtResetNode (bus : Nat)
  | nmtResetCommunication (bus : Nat)
  | sync (bus : Nat)
  | rpdo (bus n : Nat) (data : Bytes) (facts : Outside)
  | tpdoEventTimer (n : Nat)
  | producerHeartbeat
  | consumerHeartbeatTimeout (bus entry : Nat)
  | busOff (bus : Nat) (back : Bool)
  | errorCountClear
  | read (head : GoaHead) (staged : Bool) (items : List GoaItem)
  | write (head : GoaHead) (items : List GoaItem) (facts : Outside)
  | blockBegin (head : GoaHead) (idx sub item len crc : Nat)
  | blockData (head : GoaHead) (off : Nat) (data : Bytes)
  | blockEnd (head : GoaHead) (facts : Outside)
  | blockRead (head : GoaHead) (idx sub item off : Nat)
  | keyLoad (head : GoaHead) (slot key : Nat) (bad : Bool)
  | blockTimeout (session : Nat)
  | goaKeyWrite (slot key : Nat) (bad : Bool)
  -- Faults, supplies, starting and firmware (R295 to R326)
  | faultReport (cls code inst detail : Nat)
  | blockResetEnd (kind inst : Nat)
  | settleTimeExpiry (kind inst : Nat)
  | coalesceWindowClose (seq : Nat)
  | heartbeatTimeout
  | watchdog
  | faultNRelease
  | railOutOfRange (rail : Nat)
  | thermalWarning (sensor : Nat) (temp : Int)
  | overTemperature (sensor : Nat) (temp : Int)
  | resetNLow
  | coldStart (straps : Straps) (world : StartWorld)
  | ptpAcquireTimeout
  | proceed
  | warm
  | warmSelftest
  | cold
  | rekindle
  | rekindleRecovery
  | warmStart (world : StartWorld)
  | startStepTimeout (step_ : Nat)
  | firmwareLoadData (data : Bytes)
  | verifyAndCommit (signed : Bool)
  | discard
  | raiseRollbackIndex
  | firmwareLoadTimeout
  -- The remaining events of time, twin, supplies, store and buses (R23, R219, R245, R274, R287, R312, R319, R324)
  | delayReqTx (slot : Nat)
  | joinStateCopyComplete (copy : JoinCopy)
  | thermalWarningRearm (temps : List Int)
  | vddIo18Removed
  | formatComplete
  | flashWriteDone
  | mgmtLinkChange (speed : Nat)
  | canErrorPassive (bus : Nat) (passive : Bool)
  deriving DecidableEq, Repr

end Sys2Proof
end

