-- ==== Sys2Proof/Decode.lean ====
section
/-! DEFINITION. The command table gives no row any bits: a command has no encoding, and no word spells one. An instruction of an engine
has a 32-bit word of its own (R133, R134): here is which instruction each word stands for, and the word of each instruction. -/
namespace Sys2Proof

/-- The command that a word spells by the table's bits: none, for every word, since every row's `fields` is empty. -/
def decodeTableWord (_nbits _w : Nat) : Option Instr := none

/-! ### Engine words (Tables 6.8 and 6.9) -/

/-- The instructions of opcode 0x00 by func (Table 6.9). -/
def decodeScalar (e func : Nat) (rd ra rb : BitVec 5) : Option Instr :=
  match func with
  | 0 => some (.add e rd ra rb)
  | 1 => some (.sub e rd ra rb)
  | 2 => some (.addS e rd ra rb)
  | 3 => some (.subS e rd ra rb)
  | 4 => some (.and e rd ra rb)
  | 5 => some (.or e rd ra rb)
  | 6 => some (.xor e rd ra rb)
  | 7 => some (.shl e rd ra rb)
  | 8 => some (.shr e rd ra rb)
  | 9 => some (.sar e rd ra rb)
  | 10 => some (.mul e rd ra rb)
  | 11 => some (.mulh e rd ra rb)
  | 12 => some (.div e rd ra rb)
  | 13 => some (.cmp e ra rb)
  | 14 => some (.min e rd ra rb)
  | 15 => some (.max e rd ra rb)
  | 16 => some (.clz e rd ra)
  | 17 => some (.nrm e rd ra)
  | _ => none

/-- The instructions of opcode 0x20 by func (Table 6.9). -/
def decodeExternal (e func : Nat) (rd ra rb : BitVec 5) : Option Instr :=
  match func with
  | 0 => some (.xld64 e rd ra)
  | 1 => some (.xld128 e rd ra)
  | 2 => some (.xst64 e ra rb)
  | 3 => some (.xst128 e ra rb)
  | 4 => some (.xcopyIn e rd ra rb)
  | 5 => some (.xcopyOut e rd ra rb)
  | 8 => some (.xamoAdd e rd ra rb)
  | 9 => some (.xamoSwp e rd ra rb)
  | 10 => some (.xamoCas e rd ra rb)
  | 6 => some (.xwait e (rb.truncate 3))
  | _ => none

/-- The instructions of opcode 0x21 by func (Table 6.9). -/
def decodeQueue (e func : Nat) (rd ra rb : BitVec 5) : Option Instr :=
  match func with
  | 0 => some (.qpush e ra rb)
  | 1 => some (.qpushRel e ra rb)
  | 2 => some (.qpushBlk e rd ra rb)
  | 3 => some (.qpushBlkRel e rd ra rb)
  | 4 => some (.qpop e rd ra)
  | 5 => some (.qpopAcq e rd ra)
  | 6 => some (.qpopBlk e rd ra rb)
  | 7 => some (.qpopBlkAcq e rd ra rb)
  | 8 => some (.qmark e ra)
  | 9 => some (.qrewind e ra)
  | 10 => some (.qrelease e ra)
  | 11 => some (.qstat e rd ra)
  | _ => none

/-- The instructions of opcode 0x22 by func (Table 6.9). -/
def decodeFence (e func : Nat) (ra : BitVec 5) : Option Instr :=
  match func with
  | 0 => some (.fenceLd e)
  | 1 => some (.fenceSt e)
  | 2 => some (.fenceAll e)
  | 3 => some (.fenceQ e)
  | 4 => some (.fenceEpoch e)
  | 5 => some (.fenceTick e ra)
  | _ => none

/-- The instructions of opcode 0x38 by func (Table 6.9). -/
def decodeCall (e func : Nat) (rd ra rb : BitVec 5) : Option Instr :=
  match func with
  | 0 => some (.yield e)
  | 1 => some (.wait e rd ra)
  | 2 => some (.post e rd ra rb)
  | 3 => some (.exit e)
  | 4 => some (.trap e rb)
  | 5 => some (.bexpArm e rb)
  | 6 => some (.bexpRead e rd)
  | 7 => some (.bexpOff e)
  | 8 => some (.stclr e ra)
  | 9 => some (.strd e rd)
  | _ => none

/-- The instruction of engine e that a word stands for; none where Table 6.9 defines none (R135). -/
def decodeEngine (e : Nat) (w : BitVec 32) : Option Instr :=
  let rd : BitVec 5 := w.extractLsb' 21 5
  let ra : BitVec 5 := w.extractLsb' 16 5
  let rb : BitVec 5 := w.extractLsb' 11 5
  let func := (w.extractLsb' 0 11).toNat
  let imm : BitVec 16 := w.extractLsb' 0 16
  let an : BitVec 3 := w.extractLsb' 18 3
  let width : BitVec 2 := w.extractLsb' 16 2
  let mode : BitVec 2 := w.extractLsb' 14 2
  let step : BitVec 14 := w.extractLsb' 0 14
  let aa : BitVec 3 := w.extractLsb' 23 3
  let ab : BitVec 3 := w.extractLsb' 20 3
  let stepA : BitVec 7 := w.extractLsb' 13 7
  let stepB : BitVec 7 := w.extractLsb' 6 7
  let v : BitVec 6 := w.extractLsb' 0 6
  let acc : BitVec 3 := w.extractLsb' 18 3
  let shift : BitVec 6 := w.extractLsb' 12 6
  let round : BitVec 2 := w.extractLsb' 10 2
  let sat := w.getLsbD 9
  let awidth : BitVec 2 := w.extractLsb' 7 2
  let vec := w.getLsbD 6
  let off : BitVec 21 := w.extractLsb' 0 21
  if !Machine.legalWord w.toNat then none
  else
    match (w.extractLsb' 26 6).toNat with
    | 0x00 => decodeScalar e func rd ra rb
    | 0x01 => some (.addi e rd ra imm)
    | 0x02 => some (.andi e rd ra imm)
    | 0x03 => some (.ori e rd ra imm)
    | 0x04 => some (.xori e rd ra imm)
    | 0x05 => some (.lui e rd imm)
    | 0x06 => some (.cmpi e ra imm)
    | 0x07 =>
      match (w.extractLsb' 6 2).toNat with
      | 0 => some (.shli e rd ra v)
      | 1 => some (.shri e rd ra v)
      | _ => some (.sari e rd ra v)
    | 0x08 => some (.ld e rd an width mode step)
    | 0x09 => some (.st e rd an width mode step)
    | 0x0A => some (.amov e aa (w.extractLsb' 21 2) ra imm)
    | 0x0B => some (.aget e rd (w.extractLsb' 16 3))
    | 0x0C => some (.cdset e (w.extractLsb' 1 2) (w.getLsbD 0) ra rb)
    | 0x10 => some (.macS16 e aa ab stepA stepB v)
    | 0x11 => some (.macW16 e aa ab stepA stepB v)
    | 0x12 => some (.macS32 e aa ab stepA stepB v)
    | 0x13 => some (.macW32 e aa ab stepA stepB v)
    | 0x14 => some (.cmacS16 e aa ab stepA stepB v)
    | 0x15 => some (.bflyS16 e aa ab stepA stepB v)
    | 0x18 => some (.acst e aa acc shift round sat awidth vec v)
    | 0x19 => some (.acmv e rd acc shift round sat awidth)
    | 0x1A => some (.acld e rd acc shift)
    | 0x1B => some (.acsum e)
    | 0x1C => some (.acclr e acc vec)
    | 0x20 => decodeExternal e func rd ra rb
    | 0x21 => decodeQueue e func rd ra rb
    | 0x22 => decodeFence e func ra
    | 0x30 => some (.b e rd off)
    | 0x31 => some (.call e off)
    | 0x32 => some (.jr e ra)
    | 0x33 => some (.loop e rd off)
    | 0x38 => decodeCall e func rd ra rb
    | _ => none

/-- The engine of an instruction and its word, as a number; none for a command that is no instruction of an engine. -/
def engineWord : Instr → Option (Nat × Nat)
  | .add e rd ra rb => some (e, Machine.wordR 0x00 rd ra rb 0)
  | .sub e rd ra rb => some (e, Machine.wordR 0x00 rd ra rb 1)
  | .addS e rd ra rb => some (e, Machine.wordR 0x00 rd ra rb 2)
  | .subS e rd ra rb => some (e, Machine.wordR 0x00 rd ra rb 3)
  | .and e rd ra rb => some (e, Machine.wordR 0x00 rd ra rb 4)
  | .or e rd ra rb => some (e, Machine.wordR 0x00 rd ra rb 5)
  | .xor e rd ra rb => some (e, Machine.wordR 0x00 rd ra rb 6)
  | .shl e rd ra rb => some (e, Machine.wordR 0x00 rd ra rb 7)
  | .shr e rd ra rb => some (e, Machine.wordR 0x00 rd ra rb 8)
  | .sar e rd ra rb => some (e, Machine.wordR 0x00 rd ra rb 9)
  | .mul e rd ra rb => some (e, Machine.wordR 0x00 rd ra rb 10)
  | .mulh e rd ra rb => some (e, Machine.wordR 0x00 rd ra rb 11)
  | .div e rd ra rb => some (e, Machine.wordR 0x00 rd ra rb 12)
  | .cmp e ra rb => some (e, Machine.wordR 0x00 0 ra rb 13)
  | .min e rd ra rb => some (e, Machine.wordR 0x00 rd ra rb 14)
  | .max e rd ra rb => some (e, Machine.wordR 0x00 rd ra rb 15)
  | .clz e rd ra => some (e, Machine.wordR 0x00 rd ra 0 16)
  | .nrm e rd ra => some (e, Machine.wordR 0x00 rd ra 0 17)
  | .addi e rd ra imm => some (e, Machine.wordI 0x01 rd ra imm)
  | .andi e rd ra imm => some (e, Machine.wordI 0x02 rd ra imm)
  | .ori e rd ra imm => some (e, Machine.wordI 0x03 rd ra imm)
  | .xori e rd ra imm => some (e, Machine.wordI 0x04 rd ra imm)
  | .lui e rd imm => some (e, Machine.wordI 0x05 rd 0 imm)
  | .cmpi e ra imm => some (e, Machine.wordI 0x06 0 ra imm)
  | .shli e rd ra c => some (e, Machine.wordI 0x07 rd ra (0 + c.zeroExtend 16))
  | .shri e rd ra c => some (e, Machine.wordI 0x07 rd ra (64 + c.zeroExtend 16))
  | .sari e rd ra c => some (e, Machine.wordI 0x07 rd ra (128 + c.zeroExtend 16))
  | .ld e rd an width mode step => some (e, Machine.wordL 0x08 rd an width mode step)
  | .st e rd an width mode step => some (e, Machine.wordL 0x09 rd an width mode step)
  | .amov e an cd ra imm => some (e, Machine.wordI 0x0A (an ++ cd) ra imm)
  | .aget e rd an => some (e, Machine.wordI 0x0B rd (an.zeroExtend 5) 0)
  | .cdset e k brev ra rb => some (e, Machine.wordR 0x0C 0 ra rb (Machine.b2n brev + 2 * k.toNat))
  | .macS16 e aa ab stepA stepB v => some (e, Machine.wordV 0x10 aa ab stepA stepB v)
  | .macW16 e aa ab stepA stepB v => some (e, Machine.wordV 0x11 aa ab stepA stepB v)
  | .macS32 e aa ab stepA stepB v => some (e, Machine.wordV 0x12 aa ab stepA stepB v)
  | .macW32 e aa ab stepA stepB v => some (e, Machine.wordV 0x13 aa ab stepA stepB v)
  | .cmacS16 e aa ab stepA stepB v => some (e, Machine.wordV 0x14 aa ab stepA stepB v)
  | .bflyS16 e aa ab stepA stepB v => some (e, Machine.wordV 0x15 aa ab stepA stepB v)
  | .acst e an acc shift round sat width vec step => some (e, Machine.wordA 0x18 (an ++ (0 : BitVec 2)) acc shift round sat width vec step)
  | .acmv e rd acc shift round sat width => some (e, Machine.wordA 0x19 rd acc shift round sat width false 0)
  | .acld e ra acc shift => some (e, Machine.wordA 0x1A ra acc shift 0 false 0 false 0)
  | .acsum e => some (e, Machine.wordA 0x1B 0 0 0 0 false 0 false 0)
  | .acclr e acc vec => some (e, Machine.wordA 0x1C 0 acc 0 0 false 0 vec 0)
  | .xld64 e rd ra => some (e, Machine.wordR 0x20 rd ra 0 0)
  | .xld128 e rd ra => some (e, Machine.wordR 0x20 rd ra 0 1)
  | .xst64 e ra rb => some (e, Machine.wordR 0x20 0 ra rb 2)
  | .xst128 e ra rb => some (e, Machine.wordR 0x20 0 ra rb 3)
  | .xcopyIn e rd ra rb => some (e, Machine.wordR 0x20 rd ra rb 4)
  | .xcopyOut e rd ra rb => some (e, Machine.wordR 0x20 rd ra rb 5)
  | .xamoAdd e rd ra rb => some (e, Machine.wordR 0x20 rd ra rb 8)
  | .xamoSwp e rd ra rb => some (e, Machine.wordR 0x20 rd ra rb 9)
  | .xamoCas e rd ra rb => some (e, Machine.wordR 0x20 rd ra rb 10)
  | .xwait e tag => some (e, Machine.wordR 0x20 0 0 (tag.zeroExtend 5) 6)
  | .qpush e ra rb => some (e, Machine.wordR 0x21 0 ra rb 0)
  | .qpushRel e ra rb => some (e, Machine.wordR 0x21 0 ra rb 1)
  | .qpushBlk e rd ra rb => some (e, Machine.wordR 0x21 rd ra rb 2)
  | .qpushBlkRel e rd ra rb => some (e, Machine.wordR 0x21 rd ra rb 3)
  | .qpop e rd ra => some (e, Machine.wordR 0x21 rd ra 0 4)
  | .qpopAcq e rd ra => some (e, Machine.wordR 0x21 rd ra 0 5)
  | .qpopBlk e rd ra rb => some (e, Machine.wordR 0x21 rd ra rb 6)
  | .qpopBlkAcq e rd ra rb => some (e, Machine.wordR 0x21 rd ra rb 7)
  | .qmark e ra => some (e, Machine.wordR 0x21 0 ra 0 8)
  | .qrewind e ra => some (e, Machine.wordR 0x21 0 ra 0 9)
  | .qrelease e ra => some (e, Machine.wordR 0x21 0 ra 0 10)
  | .qstat e rd ra => some (e, Machine.wordR 0x21 rd ra 0 11)
  | .fenceLd e => some (e, Machine.wordR 0x22 0 0 0 0)
  | .fenceSt e => some (e, Machine.wordR 0x22 0 0 0 1)
  | .fenceAll e => some (e, Machine.wordR 0x22 0 0 0 2)
  | .fenceQ e => some (e, Machine.wordR 0x22 0 0 0 3)
  | .fenceEpoch e => some (e, Machine.wordR 0x22 0 0 0 4)
  | .fenceTick e ra => some (e, Machine.wordR 0x22 0 ra 0 5)
  | .b e c off => some (e, Machine.wordB 0x30 c off)
  | .call e off => some (e, Machine.wordB 0x31 0 off)
  | .jr e ra => some (e, Machine.wordR 0x32 0 ra 0 0)
  | .loop e r off => some (e, Machine.wordB 0x33 r off)
  | .yield e => some (e, Machine.wordR 0x38 0 0 0 0)
  | .wait e rd ra => some (e, Machine.wordR 0x38 rd ra 0 1)
  | .post e rd ra rb => some (e, Machine.wordR 0x38 rd ra rb 2)
  | .exit e => some (e, Machine.wordR 0x38 0 0 0 3)
  | .trap e rb => some (e, Machine.wordR 0x38 0 0 rb 4)
  | .bexpArm e rb => some (e, Machine.wordR 0x38 0 0 rb 5)
  | .bexpRead e rd => some (e, Machine.wordR 0x38 rd 0 0 6)
  | .bexpOff e => some (e, Machine.wordR 0x38 0 0 0 7)
  | .stclr e ra => some (e, Machine.wordR 0x38 0 ra 0 8)
  | .strd e rd => some (e, Machine.wordR 0x38 rd 0 0 9)
  | _ => none

end Sys2Proof
end

