-- ==== Sys2Proof/Machine/State.lean ====
section
/-! DEFINITION. The state of the block: the device with its memories, and the commands that wait for it, first in, first
out. The device's own fields stand in Dev (Sys2Proof/Machine/Dev.lean) and its parts. -/
namespace Sys2Proof.Machine

/-- The block: `pending` is the queue of commands, `sys` everything that the spec gives the device. -/
structure State where
  pending : List Instr
  sys     : Sys
  deriving DecidableEq, Repr

/-- Why a step stops with a fault. The block has no such end: what the spec calls a fault (an engine exception, a report to
the fault collector, a refused access) is an effect on the device. No meaning raises one. -/
inductive Fault where
  deriving DecidableEq, Repr

/-- Why a command has no meaning. -/
inductive Refusal where
  /-- Raised by exec for a command of the table that the model does not know: no arm raises it. Safe. -/
  | notModelled (mnemonic : String)
  deriving DecidableEq, Repr

/-- Power on and RESET_N low (R313, R314), no command waiting. -/
def State.reset : State := { pending := [], sys := Sys.reset }

end Sys2Proof.Machine
end

