-- ==== Sys2Proof/Machine/Effect.lean ====
section
/-! DEFINITION. The one form of every meaning: the command's effect on the device, the queue left alone. -/
namespace Sys2Proof.Machine

/-- The command completes with an effect on the device and its memories. -/
def effect (f : Sys → Sys) (s : State) : Host.Outcome State Fault Refusal := .next { s with sys := f s.sys }

/-- The command completes with an effect on the device that leaves the addressed memories alone. -/
def effectDev (f : Dev → Dev) (s : State) : Host.Outcome State Fault Refusal := effect (Sys.onDev f) s

/-- A read command of its own row: what the device state allows is asked first (R309, R325). -/
def guardedRead (r : Row) (f : Dev → Dev) (d : Dev) : Dev :=
  if silent d then d else if stateRefuses d r.idx r.sub false then refuse d abortState else f d

end Sys2Proof.Machine
end

