-- ==== Sys2Proof/Machine/CallCmds.lean ====
section
/-! DEFINITION. Meanings of commands: setup records, frames of work, and the epochs of the dictionary (R17, R64 to R91). -/
namespace Sys2Proof.Machine

/-- SETUP_RECORD_WRITE (R70): Setup records are checked at write for sequence, store room, lead, tick room, format and keys;
bit k of badKeys tells that a key of record k fails to unwrap. -/
def doSetupRecordWrite (data : Bytes) (badKeys : Nat) (s : State) : Host.Outcome State Fault Refusal :=
  effectDev (guarded Obj.setupRecord (setupRecordWrite data badKeys)) s

/-- ENDPOINT_REGISTER (R65): At its tick the record registers an endpoint context. -/
def doEndpointRegister (rec_ : SetupRec) (s : State) : Host.Outcome State Fault Refusal :=
  effectDev (recordEndpointRegister rec_) s

/-- ENDPOINT_REMOVE (R72): At its tick the record frees a registered endpoint. -/
def doEndpointRemove (rec_ : SetupRec) (s : State) : Host.Outcome State Fault Refusal :=
  effectDev (recordEndpointRemove rec_) s

/-- CHANNEL_OPEN (R78): At its tick a channel is admitted through the CAP, STATE, CIPHER and GROUP checks and the choice of
engine and phase, or refused. -/
def doChannelOpen (rec_ : SetupRec) (s : State) : Host.Outcome State Fault Refusal :=
  effectDev (recordChannelOpen rec_) s

/-- CHANNEL_CLOSE (R68): At its tick a channel is closed: packets flushed, units returned, TCB freed, final evidence block
written. -/
def doChannelClose (rec_ : SetupRec) (s : State) : Host.Outcome State Fault Refusal :=
  effectDev (recordChannelClose rec_) s

/-- CHANNEL_MODIFY (R73): At its tick a channel's parameters change, with cost and cipher load checked on its own engine. -/
def doChannelModify (rec_ : SetupRec) (s : State) : Host.Outcome State Fault Refusal :=
  effectDev (recordChannelModify rec_) s

/-- GROUP_JOIN (R69): At its tick a channel joins a group with a member index. -/
def doGroupJoin (rec_ : SetupRec) (s : State) : Host.Outcome State Fault Refusal :=
  effectDev (recordGroupJoin rec_) s

/-- GROUP_LEAVE (R67): At its tick a channel leaves its group and becomes receive-only. -/
def doGroupLeave (rec_ : SetupRec) (s : State) : Host.Outcome State Fault Refusal :=
  effectDev (recordGroupLeave rec_) s

/-- KEY_UPDATE (R66): At its tick the record replaces the endpoint's send or receive key, and keeps the previous receive key.
-/
def doKeyUpdate (rec_ : SetupRec) (s : State) : Host.Outcome State Fault Refusal :=
  effectDev (recordKeyUpdate rec_) s

/-- ENDPOINT_UPDATE (R77): At its tick the record updates an endpoint and recomputes the cost of the channels it touches. -/
def doEndpointUpdate (rec_ : SetupRec) (s : State) : Host.Outcome State Fault Refusal :=
  effectDev (recordEndpointUpdate rec_) s

/-- PREVIOUS_KEY_EXPIRY (R66): The previous receive key stops being usable 500 ticks after the KEY_UPDATE. -/
def doPreviousKeyExpiry (endpoint : Nat) (s : State) : Host.Outcome State Fault Refusal :=
  effectDev (previousKeyExpiry endpoint) s

/-- SETUP_RESULTS_READ (R75): A read of SetupResults returns the held results, oldest first, and frees them. -/
def doSetupResultsRead (s : State) : Host.Outcome State Fault Refusal :=
  effectDev (guardedRead Obj.setupResults setupResultsRead) s

/-- FRAME_WORK (R17): A channel's frame release plays out, decodes, treats, mixes, encodes and pushes one frame; the frame
work of a channel, with what its signal processing comes to. -/
def doFrameWork (channel : Nat) (work : Work) (s : State) : Host.Outcome State Fault Refusal :=
  effectDev (frameWork channel work) s

/-- EPOCH_COMMIT (R86): A write of EpochCommit closes the staging set for epoch E at a target tick, or is refused. -/
def doEpochCommit (epoch tick : Nat) (s : State) : Host.Outcome State Fault Refusal :=
  effectDev (guarded Obj.epochCommit (epochCommit epoch tick)) s

/-- EPOCH_ABORT (R86): A write of EpochAbort withdraws the pending commit and returns its values to staging, or is refused. -/
def doEpochAbort (s : State) : Host.Outcome State Fault Refusal :=
  effectDev (guarded Obj.epochAbort epochAbort) s

/-- OBJECT_WRITE (R280): A write to an object with no row of its own is checked and either applied at once or staged; routes 0
and 1 are the CAN buses, 2 + s the Gencel Object Access session s. -/
def doObjectWrite (route idx sub item : Nat) (data : Bytes) (facts : Outside) (s : State) : Host.Outcome State Fault
    Refusal :=
  effectDev (objectWrite route idx sub item data facts) s

end Sys2Proof.Machine
end

