-- ==== Sys2Proof/Machine/EventCmds.lean ====
section
/-! DEFINITION. Meanings of commands: the remaining events of time, twin, supplies, store and buses (R23, R219, R245, R274, R287, R312,
R319, R324). -/
namespace Sys2Proof.Machine

/-- DELAY_REQ_TX (R23): Each enabled slot sends its Delay_Req (or Pdelay_Req) at the LogDelayReqInterval rate and takes its
egress timestamp. -/
def doDelayReqTx (slot : Nat) (s : State) : Host.Outcome State Fault Refusal :=
  effectDev (delayReqTx slot) s

/-- JOIN_STATE_COPY_COMPLETE (R219): Step 3 of a join ends when the dictionary values, endpoint table, flow table, profiles
and tone sets have been copied to the joiner. -/
def doJoinStateCopyComplete (copy : JoinCopy) (s : State) : Host.Outcome State Fault Refusal :=
  effectDev (joinStateCopyComplete copy) s

/-- THERMAL_WARNING_REARM (R312): The thermal warning re-arms when every sensor has fallen 5.0 °C below ThermalWarning. -/
def doThermalWarningRearm (temps : List Int) (s : State) : Host.Outcome State Fault Refusal :=
  effectDev (thermalWarningRearm temps) s

/-- VDD_IO18_REMOVED (R324): Removing VDD_IO18 during power-down clears the retention register and ends a quench. -/
def doVddIo18Removed (s : State) : Host.Outcome State Fault Refusal :=
  effect vddIo18Removed s

/-- FORMAT_COMPLETE (R245): A FORMAT finishes labelling every namespace and zeroing every slot header, and the store host
takes the new ring into use. -/
def doFormatComplete (s : State) : Host.Outcome State Fault Refusal :=
  effectDev formatComplete s

/-- FLASH_WRITE_DONE (R319): Writing a verified image to a flash slot completes and FirmwareLoadStatus becomes done. -/
def doFlashWriteDone (s : State) : Host.Outcome State Fault Refusal :=
  effectDev flashWriteDone s

/-- MGMT_LINK_CHANGE (R287): The management Ethernet link goes up or down, changing MgmtLinkSpeed and the Communication bit of
ErrorRegister; 0 down, 1 10, 2 100, 3 1,000 Mbit/s. -/
def doMgmtLinkChange (speed : Nat) (s : State) : Host.Outcome State Fault Refusal :=
  effectDev (mgmtLinkChange speed) s

/-- CAN_ERROR_PASSIVE (R274): A CAN bus becomes error passive or returns to error active, changing BusState and the
Communication bit of ErrorRegister. -/
def doCanErrorPassive (bus : Nat) (passive : Bool) (s : State) : Host.Outcome State Fault Refusal :=
  effectDev (canErrorPassive bus passive) s

end Sys2Proof.Machine
end

