-- ==== Sys2Proof/Machine/FaultCmds.lean ====
section
/-! DEFINITION. Meanings of commands: faults, supplies, starting and firmware (R295 to R326). -/
namespace Sys2Proof.Machine

/-- FAULT_REPORT (R295): The collector receives a report, starts its reaction, marks it consequential or escalates it, and
logs it. -/
def doFaultReport (cls code inst detail : Nat) (s : State) : Host.Outcome State Fault Refusal :=
  effectDev (faultReport cls code inst detail) s

/-- BLOCK_RESET_END (R298): A block reset completes and the settle time begins. -/
def doBlockResetEnd (kind inst : Nat) (s : State) : Host.Outcome State Fault Refusal :=
  effectDev (blockResetEnd kind inst) s

/-- SETTLE_TIME_EXPIRY (R298): The consequential window closes SettleTime after the reset. -/
def doSettleTimeExpiry (kind inst : Nat) (s : State) : Host.Outcome State Fault Refusal :=
  effectDev (settleTimeExpiry kind inst) s

/-- COALESCE_WINDOW_CLOSE (R303): An open log entry closes and is copied to the ring; the log entry of a sequence. -/
def doCoalesceWindowClose (seq : Nat) (s : State) : Host.Outcome State Fault Refusal :=
  effectDev (coalesceWindowClose seq) s

/-- HEARTBEAT_TIMEOUT (R306): No heartbeat within HeartbeatTimeout, or within 5 s of Ready, and PILOT stops. -/
def doHeartbeatTimeout (s : State) : Host.Outcome State Fault Refusal :=
  effectDev heartbeatTimeout s

/-- WATCHDOG (R306): WatchdogGrace passes without a heartbeat, and FC3 0x0C20 starts a warm start. -/
def doWatchdog (s : State) : Host.Outcome State Fault Refusal :=
  effectDev watchdog s

/-- FAULT_N_RELEASE (R308): FAULT_N is released once no FC3 window stands and 100 ms have passed. -/
def doFaultNRelease (s : State) : Host.Outcome State Fault Refusal :=
  effectDev faultNRelease s

/-- RAIL_OUT_OF_RANGE (R312): A rail out of range for more than 20 µs is FC4 0x0D40. -/
def doRailOutOfRange (rail : Nat) (s : State) : Host.Outcome State Fault Refusal :=
  effectDev (railOutOfRange rail) s

/-- THERMAL_WARNING (R312): A sensor reaches ThermalWarning, and FC0 0x0D01 is reported. -/
def doThermalWarning (sensor : Nat) (temp : Int) (s : State) : Host.Outcome State Fault Refusal :=
  effectDev (thermalWarning sensor temp) s

/-- OVER_TEMPERATURE (R312): A sensor at OverTemperatureLimit for 1 ms is FC4 0x0D41. -/
def doOverTemperature (sensor : Nat) (temp : Int) (s : State) : Host.Outcome State Fault Refusal :=
  effectDev (overTemperature sensor temp) s

/-- RESET_N_LOW (R314): RESET_N low idles the outputs and abandons NVMe commands. -/
def doResetNLow (s : State) : Host.Outcome State Fault Refusal :=
  effectDev resetNLow s

/-- COLD_START (R316): A rising edge of RESET_N, a command or a retry runs the cold start steps to Ready; the straps sampled,
and what the start meets. -/
def doColdStart (straps : Straps) (world : StartWorld) (s : State) : Host.Outcome State Fault Refusal :=
  effect (coldStart straps world) s

/-- PTP_ACQUIRE_TIMEOUT (R316): Step 10 ends at PtpAcquireTimeout with network time FREERUN. -/
def doPtpAcquireTimeout (s : State) : Host.Outcome State Fault Refusal :=
  effectDev ptpAcquireTimeout s

/-- PROCEED (R316): StartCommand 6 ends step 10 of a cold start. -/
def doProceed (s : State) : Host.Outcome State Fault Refusal :=
  effectDev (guarded Obj.startCommand proceed) s

/-- WARM (R320): StartCommand 1 begins a commanded warm start. -/
def doWarm (s : State) : Host.Outcome State Fault Refusal :=
  effectDev (guarded Obj.startCommand warm) s

/-- WARM_SELFTEST (R320): StartCommand 2 begins a warm start with memory self-test. -/
def doWarmSelftest (s : State) : Host.Outcome State Fault Refusal :=
  effectDev (guarded Obj.startCommand warmSelftest) s

/-- COLD (R316): StartCommand 3 begins a cold start with the straps last sampled. -/
def doCold (s : State) : Host.Outcome State Fault Refusal :=
  effectDev (guarded Obj.startCommand cold) s

/-- REKINDLE (R325): StartCommand 4 leaves the banked state by a cold start. -/
def doRekindle (s : State) : Host.Outcome State Fault Refusal :=
  effectDev (guarded Obj.startCommand rekindle) s

/-- REKINDLE_RECOVERY (R325): StartCommand 5 leaves the banked state by a cold start from the recovery image. -/
def doRekindleRecovery (s : State) : Host.Outcome State Fault Refusal :=
  effectDev (guarded Obj.startCommand rekindleRecovery) s

/-- WARM_START (R320): A warm start runs its steps, keeping time and configuration and discarding channels and queues. -/
def doWarmStart (world : StartWorld) (s : State) : Host.Outcome State Fault Refusal :=
  effectDev (warmStart world) s

/-- START_STEP_TIMEOUT (R322): A start step exceeds its bound, the start fails, and the next start is chosen by Table 16.8 or
the device is banked. -/
def doStartStepTimeout (step_ : Nat) (s : State) : Host.Outcome State Fault Refusal :=
  effectDev (startStepTimeout step_) s

/-- FIRMWARE_LOAD_DATA (R319): A write of FirmwareLoadData stores image bytes at FirmwareLoadOffset. -/
def doFirmwareLoadData (data : Bytes) (s : State) : Host.Outcome State Fault Refusal :=
  effectDev (guarded Obj.firmwareLoadData (firmwareLoadData data)) s

/-- VERIFY_AND_COMMIT (R319): FirmwareLoadCommand 1 verifies the image and runs it, or writes it to flash. -/
def doVerifyAndCommit (signed : Bool) (s : State) : Host.Outcome State Fault Refusal :=
  effectDev (guarded Obj.firmwareLoadCommand (verifyAndCommit signed)) s

/-- DISCARD (R319): FirmwareLoadCommand 2 discards the received image. -/
def doDiscard (s : State) : Host.Outcome State Fault Refusal :=
  effectDev (guarded Obj.firmwareLoadCommand discard) s

/-- RAISE_ROLLBACK_INDEX (R319): FirmwareLoadCommand 3 raises the fused rollback index. -/
def doRaiseRollbackIndex (s : State) : Host.Outcome State Fault Refusal :=
  effectDev (guarded Obj.firmwareLoadCommand raiseRollbackIndex) s

/-- FIRMWARE_LOAD_TIMEOUT (R322): In boot mode 2 no image arrives within FirmwareLoadTimeout, and step 8 fails. -/
def doFirmwareLoadTimeout (s : State) : Host.Outcome State Fault Refusal :=
  effectDev firmwareLoadTimeout s

end Sys2Proof.Machine
end

