-- ==== Sys2Proof/Machine/EngineAlu.lean ====
section
/-! DEFINITION. The scalar instructions of the Abtia engine (R130, Table 6.9, opcodes 0x00 to 0x07). -/
namespace Sys2Proof.Machine

/-- The 64-bit word of an integer, modulo 2⁶⁴. -/
def wordOfInt (x : Int) : Word := BitVec.ofInt 64 x

/-- An integer saturated to 64 bits, and whether that changed it (R130). -/
def satWord (x : Int) : Word × Bool :=
  let y := clampInt (-(2 ^ 63)) (2 ^ 63 - 1) x
  (wordOfInt y, decide (y ≠ x))

/-- A saturating instruction: rd written and SAT set where the result saturated (R130). -/
def satRun (s : Sys) (e word : Nat) (rd ra rb : BitVec 5) (f : Word → Word → Word × Bool) : Sys :=
  ctxRun s e word (needRegs [rd, ra, rb]) (fun c =>
    let r := f (c.reg ra) (c.reg rb)
    .ok ((c.setReg rd r.1 (c.psn ra || c.psn rb)).stick St.sat r.2))

/-- A shift by rb bits 5:0; a poisoned rb is POISON_CONTROL (Table 6.7). -/
def shiftRun (s : Sys) (e word : Nat) (rd ra rb : BitVec 5) (f : Word → Nat → Word) : Sys :=
  ctxRun s e word (needRegs [rd, ra, rb]) (fun c =>
    if c.psn rb then .error exPoison
    else .ok (c.setReg rd (f (c.reg ra) ((c.reg rb).toNat % 64)) (c.psn ra)))

/-- The flags of a comparison written to ST. -/
def flagsRun (s : Sys) (e word : Nat) (srcs : List (BitVec 5)) (f : Ctx → CondFlags) : Sys :=
  ctxRun s e word (fun o => needRegs srcs o || needFlags o) (fun c => .ok (c.setFlags (f c) (srcs.any c.psn)))

/-- Division (R130): the quotient rounded toward zero; by zero, and of -2⁶³ by -1, the saturated values with SAT. -/
def divWord (x y : Word) : Word × Bool :=
  if y = 0 then (if x.msb then 0x8000000000000000 else 0x7FFFFFFFFFFFFFFF, true)
  else if x = 0x8000000000000000 ∧ y.toInt = -1 then (0x7FFFFFFFFFFFFFFF, true)
  else (wordOfInt (x.toInt.tdiv y.toInt), false)

/-- The number of leading zeros of a word. -/
def leadingZeros (x : Word) : Nat := if x = 0 then 64 else 63 - Nat.log2 x.toNat
/-- The number of redundant sign bits of a word: leading bits equal to the sign, the sign itself left out. -/
def redundantSigns (x : Word) : Nat := leadingZeros (if x.msb then ~~~x else x) - 1

/-- The immediate of format I, sign-extended (Table 6.8). -/
def sext16 (imm : BitVec 16) : Word := imm.signExtend 64
/-- The immediate, zero-extended. -/
def zext16 (imm : BitVec 16) : Word := imm.zeroExtend 64

/-- ADD: rd = ra + rb, wrapping. -/
def execAdd (e : Nat) (rd ra rb : BitVec 5) (s : Sys) : Sys :=
  scalarRun s e (wordR 0 rd ra rb 0) rd [ra, rb] (fun c => c.reg ra + c.reg rb)
/-- SUB: rd = ra - rb, wrapping. -/
def execSub (e : Nat) (rd ra rb : BitVec 5) (s : Sys) : Sys :=
  scalarRun s e (wordR 0 rd ra rb 1) rd [ra, rb] (fun c => c.reg ra - c.reg rb)
/-- ADD.S: the sum saturated to 64 bits (R130). -/
def execAddS (e : Nat) (rd ra rb : BitVec 5) (s : Sys) : Sys :=
  satRun s e (wordR 0 rd ra rb 2) rd ra rb (fun x y => satWord (x.toInt + y.toInt))
/-- SUB.S: the difference saturated to 64 bits (R130). -/
def execSubS (e : Nat) (rd ra rb : BitVec 5) (s : Sys) : Sys :=
  satRun s e (wordR 0 rd ra rb 3) rd ra rb (fun x y => satWord (x.toInt - y.toInt))
/-- AND. -/
def execAnd (e : Nat) (rd ra rb : BitVec 5) (s : Sys) : Sys :=
  scalarRun s e (wordR 0 rd ra rb 4) rd [ra, rb] (fun c => c.reg ra &&& c.reg rb)
/-- OR. -/
def execOr (e : Nat) (rd ra rb : BitVec 5) (s : Sys) : Sys :=
  scalarRun s e (wordR 0 rd ra rb 5) rd [ra, rb] (fun c => c.reg ra ||| c.reg rb)
/-- XOR. -/
def execXor (e : Nat) (rd ra rb : BitVec 5) (s : Sys) : Sys :=
  scalarRun s e (wordR 0 rd ra rb 6) rd [ra, rb] (fun c => c.reg ra ^^^ c.reg rb)
/-- SHL: shift left by rb bits 5:0. -/
def execShl (e : Nat) (rd ra rb : BitVec 5) (s : Sys) : Sys :=
  shiftRun s e (wordR 0 rd ra rb 7) rd ra rb (fun x n => x <<< n)
/-- SHR: logical shift right. -/
def execShr (e : Nat) (rd ra rb : BitVec 5) (s : Sys) : Sys :=
  shiftRun s e (wordR 0 rd ra rb 8) rd ra rb (fun x n => x >>> n)
/-- SAR: arithmetic shift right. -/
def execSar (e : Nat) (rd ra rb : BitVec 5) (s : Sys) : Sys :=
  shiftRun s e (wordR 0 rd ra rb 9) rd ra rb (fun x n => x.sshiftRight n)
/-- MUL: the low 64 bits of the product. -/
def execMul (e : Nat) (rd ra rb : BitVec 5) (s : Sys) : Sys :=
  scalarRun s e (wordR 0 rd ra rb 10) rd [ra, rb] (fun c => c.reg ra * c.reg rb)
/-- MULH: the high 64 bits of the signed product. -/
def execMulh (e : Nat) (rd ra rb : BitVec 5) (s : Sys) : Sys :=
  scalarRun s e (wordR 0 rd ra rb 11) rd [ra, rb] (fun c => wordOfInt (((c.reg ra).toInt * (c.reg rb).toInt) / 2 ^ 64))
/-- DIV (R130). -/
def execDiv (e : Nat) (rd ra rb : BitVec 5) (s : Sys) : Sys :=
  satRun s e (wordR 0 rd ra rb 12) rd ra rb divWord
/-- CMP: flags from ra - rb. -/
def execCmp (e : Nat) (ra rb : BitVec 5) (s : Sys) : Sys :=
  flagsRun s e (wordR 0 0 ra rb 13) [ra, rb] (fun c => flagsOfSub (c.reg ra) (c.reg rb))
/-- MIN, signed. -/
def execMin (e : Nat) (rd ra rb : BitVec 5) (s : Sys) : Sys :=
  scalarRun s e (wordR 0 rd ra rb 14) rd [ra, rb]
    (fun c => if (c.reg ra).toInt ≤ (c.reg rb).toInt then c.reg ra else c.reg rb)
/-- MAX, signed. -/
def execMax (e : Nat) (rd ra rb : BitVec 5) (s : Sys) : Sys :=
  scalarRun s e (wordR 0 rd ra rb 15) rd [ra, rb]
    (fun c => if (c.reg ra).toInt ≤ (c.reg rb).toInt then c.reg rb else c.reg ra)
/-- CLZ: leading zeros of ra. -/
def execClz (e : Nat) (rd ra : BitVec 5) (s : Sys) : Sys :=
  scalarRun s e (wordR 0 rd ra 0 16) rd [ra] (fun c => BitVec.ofNat 64 (leadingZeros (c.reg ra)))
/-- NRM: redundant sign bits of ra. -/
def execNrm (e : Nat) (rd ra : BitVec 5) (s : Sys) : Sys :=
  scalarRun s e (wordR 0 rd ra 0 17) rd [ra] (fun c => BitVec.ofNat 64 (redundantSigns (c.reg ra)))
/-- ADDI: rd = ra + imm, imm sign-extended. -/
def execAddi (e : Nat) (rd ra : BitVec 5) (imm : BitVec 16) (s : Sys) : Sys :=
  scalarRun s e (wordI 1 rd ra imm) rd [ra] (fun c => c.reg ra + sext16 imm)
/-- ANDI, imm zero-extended. -/
def execAndi (e : Nat) (rd ra : BitVec 5) (imm : BitVec 16) (s : Sys) : Sys :=
  scalarRun s e (wordI 2 rd ra imm) rd [ra] (fun c => c.reg ra &&& zext16 imm)
/-- ORI, imm zero-extended. -/
def execOri (e : Nat) (rd ra : BitVec 5) (imm : BitVec 16) (s : Sys) : Sys :=
  scalarRun s e (wordI 3 rd ra imm) rd [ra] (fun c => c.reg ra ||| zext16 imm)
/-- XORI, imm zero-extended. -/
def execXori (e : Nat) (rd ra : BitVec 5) (imm : BitVec 16) (s : Sys) : Sys :=
  scalarRun s e (wordI 4 rd ra imm) rd [ra] (fun c => c.reg ra ^^^ zext16 imm)
/-- LUI: rd = imm × 65,536, sign-extended from bit 31. -/
def execLui (e : Nat) (rd : BitVec 5) (imm : BitVec 16) (s : Sys) : Sys :=
  scalarRun s e (wordI 5 rd 0 imm) rd [] (fun _ => sext16 imm <<< 16)
/-- CMPI: flags from ra - imm. -/
def execCmpi (e : Nat) (ra : BitVec 5) (imm : BitVec 16) (s : Sys) : Sys :=
  flagsRun s e (wordI 6 0 ra imm) [ra] (fun c => flagsOfSub (c.reg ra) (sext16 imm))
/-- SHLI: shift left by imm 5:0 (imm 7:6 = 0). -/
def execShli (e : Nat) (rd ra : BitVec 5) (count : BitVec 6) (s : Sys) : Sys :=
  scalarRun s e (wordI 7 rd ra (count.zeroExtend 16)) rd [ra] (fun c => c.reg ra <<< count.toNat)
/-- SHRI: logical shift right by imm 5:0 (imm 7:6 = 1). -/
def execShri (e : Nat) (rd ra : BitVec 5) (count : BitVec 6) (s : Sys) : Sys :=
  scalarRun s e (wordI 7 rd ra (64 + count.zeroExtend 16)) rd [ra] (fun c => c.reg ra >>> count.toNat)
/-- SARI: arithmetic shift right by imm 5:0 (imm 7:6 = 2). -/
def execSari (e : Nat) (rd ra : BitVec 5) (count : BitVec 6) (s : Sys) : Sys :=
  scalarRun s e (wordI 7 rd ra (128 + count.zeroExtend 16)) rd [ra] (fun c => (c.reg ra).sshiftRight count.toNat)

end Sys2Proof.Machine
end

