-- ==== Sys2Proof/Machine/EngineLocal.lean ====
section
/-! DEFINITION. Local-memory and address instructions: LD, ST, AMOV, AGET, CDSET (R119 to R125, opcodes 0x08 to 0x0C),
block-exponent and status instructions (R118, R131). -/
namespace Sys2Proof.Machine

/-- The bytes of a width code (Table 6.8). -/
def widthBytes (width : BitVec 2) : Nat := 2 ^ (width.toNat + 1)

/-- The poison of each 64-bit word of a run of bytes. -/
def wordPoison (marks : List Bool) (w : Nat) : Bool := ((marks.drop (8 * w)).take 8).any id

/-- The mask of poisoned 64-bit words of a run of bytes. -/
def poisonMask (marks : List Bool) : Nat :=
  (List.range (ceilDiv marks.length 8)).foldr (fun w n => n + b2n (wordPoison marks w) * 2 ^ w) 0

/-- Why a local access cannot run: a pair that is not even, a mode that is reserved, ALIGN or LM_RANGE. -/
def localCheck (c : Ctx) (r : BitVec 5) (an : BitVec 3) (width mode : BitVec 2) : Option Nat :=
  if (width = 3 && !isPair r) || decide (2 ≤ mode.toNat) then some exIllegal else c.localFault an (widthBytes width)

/-- The post-modify of format L. -/
def modifyL (c : Ctx) (an : BitVec 3) (mode : BitVec 2) (step : BitVec 14) : Ctx :=
  if mode = 1 then c.postModify an step.toInt else c

/-- A loaded value in its register: 16 and 32 bits sign-extended; 128 bits to the pair (Table 6.8). -/
def loadReg (c : Ctx) (rd : BitVec 5) (width : BitVec 2) (v : Nat) (marks : List Bool) : Ctx :=
  if width = 3 then c.setPair rd v (poisonMask marks)
  else c.setReg rd (wordOfInt (toSigned (8 * widthBytes width) v)) (marks.any id)

/-- The registers that a width names. -/
def regsOf (r : BitVec 5) (width : BitVec 2) : List (BitVec 5) := if width = 3 then [r, pairHi r] else [r]

/-- LD: a phase-A read (R120). -/
def execLd (e : Nat) (rd : BitVec 5) (an : BitVec 3) (width mode : BitVec 2) (step : BitVec 14) (s : Sys) : Sys :=
  engineRun s e (wordL 8 rd an width mode step) (needRegs (regsOf rd width)) (fun s _ =>
    let c := ctxAt s e
    match localCheck c rd an width mode with
    | some x => .ex x
    | none =>
      let (v, marks, s) := lmRead s e (c.addrs an (widthBytes width))
      .next (putCtx s e (modifyL (loadReg c rd width v marks) an mode step)))

/-- ST: a phase-B write (R120), watched under block mode (R131). -/
def execSt (e : Nat) (rd : BitVec 5) (an : BitVec 3) (width mode : BitVec 2) (step : BitVec 14) (s : Sys) : Sys :=
  engineRun s e (wordL 9 rd an width mode step) (needRegs (regsOf rd width)) (fun s _ =>
    let c := ctxAt s e
    match localCheck c rd an width mode with
    | some x => .ex x
    | none =>
      let n := widthBytes width
      let v := if width = 3 then c.pair rd else (c.reg rd).toNat % 2 ^ (8 * n)
      let p := if width = 3 then c.pairPsn rd else b2n (c.psn rd)
      let marks := (List.range n).map (fun j => p.testBit (j / 8))
      let s := lmWrite s e (c.addrs an n) v marks
      .next (putCtx s e ((modifyL (c.watch (8 * n) v) an mode step).stick St.psn (p != 0))))

/-- AMOV: OFFSET = ra + imm and the descriptor select (Table 6.9); a poisoned ra is a poisoned address. -/
def execAmov (e : Nat) (an : BitVec 3) (cd : BitVec 2) (ra : BitVec 5) (imm : BitVec 16) (s : Sys) : Sys :=
  let rd : BitVec 5 := BitVec.ofNat 5 (an.toNat * 4 + cd.toNat)
  ctxRun s e (wordI 0x0A rd ra imm) (needRegs [ra]) (fun c =>
    if c.psn ra then .error exPoison
    else
      let off := (c.reg ra + sext16 imm).toNat % 2 ^ 18
      .ok { c with a := c.a.set an.toNat (BitVec.ofNat 32 (off + cd.toNat * 2 ^ 20)) })

/-- AGET: rd = OFFSET. -/
def execAget (e : Nat) (rd : BitVec 5) (an : BitVec 3) (s : Sys) : Sys :=
  ctxRun s e (wordI 0x0B rd (an.zeroExtend 5) 0) (needRegs [rd]) (fun c =>
    .ok (c.setReg rd (BitVec.ofNat 64 (c.offset an)) false))

/-- Whether a length is a power of two of at least 4 bytes (R125). -/
def brevLength (n : Nat) : Bool := decide (4 ≤ n) && decide (2 ^ Nat.log2 n = n)

/-- CDSET: BASE = ra, LENGTH = rb, BREV (R125). -/
def execCdset (e : Nat) (k : BitVec 2) (brev : Bool) (ra rb : BitVec 5) (s : Sys) : Sys :=
  ctxRun s e (wordR 0x0C 0 ra rb (b2n brev + 2 * k.toNat)) (needRegs [ra, rb]) (fun c =>
    let len := (c.reg rb).toNat % 2 ^ 19
    if brev && !c.psn rb && !brevLength len then .error exIllegal
    else if c.psn ra || c.psn rb then .error exPoison
    else
      .ok { c with cd := c.cd.set k.toNat (BitVec.ofNat 64 ((c.reg ra).toNat % 2 ^ 18 + len * 2 ^ 18 + b2n brev * 2 ^ 37)) })

/-- BEXP.ARM: block state cleared, block mode armed; nothing watched yet reads as shift 0 with BEXP_ZERO set (R131). -/
def execBexpArm (e : Nat) (width : BitVec 5) (s : Sys) : Sys :=
  ctxRun s e (wordR 0x38 0 0 width 5) (fun _ => false) (fun c =>
    if 2 ≤ width.toNat then .error exIllegal
    else .ok ((((c.setSt St.bexpShift 0).setSt St.bexpZero 1).setSt St.bexpWidth width.toNat).setSt St.bexpArmed 1))

/-- BEXP.READ: rd = BEXP_SHIFT; block mode stays armed. -/
def execBexpRead (e : Nat) (rd : BitVec 5) (s : Sys) : Sys :=
  ctxRun s e (wordR 0x38 rd 0 0 6) (needRegs [rd]) (fun c =>
    .ok (c.setReg rd (BitVec.ofNat 64 (c.stF St.bexpShift)) false))

/-- BEXP.OFF: block mode disarmed. -/
def execBexpOff (e : Nat) (s : Sys) : Sys :=
  ctxRun s e (wordR 0x38 0 0 0 7) (fun _ => false) (fun c => .ok (c.setSt St.bexpArmed 0))

/-- STCLR: bits 27:24 of ST cleared where ra has them set (R118). -/
def execStclr (e : Nat) (ra : BitVec 5) (s : Sys) : Sys :=
  ctxRun s e (wordR 0x38 0 ra 0 8) needStatus (fun c => .ok { c with st := c.st &&& ~~~(c.reg ra &&& 0x0F000000) })

/-- STRD: rd = ST. -/
def execStrd (e : Nat) (rd : BitVec 5) (s : Sys) : Sys :=
  ctxRun s e (wordR 0x38 rd 0 0 9) needStatus (fun c => .ok (c.setReg rd c.st false))

end Sys2Proof.Machine
end

