-- ==== Sys2Proof/Machine/EngineControl.lean ====
section
/-! DEFINITION. Control flow and scheduler calls of the Abtia engine (R134, R136, R155, R156, R174; opcodes 0x22 and 0x30 to
0x38). -/
namespace Sys2Proof.Machine

/-- B: a branch on a condition; a taken branch ends every active loop (R136). A conditional branch on poisoned flags is
POISON_CONTROL (Table 6.7). -/
def execB (e : Nat) (c : BitVec 5) (off : BitVec 21) (s : Sys) : Sys :=
  engineRun s e (wordB 0x30 c off) needFlags (fun s _ =>
    let x := ctxAt s e
    match condHolds x c.toNat with
    | none => .ex exIllegal
    | some taken =>
      if c ≠ 0 ∧ x.stF St.fpsn = 1 then .ex exPoison
      else if taken then .go s (branchTarget x.pc off)
      else .next s)

/-- CALL: G31 = PC + 4, then the branch. -/
def execCall (e : Nat) (off : BitVec 21) (s : Sys) : Sys :=
  engineRun s e (wordB 0x31 0 off) (needRegs [31]) (fun s _ =>
    let x := ctxAt s e
    .go (putCtx s e (x.setReg 31 ((x.pc + 4).zeroExtend 64) false)) (branchTarget x.pc off))

/-- JR: PC = ra; a poisoned target is a poisoned address. -/
def execJr (e : Nat) (ra : BitVec 5) (s : Sys) : Sys :=
  engineRun s e (wordR 0x32 0 ra 0 0) (needRegs [ra]) (fun s _ =>
    let x := ctxAt s e
    if x.psn ra then .ex exPoison else .go s ((x.reg ra).truncate 32))

/-- LOOP: the next instruction to PC + 4 × off run as many times as the count register holds; none skips the body, and a
third loop is ILLEGAL (R136). -/
def execLoop (e : Nat) (r : BitVec 5) (off : BitVec 21) (s : Sys) : Sys :=
  engineRun s e (wordB 0x33 r off) (needRegs [r]) (fun s _ =>
    let c := ctxAt s e
    if c.looping 0 && c.looping 1 then .ex exIllegal
    else if c.psn r then .ex exPoison
    else
      let n : BitVec 32 := (c.reg r).truncate 32
      let stop := branchTarget c.pc off
      if n = 0 then .left (putCtx s e { c with pc := stop + 4 })
      else
        let l : LoopReg := { count := n, start := c.pc + 4, stop := stop }
        let c1 := if c.looping 0 then { c.setLooping 1 true with lc1 := l } else { c.setLooping 0 true with lc0 := l }
        .left (putCtx s e { c1 with pc := c.pc + 4 }))

/-- YIELD (Table 8.4). -/
def execYield (e : Nat) (s : Sys) : Sys :=
  engineRun s e (wordR 0x38 0 0 0 0) (fun _ => false) (fun s t =>
    .left { s with dev := yieldOn s.dev e t (ctxAt s e).advance })

/-- WAIT (Table 8.4): ra is the mask of kinds; rd takes kind and value. -/
def execWait (e : Nat) (rd ra : BitVec 5) (s : Sys) : Sys :=
  engineRun s e (wordR 0x38 rd ra 0 1) (needRegs [rd, ra]) (fun s t =>
    let c := ctxAt s e
    .left { s with dev := waitOn s.dev e t c.advance ((c.reg ra).toNat % 256) rd (c.psn ra) })

/-- POST (Table 8.4): a POST entry for thread ra with value rb; rd = 0 ACCEPTED, 1 REFUSED, 2 NO_THREAD. -/
def execPost (e : Nat) (rd ra rb : BitVec 5) (s : Sys) : Sys :=
  engineRun s e (wordR 0x38 rd ra rb 2) (needRegs [rd, ra, rb]) (fun s _ =>
    let c := ctxAt s e
    let t := (c.reg ra).toNat
    let r := enginePost s.dev t 4 ((c.reg rb).toNat % 2 ^ 32)
    let d := bumpIf (decide (r.2 = 1)) r.1 Obj.postsRefused (hearthOf r.1 t) 0
    .next (putCtx { s with dev := d } e (c.setReg rd (BitVec.ofNat 64 r.2) (c.psn ra))))

/-- EXIT (Table 8.4). -/
def execExit (e : Nat) (s : Sys) : Sys :=
  engineRun s e (wordR 0x38 0 0 0 3) (fun _ => false) (fun s t => .left { s with dev := endRelease s.dev e t })

/-- TRAP: the exception of that name; its detail is the code (Table 6.11). -/
def execTrap (e : Nat) (code : BitVec 5) (s : Sys) : Sys :=
  engineRun s e (wordR 0x38 0 0 code 4) (fun _ => false) (fun _ _ => .fault exTrap (some code.toNat))

/-- FENCE.TICK: done when the tick named in ra has started, otherwise the thread blocks until its release (R155). -/
def execFenceTick (e : Nat) (ra : BitVec 5) (s : Sys) : Sys :=
  engineRun s e (wordR 0x22 0 ra 0 5) (needRegs [ra]) (fun s t =>
    let c := ctxAt s e
    if c.psn ra then .ex exPoison
    else if (c.reg ra).toNat ≤ curTick s.dev then .next s
    else .left { s with dev := blockOn s.dev e t c.advance (.tick (c.reg ra).toNat) })

/-- FENCE.EPOCH: done when no commit is pending; otherwise the thread blocks until its hearth's unit has applied that
epoch (R156). -/
def execFenceEpoch (e : Nat) (s : Sys) : Sys :=
  engineRun s e (wordR 0x22 0 0 0 4) (fun _ => false) (fun s t =>
    match s.dev.dict.commit with
    | none => .next s
    | some k => .left { s with dev := blockOn s.dev e t (ctxAt s e).advance (.epoch k.epoch k.tick) })

end Sys2Proof.Machine
end

