-- ==== Sys2Proof/Machine/EngineExt.lean ====
section
/-! DEFINITION. External loads, stores, atomics, copies and fences of the Abtia engine (R121, R147 to R157, opcodes 0x20
and 0x22), and the completion of what is in flight. -/
namespace Sys2Proof.Machine

/-- Why an external access cannot issue (Table 6.11): a register that must name a pair, a poisoned address, ALIGN, or an
address that is not mapped for the use. -/
def extCheck (d : Dev) (c : Ctx) (e : Nat) (pair : Option (BitVec 5)) (ra : BitVec 5) (bytes : Nat) (u : XUse) : Option Nat :=
  let a := (c.reg ra).toNat
  if pair.any (fun r => !isPair r) then some exIllegal
  else if c.psn ra then some exPoison
  else if a % bytes ≠ 0 then some exAlign
  else if !mapped d e a bytes u then some exX
  else none

/-- Loads and atomics in flight: at most 8; stores: at most 16 (R137). -/
def limitOf (store : Bool) : Nat := if store then 16 else 8

/-- Room in the engine for one more load or store, the oldest of its kind performed where there is none (R137). -/
def makeRoom (s : Sys) (e : Nat) (store : Bool) : Option Sys :=
  let kind := fun (o : XOp) => o.queue.isNone && o.isStore == store
  if limitOf store ≤ ((engineOf s.dev e).ops.filter kind).length then
    match (engineOf s.dev e).ops.findIdx? kind with
    | some i => performAt s e i
    | none => some s
  else some s

/-- An operation joins those in flight. -/
def issue (s : Sys) (e : Nat) (o : XOp) : Sys :=
  { s with dev := setEngine s.dev e { engineOf s.dev e with ops := (engineOf s.dev e).ops ++ [o] } }

/-- Whether an address lies in device control space, where a poisoned store is refused and produces nothing (Table 6.7). -/
def toDeviceSpace (d : Dev) (e a : Nat) : Bool := (homeOf d e a) matches .device _

/-- Issue an external operation after the check of R139. -/
def extRun (s : Sys) (e word : Nat) (needs : List (BitVec 5)) (pair : Option (BitVec 5)) (ra : BitVec 5) (bytes : Nat)
    (u : XUse) (op : Ctx → XKind × Nat) : Sys :=
  engineRun s e word (needRegs needs) (fun s t =>
    let c := ctxAt s e
    match extCheck s.dev c e pair ra bytes u with
    | some x => .ex x
    | none =>
      let (k, psn) := op c
      match makeRoom s e (u matches .store) with
      | none => .wait s
      | some s =>
        let s := if psn ≠ 0 && !((u matches .store) && toDeviceSpace s.dev e (c.reg ra).toNat) then
            putCtx s e ((ctxAt s e).stick St.psn true) else s
        .next (issue s e { kind := k, addr := (c.reg ra).toNat, thread := t, poison := psn }))

/-- XLD.64. -/
def execXld64 (e : Nat) (rd ra : BitVec 5) (s : Sys) : Sys :=
  extRun s e (wordR 0x20 rd ra 0 0) [rd, ra] none ra 8 .load (fun _ => (.load false rd, 0))
/-- XLD.128: to a pair. -/
def execXld128 (e : Nat) (rd ra : BitVec 5) (s : Sys) : Sys :=
  extRun s e (wordR 0x20 rd ra 0 1) [rd, pairHi rd, ra] (some rd) ra 16 .load (fun _ => (.load true rd, 0))
/-- XST.64. -/
def execXst64 (e : Nat) (ra rb : BitVec 5) (s : Sys) : Sys :=
  extRun s e (wordR 0x20 0 ra rb 2) [ra, rb] none ra 8 .store
    (fun c => (.store false ((c.reg rb).zeroExtend 128), b2n (c.psn rb)))
/-- XST.128: from a pair. -/
def execXst128 (e : Nat) (ra rb : BitVec 5) (s : Sys) : Sys :=
  extRun s e (wordR 0x20 0 ra rb 3) [ra, rb, pairHi rb] (some rb) ra 16 .store
    (fun c => (.store true (BitVec.ofNat 128 (c.pair rb)), c.pairPsn rb))
/-- XAMO.ADD (R157). -/
def execXamoAdd (e : Nat) (rd ra rb : BitVec 5) (s : Sys) : Sys :=
  extRun s e (wordR 0x20 rd ra rb 8) [rd, ra, rb] none ra 8 .atomic (fun c => (.add rd (c.reg rb), b2n (c.psn rb)))
/-- XAMO.SWP. -/
def execXamoSwp (e : Nat) (rd ra rb : BitVec 5) (s : Sys) : Sys :=
  extRun s e (wordR 0x20 rd ra rb 9) [rd, ra, rb] none ra 8 .atomic (fun c => (.swap rd (c.reg rb), b2n (c.psn rb)))
/-- XAMO.CAS: compared with rd as it stands at issue. -/
def execXamoCas (e : Nat) (rd ra rb : BitVec 5) (s : Sys) : Sys :=
  extRun s e (wordR 0x20 rd ra rb 10) [rd, ra, rb] none ra 8 .atomic
    (fun c => (.cas rd (c.reg rb) (c.reg rd), b2n (c.psn rb || c.psn rd)))

/-! ### Copies -/

/-- The words, tag, external and local address of a copy (Table 6.9). -/
def copyOf (c : Ctx) (into : Bool) (rd ra rb : BitVec 5) (t : Nat) : XCopy :=
  { tag := bitsAt (c.reg rd).toNat 16 3, into := into, ext := (c.reg ra).toNat, loc := (c.reg rb).toNat,
    words := bitsAt (c.reg rd).toNat 0 16, thread := t, left := List.range (bitsAt (c.reg rd).toNat 0 16) }

/-- Why a copy cannot issue: a length that is not 1 to 4,096 words, a poisoned operand, ALIGN, LM_RANGE. -/
def copyCheck (c : Ctx) (rd ra rb : BitVec 5) (x : XCopy) : Option Nat :=
  if !(c.psn rd || c.psn ra || c.psn rb) && (decide (x.words = 0) || decide (4096 < x.words)) then some exIllegal
  else if c.psn rd || c.psn ra || c.psn rb then some exPoison
  else if x.ext % 16 ≠ 0 ∨ x.loc % 2 ≠ 0 then some exAlign
  else if !(c.inWindow x.loc && c.inWindow (x.loc + 16 * x.words - 1)) then some exLm
  else none

/-- A copy starts under its tag; one outstanding under that tag completes first. -/
def copyRun (s : Sys) (e func : Nat) (into : Bool) (rd ra rb : BitVec 5) : Sys :=
  engineRun s e (wordR 0x20 rd ra rb func) (needRegs [rd, ra, rb]) (fun s t =>
    let c := ctxAt s e
    let x := copyOf c into rd ra rb t
    match copyCheck c rd ra rb x with
    | some code => .ex code
    | none =>
      match copiesAll (fun y => decide (y.tag = x.tag) && decide (y.thread = t)) e s with
      | none => .wait s
      | some s =>
        let d := setEngine s.dev e { engineOf s.dev e with copies := (engineOf s.dev e).copies ++ [x] }
        let c := (engineOf d e).ctx
        let bit : BitVec 8 := 1#8 <<< x.tag
        .next { s with dev := setCtx d e { c with tags := c.tags ||| bit, failed := c.failed &&& ~~~bit } })

/-- XCOPY.IN. -/
def execXcopyIn (e : Nat) (rd ra rb : BitVec 5) (s : Sys) : Sys := copyRun s e 4 true rd ra rb
/-- XCOPY.OUT. -/
def execXcopyOut (e : Nat) (rd ra rb : BitVec 5) (s : Sys) : Sys := copyRun s e 5 false rd ra rb

/-- XWAIT: the copy of the tag completes; X_RANGE where its external range failed the check (R121). -/
def execXwait (e : Nat) (tag : BitVec 3) (s : Sys) : Sys :=
  engineRun s e (wordR 0x20 0 0 (tag.zeroExtend 5) 6) (fun _ => false) (fun s t =>
    match copiesAll (fun y => decide (y.tag = tag.toNat) && decide (y.thread = t)) e s with
    | none => .wait s
    | some s => if (ctxAt s e).failed.getLsbD tag.toNat then .ex exX else .next s)

/-! ### Fences (R154) -/

/-- A fence: the operations and copies that it waits for are performed. -/
def fenceRun (s : Sys) (e func : Nat) (ops : XOp → Bool) (copies : XCopy → Bool) : Sys :=
  engineRun s e (wordR 0x22 0 0 0 func) (fun _ => false) (fun s _ =>
    match performAll ops e s with
    | none => .wait s
    | some s =>
      match copiesAll copies e s with
      | none => .wait s
      | some s => .next s)

/-- FENCE.LD: earlier loads and atomics have returned, copies in have completed. -/
def execFenceLd (e : Nat) (s : Sys) : Sys := fenceRun s e 0 (fun o => o.queue.isNone && !o.isStore) (fun c => c.into)
/-- FENCE.ST: earlier stores, atomics and copies out are performed. -/
def execFenceSt (e : Nat) (s : Sys) : Sys := fenceRun s e 1 (fun o => o.queue.isNone && !o.isLoad) (fun c => !c.into)
/-- FENCE.ALL. -/
def execFenceAll (e : Nat) (s : Sys) : Sys := fenceRun s e 2 (fun o => o.queue.isNone) (fun _ => true)
/-- FENCE.Q: the queue manager has taken every earlier push. -/
def execFenceQ (e : Nat) (s : Sys) : Sys := fenceRun s e 3 XOp.isPush (fun _ => false)

/-! ### Completions -/

/-- EXTERNAL_ACCESS_COMPLETE: operation i of those that engine e holds, oldest first, is performed at its home, after
those that must precede it (R147 to R150). -/
def externalComplete (e i : Nat) (s : Sys) : Sys :=
  match performAt s e i with
  | some s => s
  | none => s

/-- XCOPY_COMPLETE: copy i of those that engine e has outstanding completes (R121). -/
def xcopyComplete (e i : Nat) (s : Sys) : Sys :=
  match (engineOf s.dev e).copies[i]? with
  | none => s
  | some c =>
    match copyDone s e c with
    | some s => s
    | none => s

/-- STOLEN_CYCLE: copy data has waited 16 handshake cycles, and the engine inserts one that executes no instruction
and uses both of its phases for a word each (R121). -/
def stolenCycle (e : Nat) (s : Sys) : Sys :=
  if (engineOf s.dev e).copies.isEmpty then s
  else moveOneWord e (moveOneWord e { s with dev := bump s.dev Obj.stolenCycles e 0 })

end Sys2Proof.Machine
end

