-- ==== Sys2Proof/Machine/EngineMac.lean ====
section
/-! DEFINITION. The vector and accumulator instructions (R126 to R130, opcodes 0x10 to 0x1C). -/
namespace Sys2Proof.Machine

/-- One signed element of a 128-bit read: `w` bits from element i, and its poison, that of any 64-bit half it lies in. -/
def element (w v : Nat) (marks : List Bool) (i : Nat) : Int × Bool :=
  (toSigned w (bitsAt v (w * i) w), (List.range (w / 8)).any (fun j => marks.getD (w / 8 * i + j) false))

/-- The saturation value of an n-bit accumulator (R127). -/
def accMax (n : Nat) : Int := 2 ^ (n - 1) - 1

/-- A sum added to an accumulator under R127: the value, whether it pins now, for a saturating or a wrapping addition. -/
def accAdd (n : Nat) (sat : Bool) (x : Int) : Int × Bool :=
  if sat then
    if accMax n < x then (accMax n, true) else if x < -(accMax n) then (-(accMax n), true) else (x, false)
  else (toSigned n (toUnsigned n x), false)

/-- One lane of a MAC: product `p` added to the accumulator whose value is read by `get` and written by `set`, and whose
PIN and poison bit is `bit` (R127). -/
def lane (n bit : Nat) (sat : Bool) (get : Ctx → Int) (set : Ctx → Int → Ctx) (p : Int) (psn : Bool) (c : Ctx) : Ctx :=
  let c := c.setAccPsn bit (c.accPsn bit || psn)
  if c.pinned bit then c
  else
    let r := accAdd n sat (get c + p)
    let c := set c r.1
    if r.2 then (c.setPin bit true).setSt St.aov 1 else c

/-- Lane i of 16-bit mode. -/
def lane16 (i : Nat) (sat : Bool) : Int → Bool → Ctx → Ctx :=
  lane 40 i sat (fun c => c.acc16 i) (fun c v => c.setAcc16 i v)
/-- Lane k of 32-bit mode. -/
def lane32 (k : Nat) (sat : Bool) : Int → Bool → Ctx → Ctx :=
  lane 72 (2 * k) sat (fun c => c.acc32 k) (fun c v => c.setAcc32 k v)

/-- Variant bits of format V (Table 6.8). -/
def vClr (v : BitVec 6) : Bool := v.getLsbD 5
/-- NEG. -/
def vNeg (v : BitVec 6) : Bool := v.getLsbD 4
/-- BCA. -/
def vBca (v : BitVec 6) : Bool := v.getLsbD 3
/-- CONJ. -/
def vConj (v : BitVec 6) : Bool := v.getLsbD 2

/-- Pairs cleared to a mode where CLR is set (R126). -/
def clearAll (c : Ctx) (wide : Bool) : Ctx := (List.range 4).foldl (fun c k => c.clearPair k wide) c
/-- Whether every pair is in the mode. -/
def allMode (c : Ctx) (wide : Bool) : Bool := (List.range 4).all (fun k => c.wide k == wide)

/-- The two reads of a vector instruction: phase A through aa with its post-modify, then phase B through ab. -/
structure Reads where
  ctx    : Ctx
  addrA  : List Nat
  addrB  : List Nat
  a      : Nat
  b      : Nat
  markA  : List Bool
  markB  : List Bool
  sys    : Sys

/-- Carry out the reads, or find the exception (Table 6.11). -/
def vecReads (s : Sys) (e : Nat) (aa ab : BitVec 3) (stepA stepB : BitVec 7) : Except Nat Reads :=
  let c := ctxAt s e
  let c1 := c.postModify aa (2 * stepA.toInt)
  match c.localFault aa 16, c1.localFault ab 16 with
  | some x, some y => .error (min x y)
  | some x, none => .error x
  | none, some y => .error y
  | none, none =>
    let la := c.addrs aa 16
    let lb := c1.addrs ab 16
    let (a, ma, s) := lmRead s e la
    let (b, mb, s) := lmRead s e lb
    .ok { ctx := c1.postModify ab (2 * stepB.toInt), addrA := la, addrB := lb, a := a, b := b, markA := ma, markB := mb,
          sys := s }

/-- A MAC: `bad` variants are ILLEGAL, modes are checked unless CLR is set, and the lanes are added in order. -/
def macRun (s : Sys) (e op : Nat) (aa ab : BitVec 3) (stepA stepB : BitVec 7) (v : BitVec 6) (bad wide : Bool)
    (lanes : Reads → Ctx → Ctx) : Sys :=
  engineRun s e (wordV op aa ab stepA stepB v) (fun _ => false) (fun s _ =>
    if bad || (!vClr v && !allMode (ctxAt s e) wide) then .ex exIllegal
    else
      match vecReads s e aa ab stepA stepB with
      | .error x => .ex x
      | .ok r =>
        let c := if vClr v then clearAll r.ctx wide else r.ctx
        .next (putCtx r.sys e (lanes r c)))

/-- The sign of a product under NEG. -/
def negIf (b : Bool) (x : Int) : Int := if b then -x else x

/-- The eight lanes of a 16-bit MAC. -/
def lanes16 (sat : Bool) (v : BitVec 6) (r : Reads) (c : Ctx) : Ctx :=
  (List.range 8).foldl (fun c i =>
    let x := element 16 r.a r.markA (if vBca v then 0 else i)
    let y := element 16 r.b r.markB i
    lane16 i sat (negIf (vNeg v) (x.1 * y.1)) (x.2 || y.2) c) c

/-- The four lanes of a 32-bit MAC. -/
def lanes32 (sat : Bool) (v : BitVec 6) (r : Reads) (c : Ctx) : Ctx :=
  (List.range 4).foldl (fun c i =>
    let x := element 32 r.a r.markA (if vBca v then 0 else i)
    let y := element 32 r.b r.markB i
    lane32 i sat (negIf (vNeg v) (x.1 * y.1)) (x.2 || y.2) c) c

/-- The four complex lanes of CMAC.S16: real product into ACC2j, imaginary product into ACC2j+1 (R127). -/
def lanesComplex (v : BitVec 6) (r : Reads) (c : Ctx) : Ctx :=
  (List.range 4).foldl (fun c j =>
    let i := if vBca v then 0 else j
    let ar := element 16 r.a r.markA (2 * i)
    let ai := element 16 r.a r.markA (2 * i + 1)
    let br := element 16 r.b r.markB (2 * j)
    let bi0 := element 16 r.b r.markB (2 * j + 1)
    let bi := negIf (vConj v) bi0.1
    let psn := ar.2 || ai.2 || br.2 || bi0.2
    let re := negIf (vNeg v) (ar.1 * br.1 - ai.1 * bi)
    let im := negIf (vNeg v) (ar.1 * bi + ai.1 * br.1)
    lane16 (2 * j + 1) true im psn (lane16 (2 * j) true re psn c)) c

/-- MAC.S16: eight lanes, saturating (R127). -/
def execMacS16 (e : Nat) (aa ab : BitVec 3) (stepA stepB : BitVec 7) (v : BitVec 6) (s : Sys) : Sys :=
  macRun s e 0x10 aa ab stepA stepB v (decide (v.toNat % 8 ≠ 0)) false (lanes16 true v)
/-- MAC.W16: eight lanes, wrapping. -/
def execMacW16 (e : Nat) (aa ab : BitVec 3) (stepA stepB : BitVec 7) (v : BitVec 6) (s : Sys) : Sys :=
  macRun s e 0x11 aa ab stepA stepB v (decide (v.toNat % 8 ≠ 0)) false (lanes16 false v)
/-- MAC.S32: four lanes, saturating. -/
def execMacS32 (e : Nat) (aa ab : BitVec 3) (stepA stepB : BitVec 7) (v : BitVec 6) (s : Sys) : Sys :=
  macRun s e 0x12 aa ab stepA stepB v (decide (v.toNat % 8 ≠ 0)) true (lanes32 true v)
/-- MAC.W32: four lanes, wrapping. -/
def execMacW32 (e : Nat) (aa ab : BitVec 3) (stepA stepB : BitVec 7) (v : BitVec 6) (s : Sys) : Sys :=
  macRun s e 0x13 aa ab stepA stepB v (decide (v.toNat % 8 ≠ 0)) true (lanes32 false v)
/-- CMAC.S16: four complex lanes, saturating. -/
def execCmacS16 (e : Nat) (aa ab : BitVec 3) (stepA stepB : BitVec 7) (v : BitVec 6) (s : Sys) : Sys :=
  macRun s e 0x14 aa ab stepA stepB v (decide (v.toNat % 4 ≠ 0)) false (lanesComplex v)

/-- A sum shifted right by 1 with half-up rounding where SCALE is set, then saturated to 16 bits (R130). -/
def fit16 (scale : Bool) (x : Int) : Int × Bool :=
  let y := if scale then (x + 1) / 2 else x
  let z := clampInt (-32768) 32767 y
  (z, decide (z ≠ y))

/-- BFLY.S16: u = x + y to x's address, v = x - y to y's address, eight elements, saturating (R130). -/
def execBflyS16 (e : Nat) (aa ab : BitVec 3) (stepA stepB : BitVec 7) (v : BitVec 6) (s : Sys) : Sys :=
  engineRun s e (wordV 0x15 aa ab stepA stepB v) (fun _ => false) (fun s _ =>
    if v.toNat % 32 ≠ 0 then .ex exIllegal
    else
      match vecReads s e aa ab stepA stepB with
      | .error x => .ex x
      | .ok r =>
        let one := fun (f : Int → Int → Int) (i : Nat) => fit16 (vClr v) (f (element 16 r.a r.markA i).1 (element 16 r.b r.markB i).1)
        let us := (List.range 8).map (one (· + ·))
        let vs := (List.range 8).map (one (· - ·))
        let pack := fun (l : List (Int × Bool)) => l.foldr (fun x n => toUnsigned 16 x.1 + 65536 * n) 0
        let marks := (List.range 16).map (fun j => r.markA.getD j false || r.markB.getD j false)
        let s1 := lmWrite r.sys e r.addrA (pack us) marks
        let s2 := lmWrite s1 e r.addrB (pack vs) marks
        let c := ((r.ctx.watch 128 (pack us)).watch 128 (pack vs)).stick St.sat ((us ++ vs).any Prod.snd)
        .next (putCtx s2 e (c.stick St.psn (marks.any id))))

/-! ### Conversions (R129) -/

/-- Shift by the signed field, with the rounding of the code: 0 down, 1 half up, 2 half to even. -/
def shiftRound (x : Int) (shift : Int) (round : Nat) : Int :=
  if shift ≤ 0 then x * 2 ^ shift.natAbs
  else
    let n := shift.natAbs
    let m : Int := 2 ^ n
    match round with
    | 0 => x / m
    | 1 => (x + 2 ^ (n - 1)) / m
    | _ =>
      let q := x / m
      let r2 := 2 * (x % m)
      if m < r2 ∨ (r2 = m ∧ q % 2 = 1) then q + 1 else q

/-- Fit to a width: saturated, with a flag where that changed the value, or the low bits. -/
def fitWidth (w : Nat) (sat : Bool) (x : Int) : Int × Bool :=
  if sat then
    let y := clampInt (-(2 ^ (w - 1))) (2 ^ (w - 1) - 1) x
    (y, decide (y ≠ x))
  else (toSigned w (toUnsigned w x), false)

/-- The value and poison that accumulator field i names: ACCi, or the WACC in whose storage ACCi lies. -/
def accValue (c : Ctx) (i : Nat) : Int × Bool :=
  if c.wide (i / 2) then (c.acc32 (i / 2), c.accPsn (i / 2 * 2)) else (c.acc16 i, c.accPsn i)

/-- An accumulator converted under R129. -/
def convert (c : Ctx) (i : Nat) (shift : BitVec 6) (round : BitVec 2) (sat : Bool) (w : Nat) : (Int × Bool) × Bool :=
  let v := accValue c i
  (fitWidth w sat (shiftRound v.1 shift.toInt round.toNat), v.2)

/-- The bits of a width code of format A. -/
def accWidth (width : BitVec 2) : Nat := 2 ^ (width.toNat + 4)

/-- ACST: store with conversion, one accumulator or every lane (R129). -/
def execAcst (e : Nat) (an acc : BitVec 3) (shift : BitVec 6) (round : BitVec 2) (sat : Bool) (width : BitVec 2) (vec : Bool)
    (step : BitVec 6) (s : Sys) : Sys :=
  engineRun s e (wordA 0x18 (BitVec.ofNat 5 (an.toNat * 4)) acc shift round sat width vec step) (fun _ => false) (fun s _ =>
    let c := ctxAt s e
    let w := accWidth width
    let lanes := if vec then (if c.wide 0 then [0, 2, 4, 6] else List.range 8) else [acc.toNat]
    let badVec := vec && !((w == 16 && allMode c false) || (w == 32 && allMode c true))
    if round = 3 ∨ width = 3 ∨ badVec = true then .ex exIllegal
    else
      let bytes := w / 8 * lanes.length
      match c.localFault an bytes with
      | some x => .ex x
      | none =>
        let vals := lanes.map (fun i => convert c i shift round sat w)
        let v := vals.foldr (fun x n => toUnsigned w x.1.1 + 2 ^ w * n) 0
        let marks := vals.flatMap (fun x => List.replicate (w / 8) x.2)
        let s := lmWrite s e (c.addrs an bytes) v marks
        let c := ((c.watch (8 * bytes) v).stick St.sat (vals.any (fun x => x.1.2))).stick St.psn (marks.any id)
        .next (putCtx s e (c.postModify an (2 * step.toInt))))

/-- ACMV: rd = the converted accumulator, sign-extended. -/
def execAcmv (e : Nat) (rd : BitVec 5) (acc : BitVec 3) (shift : BitVec 6) (round : BitVec 2) (sat : Bool) (width : BitVec 2)
    (s : Sys) : Sys :=
  ctxRun s e (wordA 0x19 rd acc shift round sat width false 0) (needRegs [rd]) (fun c =>
    if round = 3 ∨ width = 3 then .error exIllegal
    else
      let x := convert c acc.toNat shift round sat (accWidth width)
      .ok ((c.setReg rd (wordOfInt x.1.1) x.2).stick St.sat x.1.2))

/-- ACLD: ra shifted left by the negated shift field and saturated, into one accumulator; PIN cleared, poison copied. -/
def execAcld (e : Nat) (ra : BitVec 5) (acc : BitVec 3) (shift : BitVec 6) (s : Sys) : Sys :=
  ctxRun s e (wordA 0x1A ra acc shift 0 false 0 false 0) (needRegs [ra]) (fun c =>
    let x := shiftRound (c.reg ra).toInt shift.toInt 0
    let i := acc.toNat
    let n := if c.wide (i / 2) then 72 else 40
    let y := clampInt (-(accMax n)) (accMax n) x
    let c1 := if c.wide (i / 2) then c.setAcc32 (i / 2) y else c.setAcc16 i y
    let bit := if c.wide (i / 2) then i / 2 * 2 else i
    .ok (((c1.setPin bit false).setAccPsn bit (c.psn ra)).stick St.sat (decide (y ≠ x))))

/-- Two sums added under R127 and R128: value, pinned, and whether the addition pinned. -/
structure AccSum where
  v   : Int
  pin : Bool
  aov : Bool

/-- One addition of ACSUM: a pinned input gives a pinned result with the sign of its left pinned input (R128). -/
def AccSum.add (n : Nat) (a b : AccSum) : AccSum :=
  if a.pin then ⟨if a.v < 0 then -(accMax n) else accMax n, true, a.aov || b.aov⟩
  else if b.pin then ⟨if b.v < 0 then -(accMax n) else accMax n, true, a.aov || b.aov⟩
  else
    let r := accAdd n true (a.v + b.v)
    ⟨r.1, r.2, a.aov || b.aov || r.2⟩

/-- ACSUM: the accumulators added into ACC0 or WACC0 in the fixed order of R128. -/
def execAcsum (e : Nat) (s : Sys) : Sys :=
  ctxRun s e (wordA 0x1B 0 0 0 0 false 0 false 0) (fun _ => false) (fun c =>
    let wide := c.wide 0
    let n := if wide then 72 else 40
    let x := fun (i : Nat) => (if wide then ⟨c.acc32 i, c.pinned (2 * i), false⟩ else ⟨c.acc16 i, c.pinned i, false⟩ : AccSum)
    let add := AccSum.add n
    let four := fun (i : Nat) => add (add (x i) (x (i + 1))) (add (x (i + 2)) (x (i + 3)))
    let r := if wide then four 0 else add (four 0) (four 4)
    let psn := if wide then (List.range 4).any (fun k => c.accPsn (2 * k)) else (List.range 8).any c.accPsn
    let c1 := if wide then c.setAcc32 0 r.v else c.setAcc16 0 r.v
    .ok (((c1.setPin 0 r.pin).setAccPsn 0 psn).stick St.aov r.aov))

/-- ACCLR: the selected accumulators, their PIN and poison bits cleared; their pairs return to 16-bit mode (R126). -/
def execAcclr (e : Nat) (acc : BitVec 3) (vec : Bool) (s : Sys) : Sys :=
  ctxRun s e (wordA 0x1C 0 acc 0 0 false 0 vec 0) (fun _ => false) (fun c =>
    let i := acc.toNat
    if vec then .ok (clearAll c false)
    else if c.wide (i / 2) then .ok (c.clearPair (i / 2) false)
    else .ok (((c.setAcc16 i 0).setPin i false).setAccPsn i false))

end Sys2Proof.Machine
end

