-- ==== Sys2Proof/Machine/EngineQueue.lean ====
section
/-! DEFINITION. The queue instructions of the Abtia engine (R151, R191 to R202, opcode 0x21). -/
namespace Sys2Proof.Machine

/-- Why a queue instruction cannot run (Table 6.11): what `first` finds, a poisoned queue number, or a queue that does
not exist or is not granted to the engine's hearth (R200). -/
def queueCheck (d : Dev) (c : Ctx) (e : Nat) (ra : BitVec 5) : Option Nat :=
  let q := (c.reg ra).toNat
  if c.psn ra then some exPoison
  else if 262144 ≤ q ∨ bitSet (ogetN d Obj.queueGrantMask q 0) (e / 16) = false then some exQ
  else none

/-- The lower of two exception codes. -/
def firstFault (a b : Option Nat) : Option Nat :=
  match a, b with
  | some x, some y => some (min x y)
  | some x, none => some x
  | none, y => y

/-- A thread's later queue operation is the one whose outcome QS will hold: no earlier one of its tells it any more. -/
def XOp.demote (t : Nat) (o : XOp) : XOp :=
  if o.thread ≠ t then o
  else
    match o.kind with
    | .push q word rel i _ => { o with kind := .push q word rel i false }
    | .pop q rd _ => { o with kind := .pop q rd false }
    | _ => o

/-- The queue operations that thread t has in flight on engine e no longer write QS. -/
def demoteAll (s : Sys) (e t : Nat) : Sys :=
  { s with dev := setEngine s.dev e { engineOf s.dev e with ops := (engineOf s.dev e).ops.map (XOp.demote t) } }

/-- A queue instruction: the check, the release where one is asked (R151), then the operation, for thread t. -/
def queueRun (s : Sys) (e word : Nat) (needs : List (BitVec 5)) (ra : BitVec 5) (more : Sys → Ctx → Option Nat) (release : Bool)
    (op : Sys → Nat → Ctx → Nat → Option Sys) : Sys :=
  engineRun s e word (needRegs needs) (fun s t =>
    let c := ctxAt s e
    match firstFault (more s c) (queueCheck s.dev c e ra) with
    | some x => .ex x
    | none =>
      match if release then releaseAll e s else some s with
      | none => .wait s
      | some s =>
        match op (demoteAll s e t) t (ctxAt s e) (c.reg ra).toNat with
        | none => .wait s
        | some s => .next s)

/-- A push or pop that goes to the queue manager, which takes it at a time of its own (R150). -/
def sendOp (e t q : Nat) (k : XKind) (psn : Nat) (s : Sys) : Option Sys :=
  some (issue s e { kind := k, addr := queuePlace q, thread := t, poison := psn })

/-- An operation that the queue manager answers before the instruction ends: those of the engine on that queue are taken first
(Table 7.3). -/
def askOp (e q : Nat) (f : Sys → Ctx → Sys) (s : Sys) : Option Sys :=
  match performAll (fun o => decide (o.queue = some q)) e s with
  | none => none
  | some s => some (f s (ctxAt s e))

/-- Nothing more to check. -/
def noMore (_ : Sys) (_ : Ctx) : Option Nat := none
/-- A register that must name a pair. -/
def pairMore (r : BitVec 5) (_ : Sys) (_ : Ctx) : Option Nat := if isPair r then none else some exIllegal

/-- A WORD push of the pair rb. -/
def pushPair (e : Nat) (rb : BitVec 5) (rel : Bool) (s : Sys) (t : Nat) (c : Ctx) (q : Nat) : Option Sys :=
  sendOp e t q (.push q true rel { plainItem (bytesOf 16 (c.pair rb)) with poison := c.pairPsn rb } true) (c.pairPsn rb) s

/-- QPUSH: the pair rb to queue ra. -/
def execQpush (e : Nat) (ra rb : BitVec 5) (s : Sys) : Sys :=
  queueRun s e (wordR 0x21 0 ra rb 0) [ra, rb, pairHi rb] ra (pairMore rb) false (pushPair e rb false)
/-- QPUSH.REL: accepted after every earlier external operation of the engine is performed (R151). -/
def execQpushRel (e : Nat) (ra rb : BitVec 5) (s : Sys) : Sys :=
  queueRun s e (wordR 0x21 0 ra rb 1) [ra, rb, pairHi rb] ra (pairMore rb) true (pushPair e rb true)

/-- The local addresses of L bytes at A(n), wrapping element by element (R124). -/
def blockAddrs (c : Ctx) (n : BitVec 3) (len : Nat) : List Nat := (List.range len).map (c.byteAddr n true)

/-- Why a block operation of L bytes at A(rb) cannot run: no such address register, a poisoned length, ALIGN, LM_RANGE. -/
def blockMore (rd rb : BitVec 5) (_ : Sys) (c : Ctx) : Option Nat :=
  if 8 ≤ rb.toNat then some exIllegal
  else if c.psn rd then some exPoison
  else
    let n : BitVec 3 := rb.truncate 3
    let len := (c.reg rd).toNat
    if len = 0 ∨ 1024 < len then none
    else if c.byteAddr n true 0 % 2 ≠ 0 then some exAlign
    else if !(blockAddrs c n len).all c.inWindow then some exLm
    else none

/-- QPUSH.BLK of L bytes from A(rb), read as the instruction issues; nothing is read at a length outside 1 to 1,024, which the queue
refuses. -/
def pushBlk (e : Nat) (rd rb : BitVec 5) (rel : Bool) (s : Sys) (t : Nat) (c : Ctx) (q : Nat) : Option Sys :=
  let len := (c.reg rd).toNat
  if len = 0 ∨ 1024 < len then sendOp e t q (.push q false rel (plainItem ⟨len, 0⟩) true) 0 s
  else
    let (v, marks, s) := lmRead s e (blockAddrs c (rb.truncate 3) len)
    sendOp e t q (.push q false rel { plainItem ⟨len, v⟩ with poison := poisonMask marks } true) (poisonMask marks) s

/-- QPUSH.BLK. -/
def execQpushBlk (e : Nat) (rd ra rb : BitVec 5) (s : Sys) : Sys :=
  queueRun s e (wordR 0x21 rd ra rb 2) [rd, ra] ra (blockMore rd rb) false (pushBlk e rd rb false)
/-- QPUSH.BLK.REL. -/
def execQpushBlkRel (e : Nat) (rd ra rb : BitVec 5) (s : Sys) : Sys :=
  queueRun s e (wordR 0x21 rd ra rb 3) [rd, ra] ra (blockMore rd rb) true (pushBlk e rd rb true)

/-- QPOP of a WORD queue to the pair rd: it goes to the queue manager, and its value comes back when it is taken (R115). -/
def popPair (e : Nat) (rd : BitVec 5) (s : Sys) (t : Nat) (_ : Ctx) (q : Nat) : Option Sys := sendOp e t q (.pop q rd true) 0 s

/-- The same with its data awaited: nothing later issues before they have returned (R151). -/
def popPairAcq (e : Nat) (rd : BitVec 5) (s : Sys) (t : Nat) (c : Ctx) (q : Nat) : Option Sys :=
  match popPair e rd s t c q with
  | none => none
  | some s => askOp e q (fun s _ => s) s

/-- QPOP. -/
def execQpop (e : Nat) (rd ra : BitVec 5) (s : Sys) : Sys :=
  queueRun s e (wordR 0x21 rd ra 0 4) [rd, pairHi rd, ra] ra (pairMore rd) false (popPair e rd)
/-- QPOP.ACQ: later operations of the engine come after its data (R151). -/
def execQpopAcq (e : Nat) (rd ra : BitVec 5) (s : Sys) : Sys :=
  queueRun s e (wordR 0x21 rd ra 0 5) [rd, pairHi rd, ra] ra (pairMore rd) false (popPairAcq e rd)

/-- QPOP.BLK of up to L bytes to A(rb); rd returns the bytes delivered and those left (Table 9.3, R194). -/
def popBlock (e : Nat) (rd rb : BitVec 5) (q : Nat) (s : Sys) (c : Ctx) : Sys :=
  let len := (c.reg rd).toNat
  if queueSpecial q ∨ isWord s.dev q = true ∨ len = 0 ∨ 1024 < len then putCtx s e (c.setQs qsRefused)
  else
    let p := rawPop s.dev q len
    let n := p.data.len
    let marks := (List.range n).map (fun j => if p.under then p.poison else p.psn.testBit ((p.skew + j) / 8))
    let s := lmWrite { s with dev := p.dev } e (blockAddrs c (rb.truncate 3) n) p.data.val marks
    let ret := if p.under then 0 else n + p.left * 65536
    putCtx s e (((c.setReg rd (BitVec.ofNat 64 ret) false).setQs (popQs p)).stick St.psn p.poison)

/-- The same, after the engine's earlier operations on that queue. Its data go to local memory before the instruction ends. -/
def popBlk (e : Nat) (rd rb : BitVec 5) (s : Sys) (_ : Nat) (_ : Ctx) (q : Nat) : Option Sys := askOp e q (popBlock e rd rb q) s

/-- QPOP.BLK. -/
def execQpopBlk (e : Nat) (rd ra rb : BitVec 5) (s : Sys) : Sys :=
  queueRun s e (wordR 0x21 rd ra rb 6) [rd, ra] ra (blockMore rd rb) false (popBlk e rd rb)
/-- QPOP.BLK.ACQ. -/
def execQpopBlkAcq (e : Nat) (rd ra rb : BitVec 5) (s : Sys) : Sys :=
  queueRun s e (wordR 0x21 rd ra rb 7) [rd, ra] ra (blockMore rd rb) false (popBlk e rd rb)

/-- A read point operation: refused on a bank or ordered-accumulate queue, and where the operation refuses. -/
def markOp (e : Nat) (f : Dev → Nat → Dev × Bool) (s : Sys) (_ : Nat) (_ : Ctx) (q : Nat) : Option Sys :=
  askOp e q (fun s c =>
    if queueSpecial q then putCtx s e (c.setQs qsRefused)
    else
      let r := f s.dev q
      putCtx { s with dev := r.1 } e (c.setQs (if r.2 then 0 else qsRefused))) s

/-- QMARK. -/
def execQmark (e : Nat) (ra : BitVec 5) (s : Sys) : Sys :=
  queueRun s e (wordR 0x21 0 ra 0 8) [ra] ra noMore false (markOp e rawMark)
/-- QREWIND. -/
def execQrewind (e : Nat) (ra : BitVec 5) (s : Sys) : Sys :=
  queueRun s e (wordR 0x21 0 ra 0 9) [ra] ra noMore false (markOp e qRewind)
/-- QRELEASE. -/
def execQrelease (e : Nat) (ra : BitVec 5) (s : Sys) : Sys :=
  queueRun s e (wordR 0x21 0 ra 0 10) [ra] ra noMore false (markOp e releaseItems)

/-- QSTAT: QS with EMPTY and FULL, Depth and CellsHeld to rd (Table 9.3). -/
def statOp (e : Nat) (rd : BitVec 5) (s : Sys) (_ : Nat) (_ : Ctx) (q : Nat) : Option Sys :=
  askOp e q (fun s c =>
    if queueSpecial q then putCtx s e (c.setQs qsRefused)
    else
      let (empty, full, depth, cells) := rawStat s.dev q
      let qs := (if empty then qsEmpty else 0) + (if full then qsFull else 0)
      putCtx s e ((c.setReg rd (BitVec.ofNat 64 (qs + depth % 2 ^ 24 * 2 ^ 16 + cells % 2 ^ 24 * 2 ^ 40)) false).setQs qs)) s

/-- QSTAT. -/
def execQstat (e : Nat) (rd ra : BitVec 5) (s : Sys) : Sys :=
  queueRun s e (wordR 0x21 rd ra 0 11) [rd, ra] ra noMore false (statOp e rd)

end Sys2Proof.Machine
end

