-- ==== Sys2Proof/Machine/IsaControl.lean ====
section
/-! DEFINITION. Meanings of commands: control flow of the engines, block exponents and status, and the engine's own events (R118, R121,
R131, R134 to R147, R174). -/
namespace Sys2Proof.Machine

/-- B (R134): Conditional branch, which ends active loops when taken. -/
def doB (e : Nat) (cond : BitVec 5) (off : BitVec 21) (s : State) : Host.Outcome State Fault Refusal :=
  effect (execB e cond off) s

/-- CALL (R134): Branch that writes the return address to G31. -/
def doCall (e : Nat) (off : BitVec 21) (s : State) : Host.Outcome State Fault Refusal :=
  effect (execCall e off) s

/-- JR (R134): Jump to a register. -/
def doJr (e : Nat) (ra : BitVec 5) (s : State) : Host.Outcome State Fault Refusal :=
  effect (execJr e ra) s

/-- LOOP (R136): Starts a zero-overhead hardware loop. -/
def doLoop (e : Nat) (ra : BitVec 5) (off : BitVec 21) (s : State) : Host.Outcome State Fault Refusal :=
  effect (execLoop e ra off) s

/-- YIELD (R174): Interrupts the release with a RESUME entry. -/
def doYield (e : Nat) (s : State) : Host.Outcome State Fault Refusal :=
  effect (execYield e) s

/-- WAIT (R174): Takes a held entry of the masked kinds, or blocks within the release. -/
def doWait (e : Nat) (rd ra : BitVec 5) (s : State) : Host.Outcome State Fault Refusal :=
  effect (execWait e rd ra) s

/-- POST (R174): Writes a POST entry for a thread: ACCEPTED, REFUSED or NO_THREAD. -/
def doPost (e : Nat) (rd ra rb : BitVec 5) (s : State) : Host.Outcome State Fault Refusal :=
  effect (execPost e rd ra rb) s

/-- EXIT (R174): Ends the release; the thread becomes READY or BLOCKED. -/
def doExit (e : Nat) (s : State) : Host.Outcome State Fault Refusal :=
  effect (execExit e) s

/-- TRAP (R139): Raises the TRAP exception with a code. -/
def doTrap (e : Nat) (code : BitVec 5) (s : State) : Host.Outcome State Fault Refusal :=
  effect (execTrap e code) s

/-- BEXP_ARM (R131): Clears the block state and arms block-exponent detection. -/
def doBexpArm (e : Nat) (width : BitVec 5) (s : State) : Host.Outcome State Fault Refusal :=
  effect (execBexpArm e width) s

/-- BEXP_READ (R131): Copies BEXP_SHIFT to a register. -/
def doBexpRead (e : Nat) (rd : BitVec 5) (s : State) : Host.Outcome State Fault Refusal :=
  effect (execBexpRead e rd) s

/-- BEXP_OFF (R131): Disarms block mode. -/
def doBexpOff (e : Nat) (s : State) : Host.Outcome State Fault Refusal :=
  effect (execBexpOff e) s

/-- STCLR (R118): Clears the sticky status bits in a mask. -/
def doStclr (e : Nat) (ra : BitVec 5) (s : State) : Host.Outcome State Fault Refusal :=
  effect (execStclr e ra) s

/-- STRD (R134): Reads ST into a register. -/
def doStrd (e : Nat) (rd : BitVec 5) (s : State) : Host.Outcome State Fault Refusal :=
  effect (execStrd e rd) s

/-- ILLEGAL_INSTRUCTION (R135): An undefined encoding raises ILLEGAL. -/
def doIllegalInstruction (e : Nat) (word : BitVec 32) (s : State) : Host.Outcome State Fault Refusal :=
  effect (illegalInstruction e word) s

/-- EXTERNAL_ACCESS_COMPLETE (R147): An outstanding external load, atomic or store is performed at its home, and its value
returns; the n-th outstanding access of the engine. -/
def doExternalAccessComplete (e n : Nat) (s : State) : Host.Outcome State Fault Refusal :=
  effect (externalComplete e n) s

/-- XCOPY_COMPLETE (R121): A background copy completes its tag; the n-th copy of the engine. -/
def doXcopyComplete (e n : Nat) (s : State) : Host.Outcome State Fault Refusal :=
  effect (xcopyComplete e n) s

/-- STOLEN_CYCLE (R121): Copy data that has waited 16 hc makes the engine insert an idle cycle. -/
def doStolenCycle (e : Nat) (s : State) : Host.Outcome State Fault Refusal :=
  effect (stolenCycle e) s

end Sys2Proof.Machine
end

