-- ==== Sys2Proof/Machine/IsaExternal.lean ====
section
/-! DEFINITION. Meanings of commands: engine instructions that reach beyond the engine: external memory, copies, queues and fences (R121,
R147 to R157, R193 to R202). -/
namespace Sys2Proof.Machine

/-- XLD_64 (R147): External 64-bit load. -/
def doXld64 (e : Nat) (rd ra : BitVec 5) (s : State) : Host.Outcome State Fault Refusal :=
  effect (execXld64 e rd ra) s

/-- XLD_128 (R147): External 128-bit load to a register pair. -/
def doXld128 (e : Nat) (rd ra : BitVec 5) (s : State) : Host.Outcome State Fault Refusal :=
  effect (execXld128 e rd ra) s

/-- XST_64 (R147): External 64-bit store through the store buffer. -/
def doXst64 (e : Nat) (ra rb : BitVec 5) (s : State) : Host.Outcome State Fault Refusal :=
  effect (execXst64 e ra rb) s

/-- XST_128 (R147): External 128-bit store through the store buffer. -/
def doXst128 (e : Nat) (ra rb : BitVec 5) (s : State) : Host.Outcome State Fault Refusal :=
  effect (execXst128 e ra rb) s

/-- XCOPY_IN (R121): Starts a background copy from an external address into local memory under a tag. -/
def doXcopyIn (e : Nat) (rd ra rb : BitVec 5) (s : State) : Host.Outcome State Fault Refusal :=
  effect (execXcopyIn e rd ra rb) s

/-- XCOPY_OUT (R121): Starts a background copy from local memory to an external address under a tag. -/
def doXcopyOut (e : Nat) (rd ra rb : BitVec 5) (s : State) : Host.Outcome State Fault Refusal :=
  effect (execXcopyOut e rd ra rb) s

/-- XWAIT (R121): Waits for the copy of a tag, raising X_RANGE if it failed. -/
def doXwait (e : Nat) (tag : BitVec 3) (s : State) : Host.Outcome State Fault Refusal :=
  effect (execXwait e tag) s

/-- XAMO_ADD (R157): Atomic wrapping add at the home. -/
def doXamoAdd (e : Nat) (rd ra rb : BitVec 5) (s : State) : Host.Outcome State Fault Refusal :=
  effect (execXamoAdd e rd ra rb) s

/-- XAMO_SWP (R157): Atomic swap at the home. -/
def doXamoSwp (e : Nat) (rd ra rb : BitVec 5) (s : State) : Host.Outcome State Fault Refusal :=
  effect (execXamoSwp e rd ra rb) s

/-- XAMO_CAS (R157): Atomic compare-and-swap at the home that sets Z when it writes. -/
def doXamoCas (e : Nat) (rd ra rb : BitVec 5) (s : State) : Host.Outcome State Fault Refusal :=
  effect (execXamoCas e rd ra rb) s

/-- QPUSH (R193): Pushes a 16-byte item, or is refused under R196. -/
def doQpush (e : Nat) (ra rb : BitVec 5) (s : State) : Host.Outcome State Fault Refusal :=
  effect (execQpush e ra rb) s

/-- QPUSH_REL (R151): Release push, accepted only after every earlier operation of the engine is performed. -/
def doQpushRel (e : Nat) (ra rb : BitVec 5) (s : State) : Host.Outcome State Fault Refusal :=
  effect (execQpushRel e ra rb) s

/-- QPUSH_BLK (R193): Pushes a block item, which includes bank pushes and ordered-accumulate entries. -/
def doQpushBlk (e : Nat) (rd ra rb : BitVec 5) (s : State) : Host.Outcome State Fault Refusal :=
  effect (execQpushBlk e rd ra rb) s

/-- QPUSH_BLK_REL (R202): Release block push; a frame's speech-bank push is judged under Table 9.6. -/
def doQpushBlkRel (e : Nat) (rd ra rb : BitVec 5) (s : State) : Host.Outcome State Fault Refusal :=
  effect (execQpushBlkRel e rd ra rb) s

/-- QPOP (R194): Pops a 16-byte item, or returns LastValue with UNDERRUN. -/
def doQpop (e : Nat) (rd ra : BitVec 5) (s : State) : Host.Outcome State Fault Refusal :=
  effect (execQpop e rd ra) s

/-- QPOP_ACQ (R151): Acquire pop. -/
def doQpopAcq (e : Nat) (rd ra : BitVec 5) (s : State) : Host.Outcome State Fault Refusal :=
  effect (execQpopAcq e rd ra) s

/-- QPOP_BLK (R193): Pops up to L bytes of a block item. -/
def doQpopBlk (e : Nat) (rd ra rb : BitVec 5) (s : State) : Host.Outcome State Fault Refusal :=
  effect (execQpopBlk e rd ra rb) s

/-- QPOP_BLK_ACQ (R151): Acquire block pop. -/
def doQpopBlkAcq (e : Nat) (rd ra rb : BitVec 5) (s : State) : Host.Outcome State Fault Refusal :=
  effect (execQpopBlkAcq e rd ra rb) s

/-- QMARK (R193): Sets the mark at the read point. -/
def doQmark (e : Nat) (ra : BitVec 5) (s : State) : Host.Outcome State Fault Refusal :=
  effect (execQmark e ra) s

/-- QREWIND (R193): Returns the read point to the mark. -/
def doQrewind (e : Nat) (ra : BitVec 5) (s : State) : Host.Outcome State Fault Refusal :=
  effect (execQrewind e ra) s

/-- QRELEASE (R193): Releases every whole item before the read point and frees its cells. -/
def doQrelease (e : Nat) (ra : BitVec 5) (s : State) : Host.Outcome State Fault Refusal :=
  effect (execQrelease e ra) s

/-- QSTAT (R193): Returns QS, Depth and CellsHeld. -/
def doQstat (e : Nat) (rd ra : BitVec 5) (s : State) : Host.Outcome State Fault Refusal :=
  effect (execQstat e rd ra) s

/-- FENCE_LD (R154): Waits for earlier loads and copies in. -/
def doFenceLd (e : Nat) (s : State) : Host.Outcome State Fault Refusal :=
  effect (execFenceLd e) s

/-- FENCE_ST (R154): Waits for earlier stores and copies out to be performed. -/
def doFenceSt (e : Nat) (s : State) : Host.Outcome State Fault Refusal :=
  effect (execFenceSt e) s

/-- FENCE_ALL (R154): Waits for both loads and stores. -/
def doFenceAll (e : Nat) (s : State) : Host.Outcome State Fault Refusal :=
  effect (execFenceAll e) s

/-- FENCE_Q (R154): Waits for earlier pushes to be accepted. -/
def doFenceQ (e : Nat) (s : State) : Host.Outcome State Fault Refusal :=
  effect (execFenceQ e) s

/-- FENCE_EPOCH (R156): Waits until the hearth unit has applied the epoch pending at issue. -/
def doFenceEpoch (e : Nat) (s : State) : Host.Outcome State Fault Refusal :=
  effect (execFenceEpoch e) s

/-- FENCE_TICK (R155): Blocks the thread until the named tick has started. -/
def doFenceTick (e : Nat) (ra : BitVec 5) (s : State) : Host.Outcome State Fault Refusal :=
  effect (execFenceTick e ra) s

end Sys2Proof.Machine
end

