-- ==== Sys2Proof/Machine/IsaLocal.lean ====
section
/-! DEFINITION. Meanings of commands: engine instructions over local memory, address registers and accumulators (R120, R125 to R131,
R134). -/
namespace Sys2Proof.Machine

/-- LD (R120): Local-memory load in phase A, with optional post-modify. -/
def doLd (e : Nat) (rd : BitVec 5) (an : BitVec 3) (width mode : BitVec 2) (step_ : BitVec 14) (s : State) : Host.Outcome
    State Fault Refusal :=
  effect (execLd e rd an width mode step_) s

/-- ST (R120): Local-memory store in phase B, with optional post-modify. -/
def doSt (e : Nat) (rs : BitVec 5) (an : BitVec 3) (width mode : BitVec 2) (step_ : BitVec 14) (s : State) : Host.Outcome
    State Fault Refusal :=
  effect (execSt e rs an width mode step_) s

/-- AMOV (R134): Sets an address register's offset and descriptor select. -/
def doAmov (e : Nat) (an : BitVec 3) (cd : BitVec 2) (ra : BitVec 5) (imm : BitVec 16) (s : State) : Host.Outcome State
    Fault Refusal :=
  effect (execAmov e an cd ra imm) s

/-- AGET (R134): Reads an address register's offset. -/
def doAget (e : Nat) (rd : BitVec 5) (an : BitVec 3) (s : State) : Host.Outcome State Fault Refusal :=
  effect (execAget e rd an) s

/-- CDSET (R125): Sets a circular descriptor's base, length and bit-reverse mode. -/
def doCdset (e : Nat) (k : BitVec 2) (brev : Bool) (ra rb : BitVec 5) (s : State) : Host.Outcome State Fault Refusal :=
  effect (execCdset e k brev ra rb) s

/-- MAC_S16 (R127): Eight-lane 16-bit saturating MAC into ACC0 to ACC7. -/
def doMacS16 (e : Nat) (aa ab : BitVec 3) (stepA stepB : BitVec 7) (v : BitVec 6) (s : State) : Host.Outcome State Fault
    Refusal :=
  effect (execMacS16 e aa ab stepA stepB v) s

/-- MAC_W16 (R127): Eight-lane 16-bit wrapping MAC. -/
def doMacW16 (e : Nat) (aa ab : BitVec 3) (stepA stepB : BitVec 7) (v : BitVec 6) (s : State) : Host.Outcome State Fault
    Refusal :=
  effect (execMacW16 e aa ab stepA stepB v) s

/-- MAC_S32 (R127): Four-lane 32-bit saturating MAC into WACC0 to WACC3. -/
def doMacS32 (e : Nat) (aa ab : BitVec 3) (stepA stepB : BitVec 7) (v : BitVec 6) (s : State) : Host.Outcome State Fault
    Refusal :=
  effect (execMacS32 e aa ab stepA stepB v) s

/-- MAC_W32 (R127): Four-lane 32-bit wrapping MAC. -/
def doMacW32 (e : Nat) (aa ab : BitVec 3) (stepA stepB : BitVec 7) (v : BitVec 6) (s : State) : Host.Outcome State Fault
    Refusal :=
  effect (execMacW32 e aa ab stepA stepB v) s

/-- CMAC_S16 (R127): Four-lane complex saturating MAC. -/
def doCmacS16 (e : Nat) (aa ab : BitVec 3) (stepA stepB : BitVec 7) (v : BitVec 6) (s : State) : Host.Outcome State Fault
    Refusal :=
  effect (execCmacS16 e aa ab stepA stepB v) s

/-- BFLY_S16 (R130): In-place saturating butterfly over 8 elements. -/
def doBflyS16 (e : Nat) (aa ab : BitVec 3) (stepA stepB : BitVec 7) (v : BitVec 6) (s : State) : Host.Outcome State Fault
    Refusal :=
  effect (execBflyS16 e aa ab stepA stepB v) s

/-- ACST (R129): Stores accumulators to local memory with shift, rounding and fit. -/
def doAcst (e : Nat) (an acc : BitVec 3) (shift : BitVec 6) (round : BitVec 2) (sat : Bool) (width : BitVec 2) (vec :
    Bool) (step_ : BitVec 6) (s : State) : Host.Outcome State Fault Refusal :=
  effect (execAcst e an acc shift round sat width vec step_) s

/-- ACMV (R129): Moves a converted accumulator to a G register. -/
def doAcmv (e : Nat) (rd : BitVec 5) (acc : BitVec 3) (shift : BitVec 6) (round : BitVec 2) (sat : Bool) (width : BitVec
    2) (s : State) : Host.Outcome State Fault Refusal :=
  effect (execAcmv e rd acc shift round sat width) s

/-- ACLD (R129): Loads a G register into an accumulator. -/
def doAcld (e : Nat) (ra : BitVec 5) (acc : BitVec 3) (shift : BitVec 6) (s : State) : Host.Outcome State Fault Refusal :=
  effect (execAcld e ra acc shift) s

/-- ACSUM (R128): Adds the accumulators into ACC0 in a fixed order. -/
def doAcsum (e : Nat) (s : State) : Host.Outcome State Fault Refusal :=
  effect (execAcsum e) s

/-- ACCLR (R126): Clears accumulators, their PIN and poison bits, and their mode. -/
def doAcclr (e : Nat) (acc : BitVec 3) (vec : Bool) (s : State) : Host.Outcome State Fault Refusal :=
  effect (execAcclr e acc vec) s

end Sys2Proof.Machine
end

