-- ==== Sys2Proof/Machine/IsaScalar.lean ====
section
/-! DEFINITION. Meanings of commands: engine instructions over the general registers (R130, R134). -/
namespace Sys2Proof.Machine

/-- ADD (R130): Wrapping 64-bit add. -/
def doAdd (e : Nat) (rd ra rb : BitVec 5) (s : State) : Host.Outcome State Fault Refusal :=
  effect (execAdd e rd ra rb) s

/-- SUB (R130): Wrapping 64-bit subtract. -/
def doSub (e : Nat) (rd ra rb : BitVec 5) (s : State) : Host.Outcome State Fault Refusal :=
  effect (execSub e rd ra rb) s

/-- ADD_S (R130): Saturating 64-bit add that sets SAT. -/
def doAddS (e : Nat) (rd ra rb : BitVec 5) (s : State) : Host.Outcome State Fault Refusal :=
  effect (execAddS e rd ra rb) s

/-- SUB_S (R130): Saturating 64-bit subtract that sets SAT. -/
def doSubS (e : Nat) (rd ra rb : BitVec 5) (s : State) : Host.Outcome State Fault Refusal :=
  effect (execSubS e rd ra rb) s

/-- AND (R134): Bitwise AND. -/
def doAnd (e : Nat) (rd ra rb : BitVec 5) (s : State) : Host.Outcome State Fault Refusal :=
  effect (execAnd e rd ra rb) s

/-- OR (R134): Bitwise OR. -/
def doOr (e : Nat) (rd ra rb : BitVec 5) (s : State) : Host.Outcome State Fault Refusal :=
  effect (execOr e rd ra rb) s

/-- XOR (R134): Bitwise XOR. -/
def doXor (e : Nat) (rd ra rb : BitVec 5) (s : State) : Host.Outcome State Fault Refusal :=
  effect (execXor e rd ra rb) s

/-- SHL (R134): Shift left by a register count. -/
def doShl (e : Nat) (rd ra rb : BitVec 5) (s : State) : Host.Outcome State Fault Refusal :=
  effect (execShl e rd ra rb) s

/-- SHR (R134): Logical shift right by a register count. -/
def doShr (e : Nat) (rd ra rb : BitVec 5) (s : State) : Host.Outcome State Fault Refusal :=
  effect (execShr e rd ra rb) s

/-- SAR (R134): Arithmetic shift right by a register count. -/
def doSar (e : Nat) (rd ra rb : BitVec 5) (s : State) : Host.Outcome State Fault Refusal :=
  effect (execSar e rd ra rb) s

/-- MUL (R134): Low 64 bits of the product. -/
def doMul (e : Nat) (rd ra rb : BitVec 5) (s : State) : Host.Outcome State Fault Refusal :=
  effect (execMul e rd ra rb) s

/-- MULH (R134): Signed high 64 bits of the product. -/
def doMulh (e : Nat) (rd ra rb : BitVec 5) (s : State) : Host.Outcome State Fault Refusal :=
  effect (execMulh e rd ra rb) s

/-- DIV (R130): Signed division rounded toward zero, with defined results on zero and overflow. -/
def doDiv (e : Nat) (rd ra rb : BitVec 5) (s : State) : Host.Outcome State Fault Refusal :=
  effect (execDiv e rd ra rb) s

/-- CMP (R134): Sets the flags from ra − rb. -/
def doCmp (e : Nat) (ra rb : BitVec 5) (s : State) : Host.Outcome State Fault Refusal :=
  effect (execCmp e ra rb) s

/-- MIN (R134): Signed minimum. -/
def doMin (e : Nat) (rd ra rb : BitVec 5) (s : State) : Host.Outcome State Fault Refusal :=
  effect (execMin e rd ra rb) s

/-- MAX (R134): Signed maximum. -/
def doMax (e : Nat) (rd ra rb : BitVec 5) (s : State) : Host.Outcome State Fault Refusal :=
  effect (execMax e rd ra rb) s

/-- CLZ (R134): Counts leading zeros. -/
def doClz (e : Nat) (rd ra : BitVec 5) (s : State) : Host.Outcome State Fault Refusal :=
  effect (execClz e rd ra) s

/-- NRM (R134): Counts redundant sign bits. -/
def doNrm (e : Nat) (rd ra : BitVec 5) (s : State) : Host.Outcome State Fault Refusal :=
  effect (execNrm e rd ra) s

/-- ADDI (R134): Adds a sign-extended immediate. -/
def doAddi (e : Nat) (rd ra : BitVec 5) (imm : BitVec 16) (s : State) : Host.Outcome State Fault Refusal :=
  effect (execAddi e rd ra imm) s

/-- ANDI (R134): AND with a zero-extended immediate. -/
def doAndi (e : Nat) (rd ra : BitVec 5) (imm : BitVec 16) (s : State) : Host.Outcome State Fault Refusal :=
  effect (execAndi e rd ra imm) s

/-- ORI (R134): OR with a zero-extended immediate. -/
def doOri (e : Nat) (rd ra : BitVec 5) (imm : BitVec 16) (s : State) : Host.Outcome State Fault Refusal :=
  effect (execOri e rd ra imm) s

/-- XORI (R134): XOR with a zero-extended immediate. -/
def doXori (e : Nat) (rd ra : BitVec 5) (imm : BitVec 16) (s : State) : Host.Outcome State Fault Refusal :=
  effect (execXori e rd ra imm) s

/-- LUI (R134): Loads the immediate × 65,536, sign-extended. -/
def doLui (e : Nat) (rd : BitVec 5) (imm : BitVec 16) (s : State) : Host.Outcome State Fault Refusal :=
  effect (execLui e rd imm) s

/-- CMPI (R134): Sets the flags from ra − imm. -/
def doCmpi (e : Nat) (ra : BitVec 5) (imm : BitVec 16) (s : State) : Host.Outcome State Fault Refusal :=
  effect (execCmpi e ra imm) s

/-- SHLI (R134): Shift left by an immediate count. -/
def doShli (e : Nat) (rd ra : BitVec 5) (count : BitVec 6) (s : State) : Host.Outcome State Fault Refusal :=
  effect (execShli e rd ra count) s

/-- SHRI (R134): Logical shift right by an immediate count. -/
def doShri (e : Nat) (rd ra : BitVec 5) (count : BitVec 6) (s : State) : Host.Outcome State Fault Refusal :=
  effect (execShri e rd ra count) s

/-- SARI (R134): Arithmetic shift right by an immediate count. -/
def doSari (e : Nat) (rd ra : BitVec 5) (count : BitVec 6) (s : State) : Host.Outcome State Fault Refusal :=
  effect (execSari e rd ra count) s

end Sys2Proof.Machine
end

