-- ==== Sys2Proof/Machine/LineCmds.lean ====
section
/-! DEFINITION. Meanings of commands: the line ports and the converter chain (R255 to R271). -/
namespace Sys2Proof.Machine

/-- LINE_SHELL_ENABLE (R255): A write of LineShellEnable wakes or sleeps the line shell. -/
def doLineShellEnable (on : Bool) (s : State) : Host.Outcome State Fault Refusal :=
  effectDev (guarded Obj.lineShellEnable (lineShellEnable on)) s

/-- LINE_SHELL_WAKE_COMPLETE (R255): The line shell completes its wake and calibration, and applies the committed epochs. -/
def doLineShellWakeComplete (s : State) : Host.Outcome State Fault Refusal :=
  effectDev lineShellWakeComplete s

/-- SYNC_CONV_EDGE (R261): An edge on SYNC_CONV resets the ports in SyncPinMask; an edge dt after the present; long, of a
pulse of at least 330 ns. -/
def doSyncConvEdge (rising long : Bool) (dt : Nat) (s : State) : Host.Outcome State Fault Refusal :=
  effectDev (syncConvEdge rising long dt) s

/-- SYNC_COMMAND (R261): A write of SyncCommand schedules a sync reset at a tick. -/
def doSyncCommand (mask tick : Nat) (s : State) : Host.Outcome State Fault Refusal :=
  effectDev (guarded Obj.syncCommand (syncCommand mask tick)) s

/-- SYNC_RESET (R262): The decimators of the selected ports are cleared at one modulator edge, and UNSETTLED runs begin. -/
def doSyncReset (s : State) : Host.Outcome State Fault Refusal :=
  effectDev syncReset s

/-- PLL_UNLOCK (R257): The converter PLL loses lock, and the outputs carry UNSETTLED. -/
def doPllUnlock (s : State) : Host.Outcome State Fault Refusal :=
  effectDev pllUnlock s

/-- PLL_RELOCK (R262): The PLL relocks, with an implicit reset of every enabled port. -/
def doPllRelock (s : State) : Host.Outcome State Fault Refusal :=
  effectDev pllRelock s

/-- RECALIBRATE_NOW (R270): A write of RecalibrateNow calibrates one port. -/
def doRecalibrateNow (port : Nat) (s : State) : Host.Outcome State Fault Refusal :=
  effectDev (guarded Obj.recalibrateNow (recalibrateNow port)) s

/-- CALIBRATION_COMPLETE (R270): A calibration ends with a reset of the port. -/
def doCalibrationComplete (port : Nat) (s : State) : Host.Outcome State Fault Refusal :=
  effectDev (calibrationComplete port) s

/-- CAL_DRIFT (R270): The line die temperature drifts beyond 10 °C of CalibrationTemperature, and one notice is raised; the
line die at a temperature, 0.1 °C. -/
def doCalDrift (temp : Int) (s : State) : Host.Outcome State Fault Refusal :=
  effectDev (calDrift temp) s

end Sys2Proof.Machine
end

