-- ==== Sys2Proof/Machine/MgmtCmds.lean ====
section
/-! DEFINITION. Meanings of commands: CANopen, Gencel Object Access and the management link (R272 to R291). -/
namespace Sys2Proof.Machine

/-- USDO_REQUEST (R273): A CANopen USDO request reads or writes an object. -/
def doUsdoRequest (bus : Nat) (write : Bool) (idx sub : Nat) (data : Bytes) (facts : Outside) (s : State) : Host.Outcome
    State Fault Refusal :=
  effectDev (usdoRequest bus write idx sub data facts) s

/-- NMT_START (R275): NMT Start enables PDOs on the bus. -/
def doNmtStart (bus : Nat) (s : State) : Host.Outcome State Fault Refusal :=
  effectDev (nmtStart bus) s

/-- NMT_STOP (R275): NMT Stop on the bus. -/
def doNmtStop (bus : Nat) (s : State) : Host.Outcome State Fault Refusal :=
  effectDev (nmtStop bus) s

/-- NMT_PRE_OPERATIONAL (R275): NMT Pre-operational on the bus. -/
def doNmtPreOperational (bus : Nat) (s : State) : Host.Outcome State Fault Refusal :=
  effectDev (nmtPreOperational bus) s

/-- NMT_RESET_NODE (R275): Re-initialises the bus's communication and sends boot-up. -/
def doNmtResetNode (bus : Nat) (s : State) : Host.Outcome State Fault Refusal :=
  effectDev (nmtResetNode bus) s

/-- NMT_RESET_COMMUNICATION (R275): Re-initialises the bus's communication and sends boot-up. -/
def doNmtResetCommunication (bus : Nat) (s : State) : Host.Outcome State Fault Refusal :=
  effectDev (nmtResetCommunication bus) s

/-- SYNC (R278): A SYNC message triggers the synchronous TPDOs. -/
def doSync (bus : Nat) (s : State) : Host.Outcome State Fault Refusal :=
  effectDev (syncMessage bus) s

/-- RPDO (R274): A received RPDO writes its mapped objects. -/
def doRpdo (bus n : Nat) (data : Bytes) (facts : Outside) (s : State) : Host.Outcome State Fault Refusal :=
  effectDev (rpdo bus n data facts) s

/-- TPDO_EVENT_TIMER (R278): A TPDO event timer expires and the TPDO is sent. -/
def doTpdoEventTimer (n : Nat) (s : State) : Host.Outcome State Fault Refusal :=
  effectDev (tpdoEventTimer n) s

/-- PRODUCER_HEARTBEAT (R276): The heartbeat is sent every ProducerHeartbeatTime. -/
def doProducerHeartbeat (s : State) : Host.Outcome State Fault Refusal :=
  effectDev producerHeartbeat s

/-- CONSUMER_HEARTBEAT_TIMEOUT (R276): A consumed heartbeat times out, and a notice is raised. -/
def doConsumerHeartbeatTimeout (bus entry : Nat) (s : State) : Host.Outcome State Fault Refusal :=
  effectDev (consumerHeartbeatTimeout bus entry) s

/-- BUS_OFF (R274): A CAN bus enters bus-off and recovers; into bus-off, or recovered. -/
def doBusOff (bus : Nat) (back : Bool) (s : State) : Host.Outcome State Fault Refusal :=
  effectDev (busOff bus back) s

/-- ERROR_COUNT_CLEAR (R277): Writing 0 to 0x1003:00 clears PreDefinedErrorField. -/
def doErrorCountClear (s : State) : Host.Outcome State Fault Refusal :=
  effectDev (guarded Obj.errorCount errorCountClear) s

/-- READ (R287): A Gencel Object Access READ of up to 64 items. -/
def doRead (head : GoaHead) (staged : Bool) (items : List GoaItem) (s : State) : Host.Outcome State Fault Refusal :=
  effectDev (goaReadReq head staged items) s

/-- WRITE (R287): A Gencel Object Access WRITE of up to 64 items. -/
def doWrite (head : GoaHead) (items : List GoaItem) (facts : Outside) (s : State) : Host.Outcome State Fault Refusal :=
  effectDev (goaWriteReq head items facts) s

/-- BLOCK_BEGIN (R290): Opens a block transfer, discarding any block already open. -/
def doBlockBegin (head : GoaHead) (idx sub item len crc : Nat) (s : State) : Host.Outcome State Fault Refusal :=
  effectDev (blockBeginReq head idx sub item len crc) s

/-- BLOCK_DATA (R290): Stores one segment of an open block. -/
def doBlockData (head : GoaHead) (off : Nat) (data : Bytes) (s : State) : Host.Outcome State Fault Refusal :=
  effectDev (blockDataReq head off data) s

/-- BLOCK_END (R290): Performs the block write when complete and the CRC matches. -/
def doBlockEnd (head : GoaHead) (facts : Outside) (s : State) : Host.Outcome State Fault Refusal :=
  effectDev (blockEndReq head facts) s

/-- BLOCK_READ (R290): Returns a segment of a DOMAIN from a snapshot. -/
def doBlockRead (head : GoaHead) (idx sub item off : Nat) (s : State) : Host.Outcome State Fault Refusal :=
  effectDev (blockReadReq head idx sub item off) s

/-- KEY_LOAD (R288): Loads the first key into an empty slot and opens a session. -/
def doKeyLoad (head : GoaHead) (slot key : Nat) (bad : Bool) (s : State) : Host.Outcome State Fault Refusal :=
  effectDev (keyLoad head slot key bad) s

/-- BLOCK_TIMEOUT (R290): A block left for 5 s without a datagram is discarded. -/
def doBlockTimeout (session : Nat) (s : State) : Host.Outcome State Fault Refusal :=
  effectDev (blockTimeout session) s

/-- GOA_KEY_WRITE (R288): A write of GoaKey0 or GoaKey1 sets or clears a key slot. -/
def doGoaKeyWrite (slot key : Nat) (bad : Bool) (s : State) : Host.Outcome State Fault Refusal :=
  effectDev (guarded Obj.goaKey (goaKeyWrite slot key bad)) s

end Sys2Proof.Machine
end

