-- ==== Sys2Proof/Machine/PortCmds.lean ====
section
/-! DEFINITION. Meanings of commands: the Ethernet ports and the forwarding path (R41 to R62). -/
namespace Sys2Proof.Machine

/-- LANE_GROUP_MODE_WRITE (R41): A write of LaneGroupMode re-lays the ports of a lane group, and is refused while any of its
ports is up. -/
def doLaneGroupModeWrite (group mode : Nat) (s : State) : Host.Outcome State Fault Refusal :=
  effectDev (guarded Obj.laneGroupMode (laneGroupModeWrite group mode)) s

/-- ADMIN_UP_WRITE (R184): A write of AdminUp enables a port once VDD_CORE has been raised to at least 0.720 V. -/
def doAdminUpWrite (port v : Nat) (s : State) : Host.Outcome State Fault Refusal :=
  effectDev (guarded Obj.adminUp (adminUpWrite port v)) s

/-- LINK_STATE_CHANGE (R42): A port's link comes up or goes down after training or loss of signal. -/
def doLinkStateChange (port : Nat) (up : Bool) (s : State) : Host.Outcome State Fault Refusal :=
  effectDev (linkStateChange port up) s

/-- FRAME_RECEIVED (R44): A received frame is judged by size and integrity, deduplicated under PRP, and classified under Table
3.6; a frame that ends dt after the present. -/
def doFrameReceived (port dt : Nat) (frame : Frame) (s : State) : Host.Outcome State Fault Refusal :=
  effectDev (frameArrives port dt frame) s

/-- PAUSE_EXPIRY (R47): A pause time expires and the priority resumes from the next frame boundary. -/
def doPauseExpiry (port prio : Nat) (s : State) : Host.Outcome State Fault Refusal :=
  effectDev (pauseExpiry port prio) s

/-- DAMPER_BREAK (R49): When the hold time reaches PauseWatchdogLimit, the watchdog breaks the pause, discards aged frames and
ignores pauses for a while. -/
def doDamperBreak (port prio : Nat) (s : State) : Host.Outcome State Fault Refusal :=
  effectDev (damperBreak port prio) s

/-- DAMPER_IGNORE_END (R49): DamperIgnoreTime ends and received pauses are obeyed again. -/
def doDamperIgnoreEnd (port prio : Nat) (s : State) : Host.Outcome State Fault Refusal :=
  effectDev (damperIgnoreEnd port prio) s

/-- PAUSE_TX_REFRESH (R48): The pause is repeated at half its time while the excess lasts. -/
def doPauseTxRefresh (port prio : Nat) (s : State) : Host.Outcome State Fault Refusal :=
  effectDev (pauseTxRefresh port prio) s

/-- EGRESS_FRAME_TX (R60): The egress scheduler starts the next complete frame on the wire, by strict priority and DRR. -/
def doEgressFrameTx (port : Nat) (s : State) : Host.Outcome State Fault Refusal :=
  effectDev (egressFrameTx port) s

/-- LIFE_CHECK_TX (R56): A PRP supervision frame is sent every LifeCheckInterval. -/
def doLifeCheckTx (pair : Nat) (s : State) : Host.Outcome State Fault Refusal :=
  effectDev (lifeCheckTx pair) s

/-- PRP_NODE_FORGET (R56): PRP entries and nodes age out after EntryForgetTime and NodeForgetTime. -/
def doPrpNodeForget (s : State) : Host.Outcome State Fault Refusal :=
  effectDev prpNodeForget s

/-- FLOW_KEY_WRITE (R53): A staging write of FlowKey places the entry, or is refused for a duplicate key or when no place is
found. -/
def doFlowKeyWrite (entry key : Nat) (s : State) : Host.Outcome State Fault Refusal :=
  effectDev (guarded Obj.flowKey (fun d => stageWrite d Obj.flowKey entry 0 key)) s

/-- FLUE_CREDIT_MISMATCH (R62): The flue auditor finds the credit identity broken, and reports FC3 on the stop. -/
def doFlueCreditMismatch (stop : Nat) (s : State) : Host.Outcome State Fault Refusal :=
  effectDev (flueCreditMismatch stop) s

end Sys2Proof.Machine
end

