-- ==== Sys2Proof/Machine/StokerCmds.lean ====
section
/-! DEFINITION. Meanings of commands: the Stoker, the gauge and the steering of VDD_CORE (R142, R164 to R190), and queue events (R198,
R199). -/
namespace Sys2Proof.Machine

/-- A Stoker command (R178): through StokerCommand of the dictionary, or through the port of a hearth's slice. -/
def stokerRow (port : Option Nat) (code : Nat) (r : StokerRec) (d : Dev) : Dev :=
  match port with
  | none => guarded Obj.stokerCommand (fun d => stokerCommand (accept d) none code r) d
  | some h => if hearthsOf d ≤ h then d else stokerCommand d (some h) code r

/-- CONTEXT_WRITEBACK (R142): The old context is written to the Stoker's memory after a bank swap. -/
def doContextWriteback (e : Nat) (s : State) : Host.Outcome State Fault Refusal :=
  effectDev (contextWriteback e) s

/-- CANDIDATE_PRELOAD (R142): The next candidate's context is loaded into the inactive bank. -/
def doCandidatePreload (e : Nat) (s : State) : Host.Outcome State Fault Refusal :=
  effectDev (candidatePreload e) s

/-- DISPATCH (R172): The slice places the first ready entry on an engine of the mask, pre-empting a lower priority, and swaps
banks. -/
def doDispatch (hearth : Nat) (s : State) : Host.Outcome State Fault Refusal :=
  effect (dispatch hearth) s

/-- LATCH_RETRY (R170): A hardware poster retries its latched entry when a ready entry is freed in the hearth. -/
def doLatchRetry (poster : Nat) (s : State) : Host.Outcome State Fault Refusal :=
  effectDev (latchRetry poster) s

/-- DEADLINE_MISS (R176): A TICK or FRAME release has not ended at its deadline, and the miss is reported once. -/
def doDeadlineMiss (thread : Nat) (s : State) : Host.Outcome State Fault Refusal :=
  effectDev (deadlineMiss thread) s

/-- CREATE (R178): The Stoker command takes a TCB and moves Cost to the target engine's allocated pool; port none is
StokerCommand of the dictionary, some h the port of hearth h's slice. -/
def doCreate (port : Option Nat) (rec_ : StokerRec) (s : State) : Host.Outcome State Fault Refusal :=
  effectDev (stokerRow port 1 rec_) s

/-- SET (R178): The Stoker command changes a thread's priority, mask, flags, deadline or cost. -/
def doSet (port : Option Nat) (rec_ : StokerRec) (s : State) : Host.Outcome State Fault Refusal :=
  effectDev (stokerRow port 2 rec_) s

/-- MIGRATE (R178): The Stoker command moves a thread, its entries and its Cost to a target engine. -/
def doMigrate (port : Option Nat) (rec_ : StokerRec) (s : State) : Host.Outcome State Fault Refusal :=
  effectDev (stokerRow port 3 rec_) s

/-- MIGRATION_MOVE (R178): A migration of a RUNNING thread is carried out at its next EXIT, WAIT, YIELD or pre-emption. -/
def doMigrationMove (thread : Nat) (s : State) : Host.Outcome State Fault Refusal :=
  effectDev (migrationMove thread) s

/-- RESUME (R178): The Stoker command returns a FAULTED thread to READY or BLOCKED. -/
def doResume (port : Option Nat) (rec_ : StokerRec) (s : State) : Host.Outcome State Fault Refusal :=
  effectDev (stokerRow port 4 rec_) s

/-- REMOVE (R178): The Stoker command frees a TCB and returns its Cost. -/
def doRemove (port : Option Nat) (rec_ : StokerRec) (s : State) : Host.Outcome State Fault Refusal :=
  effectDev (stokerRow port 5 rec_) s

/-- CLEAR_STATISTICS (R186): The Stoker command clears the class B statistics of an engine or of all engines. -/
def doClearStatistics (port : Option Nat) (rec_ : StokerRec) (s : State) : Host.Outcome State Fault Refusal :=
  effectDev (stokerRow port 6 rec_) s

/-- GAUGE_READING (R180): Every 100 µs a hearth's gauge reports G, and Capacity, Free and Deficit are recomputed. -/
def doGaugeReading (hearth g : Nat) (s : State) : Host.Outcome State Fault Refusal :=
  effectDev (gaugeReading hearth g) s

/-- DEFICIT_STANDING (R182): A deficit stands longer than DeficitAlarmTime and a second notice is raised. -/
def doDeficitStanding (engine : Nat) (s : State) : Host.Outcome State Fault Refusal :=
  effectDev (deficitStanding engine) s

/-- AVS_DECISION (R183): Every AvsInterval the supervisor raises, lowers or holds VDD_CORE. -/
def doAvsDecision (s : State) : Host.Outcome State Fault Refusal :=
  effectDev avsDecision s

/-- AVS_REPORT (R183): The regulator reports the commanded voltage. -/
def doAvsReport (mv : Nat) (s : State) : Host.Outcome State Fault Refusal :=
  effectDev (avsReport mv) s

/-- AVS_FAILURE (R184): No report arrives within 2,000 µs, and the last reported voltage is commanded again. -/
def doAvsFailure (s : State) : Host.Outcome State Fault Refusal :=
  effectDev avsFailure s

/-- QUEUE_RESET (R198): QueueReset returns an isolated queue to use, freeing its cells up to the damaged one. -/
def doQueueReset (q : Nat) (s : State) : Host.Outcome State Fault Refusal :=
  effectDev (guarded Obj.queueResetObj (queueResetWrite q)) s

/-- CELL_AUDIT (R199): The cell auditor finds the conservation identity broken, and reports FC3. -/
def doCellAudit (s : State) : Host.Outcome State Fault Refusal :=
  effectDev cellAudit s

end Sys2Proof.Machine
end

