-- ==== Sys2Proof/Machine/StoreCmds.lean ====
section
/-! DEFINITION. Meanings of commands: evidence compression, check-value channels and the evidence store (R222 to R254). -/
namespace Sys2Proof.Machine

/-- EVIDENCE_BLOCK_CLOSE (R223): An evidence block closes on its tick, or at CaptureBlockLimit, and becomes a compressor job.
-/
def doEvidenceBlockClose (stream : Nat) (s : State) : Host.Outcome State Fault Refusal :=
  effectDev (evidenceBlockClose stream) s

/-- COMPRESSOR_JOB_START (R233): A free unit takes the oldest eligible job and restores its context. -/
def doCompressorJobStart (unit : Nat) (s : State) : Host.Outcome State Fault Refusal :=
  effectDev (compressorJobStart unit) s

/-- COMPRESSOR_JOB_SUSPEND (R236): The next code word does not fit the granted output, and the job suspends with its context
saved. -/
def doCompressorJobSuspend (unit : Nat) (s : State) : Host.Outcome State Fault Refusal :=
  effectDev (compressorJobSuspend unit) s

/-- COMPRESSOR_JOB_COMPLETE (R233): A job saves its context and hands its output to the store host, which places it at the
write point. -/
def doCompressorJobComplete (unit : Nat) (s : State) : Host.Outcome State Fault Refusal :=
  effectDev (compressorJobComplete unit) s

/-- OUTPUT_PAGE_GRANT (R250): Output pages are granted from the pool to a job, which rejoins the queue. -/
def doOutputPageGrant (stream : Nat) (s : State) : Host.Outcome State Fault Refusal :=
  effectDev (outputPageGrant stream) s

/-- UNIT_ABORT (R237): UnitCommand 1 aborts the running job, saving its context with JobState 2. -/
def doUnitAbort (unit : Nat) (s : State) : Host.Outcome State Fault Refusal :=
  effectDev (guarded Obj.compUnitCommand (unitAbort unit)) s

/-- CHECK_JOB_START (R240): A check channel pops a descriptor with acquire and starts scanning. -/
def doCheckJobStart (k : Nat) (s : State) : Host.Outcome State Fault Refusal :=
  effectDev (checkJobStart k) s

/-- CHECK_JOB_COMPLETE (R241): A check job finishes and pushes its result with release. -/
def doCheckJobComplete (k : Nat) (s : State) : Host.Outcome State Fault Refusal :=
  effect (checkJobComplete k) s

/-- SEAL_JOB (R242): A seal job runs at the next 64 KiB boundary, suspending any firmware job there. -/
def doSealJob (k : Nat) (s : State) : Host.Outcome State Fault Refusal :=
  effectDev (sealJob k) s

/-- SEAL_COMPLETE (R249): A record is sealed and its Write is submitted. -/
def doSealComplete (k : Nat) (poison : Bool) (s : State) : Host.Outcome State Fault Refusal :=
  effectDev (sealComplete k poison) s

/-- NVME_WRITE_COMPLETE (R249): An NVMe Write completes, or fails and is retried, or fails the namespace; the Write of the
record at an offset of a segment, or of its header. -/
def doNvmeWriteComplete (seg off : Nat) (end_ : NvmeEnd) (s : State) : Host.Outcome State Fault Refusal :=
  effectDev (nvmeWriteComplete seg off end_) s

/-- SEGMENT_CLOSE_TIME (R248): SegmentCloseTime passes and the segment closes. -/
def doSegmentCloseTime (s : State) : Host.Outcome State Fault Refusal :=
  effectDev segmentCloseTime s

/-- SEGMENT_HEADER_WRITTEN (R249): A segment header write completes, and its blocks become durable and their pages freed. -/
def doSegmentHeaderWritten (seg : Nat) (s : State) : Host.Outcome State Fault Refusal :=
  effectDev (segmentHeaderWritten seg) s

/-- FORMAT (R245): StoreCommand 1 labels every namespace and zeroes the slot headers. -/
def doFormat (s : State) : Host.Outcome State Fault Refusal :=
  effectDev (guarded Obj.storeCommand formatStore) s

/-- CLOSE_SEGMENT (R248): StoreCommand 2 closes the open segment. -/
def doCloseSegment (s : State) : Host.Outcome State Fault Refusal :=
  effectDev (guarded Obj.storeCommand closeSegmentCmd) s

/-- ADOPT (R245): StoreCommand 3 labels a replacement namespace into a failed place. -/
def doAdopt (s : State) : Host.Outcome State Fault Refusal :=
  effectDev (guarded Obj.storeCommand adoptNamespace) s

end Sys2Proof.Machine
end

