-- ==== Sys2Proof/Machine/TimeCmds.lean ====
section
/-! DEFINITION. Meanings of commands: the clocks, ticks, time triggers, pins and captures (R21 to R39, R164, R203). -/
namespace Sys2Proof.Machine

/-- TICK_START (R29): A media tick starts: the pending epoch applies, the setup records naming the tick apply, and then the
tick is released. -/
def doTickStart (s : State) : Host.Outcome State Fault Refusal :=
  effectDev tickStart s

/-- BANK_SEAL (R203): At each tick the speech banks swap on the channel's phase, and slot t − 8 is sealed, filled under R204
if unwritten, and handed to evidence. -/
def doBankSeal (s : State) : Host.Outcome State Fault Refusal :=
  effectDev bankSeal s

/-- OA_ROUND_CLOSE (R164): An ordered-accumulate round closes at its due tick, sums in member-index order, or selects talkers
for a group, and writes the result slot; round r of context n. -/
def doOaRoundClose (n r : Nat) (s : State) : Host.Outcome State Fault Refusal :=
  effectDev (oaRoundClose n r) s

/-- MEDIA_LOCK (R30): The media slew completes once |D| falls below 10 ns, and media time becomes LOCKED to network time. -/
def doMediaLock (s : State) : Host.Outcome State Fault Refusal :=
  effectDev mediaLock s

/-- SUSPECT_CLEAR_TIME_EXPIRY (R33): A SUSPECT slot whose measurements have agreed for SuspectClearTime returns to LOCKED. -/
def doSuspectClearTimeExpiry (slot : Nat) (s : State) : Host.Outcome State Fault Refusal :=
  effectDev (suspectClear slot) s

/-- SLOT_LOST (R24): The selected slot's SlotState becomes LOST, and the device switches by slew or enters HOLDOVER. -/
def doSlotLost (slot : Nat) (s : State) : Host.Outcome State Fault Refusal :=
  effectDev (slotLost slot) s

/-- DOMAIN_SWITCH_SLEW (R25): DomainSwitchCommand 1 or 2 selects a slot and slews network time to it at 10 ppm;
DomainSwitchCommand 1 + slot. -/
def doDomainSwitchSlew (slot : Nat) (s : State) : Host.Outcome State Fault Refusal :=
  effectDev (guarded Obj.domainSwitchCommand (domainSwitchSlew slot)) s

/-- DOMAIN_SWITCH_STEP (R25): DomainSwitchCommand 3 or 4 selects a slot and steps network time to it; DomainSwitchCommand 3 +
slot. -/
def doDomainSwitchStep (slot : Nat) (s : State) : Host.Outcome State Fault Refusal :=
  effectDev (guarded Obj.domainSwitchCommand (domainSwitchStep slot)) s

/-- DOMAIN_SWITCH_HOLDOVER (R34): DomainSwitchCommand 5 enters a HOLDOVER that awaits a choice; DomainSwitchCommand 5. -/
def doDomainSwitchHoldover (s : State) : Host.Outcome State Fault Refusal :=
  effectDev (guarded Obj.domainSwitchCommand domainSwitchHoldover) s

/-- DOMAIN_SWITCH_CLEAR_SUSPECT (R33): DomainSwitchCommand 6 or 7 clears SUSPECT on a slot; DomainSwitchCommand 6 + slot. -/
def doDomainSwitchClearSuspect (slot : Nat) (s : State) : Host.Outcome State Fault Refusal :=
  effectDev (guarded Obj.domainSwitchCommand (domainSwitchClearSuspect slot)) s

/-- TRIGGER_FIRE (R35): A time-trigger unit fires: it pulses its TIME_OUT pin, resets converters or posts a thread; trigger
unit k. -/
def doTriggerFire (k : Nat) (s : State) : Host.Outcome State Fault Refusal :=
  effectDev (triggerFire k) s

/-- TRIGGER_PULSE_END (R36): A trigger pulse ends after Width and the pin returns to its inactive level. -/
def doTriggerPulseEnd (k : Nat) (s : State) : Host.Outcome State Fault Refusal :=
  effectDev (triggerPulseEnd k) s

/-- PPS_OUT_PULSE (R38): PPS_OUT pulses at each whole second of network time under PpsOutMode. -/
def doPpsOutPulse (s : State) : Host.Outcome State Fault Refusal :=
  effectDev ppsPulse s

/-- PPS_OUT_PULSE_END (R38): The PPS_OUT pulse ends after PpsOutWidth. -/
def doPpsOutPulseEnd (s : State) : Host.Outcome State Fault Refusal :=
  effectDev ppsPulseEnd s

/-- TIME_IN_EDGE (R39): A selected edge on TIME_IN or PPS_IN is captured into its FIFO, or counted in Lost when the FIFO is
full; an edge dt after the present, in units of 2⁻¹⁶ ns; input 4 is PPS_IN. -/
def doTimeInEdge (input : Nat) (rising : Bool) (dt : Nat) (s : State) : Host.Outcome State Fault Refusal :=
  effectDev (timeInEdge input rising dt) s

/-- CAPTURE_RECORDS_READ (R39): A read of Records returns the held capture records, oldest first, and frees them. -/
def doCaptureRecordsRead (input : Nat) (s : State) : Host.Outcome State Fault Refusal :=
  effectDev (guardedRead Obj.capRecords (captureRead input)) s

end Sys2Proof.Machine
end

