-- ==== Sys2Proof/Machine/TwinCmds.lean ====
section
/-! DEFINITION. Meanings of commands: the twin: ledgers, fetches, joining and withdrawal (R208 to R221), and keys (R66, R209). -/
namespace Sys2Proof.Machine

/-- LEDGER_CLOSE (R211): At the twin deadline a twin closes its ledger interval and sends the ledger frames. -/
def doLedgerClose (s : State) : Host.Outcome State Fault Refusal :=
  effectDev ledgerClose s

/-- LEDGER_RECEIVED (R214): A partner's ledger arrives: FETCHes are sent, decisions held, digests compared, config and skew
checked; a partner's ledger in its frames, and whether all verify. -/
def doLedgerReceived (ledger : Ledger) (frames : Nat) (good : Bool) (s : State) : Host.Outcome State Fault Refusal :=
  effectDev (ledgerReceived ledger frames good) s

/-- FETCH_RECEIVED (R213): The holder answers a FETCH with the packet or with NOT_HELD. -/
def doFetchReceived (channel seq ts : Nat) (s : State) : Host.Outcome State Fault Refusal :=
  effectDev (fetchReceived channel seq ts) s

/-- FETCH_REPLY_RECEIVED (R213): A fetched packet is queued, or the fetch counts as failed; no payload is NOT_HELD. -/
def doFetchReplyReceived (channel seq ts : Nat) (payload : Option Bytes) (s : State) : Host.Outcome State Fault Refusal :=
  effectDev (fetchReplyReceived channel seq ts payload) s

/-- PARTNER_LOST (R218): Ledgers missing for PartnerLossIntervals, or the partner's withdrawal, make the survivor ALONE. -/
def doPartnerLost (s : State) : Host.Outcome State Fault Refusal :=
  effectDev partnerLost s

/-- HELLO (R219): A joiner sends HELLO every 100 ms. -/
def doHello (s : State) : Host.Outcome State Fault Refusal :=
  effectDev hello s

/-- JOIN_ACCEPT (R219): On HELLO, the partner becomes FEEDING, the joiner JOINING, and the state copy begins. -/
def doJoinAccept (peer : Peer) (s : State) : Host.Outcome State Fault Refusal :=
  effectDev (joinAccept peer) s

/-- JOIN_CHANNEL_SNAPSHOT (R219): A channel snapshot arrives and the joiner runs the channel from the next frame. -/
def doJoinChannelSnapshot (channel : Nat) (snap : Snapshot) (s : State) : Host.Outcome State Fault Refusal :=
  effectDev (joinChannelSnapshot channel snap) s

/-- TWIN_WITHDRAW (R221): TwinCommand 1 withdraws the twin and suppresses every output. -/
def doTwinWithdraw (s : State) : Host.Outcome State Fault Refusal :=
  effectDev (guarded Obj.twinCommand twinWithdraw) s

/-- TWIN_START_JOIN (R221): TwinCommand 2 starts a join now. -/
def doTwinStartJoin (s : State) : Host.Outcome State Fault Refusal :=
  effectDev (guarded Obj.twinCommand twinStartJoin) s

/-- TWIN_LINK_KEY_WRITE (R209): A write of TwinLinkKey unwraps and sets the twin link key; bad, the key fails to unwrap. -/
def doTwinLinkKeyWrite (key : Nat) (bad : Bool) (s : State) : Host.Outcome State Fault Refusal :=
  effectDev (guarded Obj.twinLinkKey (twinLinkKeyWrite key bad)) s

/-- KEY_TRANSPORT_KEY_WRITE (R66): A write of KeyTransportKey unwraps and sets the key transport key. -/
def doKeyTransportKeyWrite (key : Nat) (bad : Bool) (s : State) : Host.Outcome State Fault Refusal :=
  effectDev (guarded Obj.keyTransportKey (keyTransportKeyWrite key bad)) s

end Sys2Proof.Machine
end

