-- ==== Sys2Proof/Machine/Dispatch.lean ====
section
/-! DEFINITION. The meaning of each command: one arm per constructor of Instr. -/
namespace Sys2Proof.Machine

def exec (i : Instr) (s : State) : Host.Outcome State Fault Refusal :=
  match i with
  | .tickStart => Sys2Proof.Machine.doTickStart s
  | .bankSeal => Sys2Proof.Machine.doBankSeal s
  | .oaRoundClose n r => Sys2Proof.Machine.doOaRoundClose n r s
  | .mediaLock => Sys2Proof.Machine.doMediaLock s
  | .suspectClearTimeExpiry slot => Sys2Proof.Machine.doSuspectClearTimeExpiry slot s
  | .slotLost slot => Sys2Proof.Machine.doSlotLost slot s
  | .domainSwitchSlew slot => Sys2Proof.Machine.doDomainSwitchSlew slot s
  | .domainSwitchStep slot => Sys2Proof.Machine.doDomainSwitchStep slot s
  | .domainSwitchHoldover => Sys2Proof.Machine.doDomainSwitchHoldover s
  | .domainSwitchClearSuspect slot => Sys2Proof.Machine.doDomainSwitchClearSuspect slot s
  | .triggerFire k => Sys2Proof.Machine.doTriggerFire k s
  | .triggerPulseEnd k => Sys2Proof.Machine.doTriggerPulseEnd k s
  | .ppsOutPulse => Sys2Proof.Machine.doPpsOutPulse s
  | .ppsOutPulseEnd => Sys2Proof.Machine.doPpsOutPulseEnd s
  | .timeInEdge input rising dt => Sys2Proof.Machine.doTimeInEdge input rising dt s
  | .captureRecordsRead input => Sys2Proof.Machine.doCaptureRecordsRead input s
  | .laneGroupModeWrite group mode => Sys2Proof.Machine.doLaneGroupModeWrite group mode s
  | .adminUpWrite port v => Sys2Proof.Machine.doAdminUpWrite port v s
  | .linkStateChange port up => Sys2Proof.Machine.doLinkStateChange port up s
  | .frameReceived port dt frame => Sys2Proof.Machine.doFrameReceived port dt frame s
  | .pauseExpiry port prio => Sys2Proof.Machine.doPauseExpiry port prio s
  | .damperBreak port prio => Sys2Proof.Machine.doDamperBreak port prio s
  | .damperIgnoreEnd port prio => Sys2Proof.Machine.doDamperIgnoreEnd port prio s
  | .pauseTxRefresh port prio => Sys2Proof.Machine.doPauseTxRefresh port prio s
  | .egressFrameTx port => Sys2Proof.Machine.doEgressFrameTx port s
  | .lifeCheckTx pair => Sys2Proof.Machine.doLifeCheckTx pair s
  | .prpNodeForget => Sys2Proof.Machine.doPrpNodeForget s
  | .flowKeyWrite entry key => Sys2Proof.Machine.doFlowKeyWrite entry key s
  | .flueCreditMismatch stop => Sys2Proof.Machine.doFlueCreditMismatch stop s
  | .setupRecordWrite data badKeys => Sys2Proof.Machine.doSetupRecordWrite data badKeys s
  | .endpointRegister rec_ => Sys2Proof.Machine.doEndpointRegister rec_ s
  | .endpointRemove rec_ => Sys2Proof.Machine.doEndpointRemove rec_ s
  | .channelOpen rec_ => Sys2Proof.Machine.doChannelOpen rec_ s
  | .channelClose rec_ => Sys2Proof.Machine.doChannelClose rec_ s
  | .channelModify rec_ => Sys2Proof.Machine.doChannelModify rec_ s
  | .groupJoin rec_ => Sys2Proof.Machine.doGroupJoin rec_ s
  | .groupLeave rec_ => Sys2Proof.Machine.doGroupLeave rec_ s
  | .keyUpdate rec_ => Sys2Proof.Machine.doKeyUpdate rec_ s
  | .endpointUpdate rec_ => Sys2Proof.Machine.doEndpointUpdate rec_ s
  | .previousKeyExpiry endpoint => Sys2Proof.Machine.doPreviousKeyExpiry endpoint s
  | .setupResultsRead => Sys2Proof.Machine.doSetupResultsRead s
  | .frameWork channel work => Sys2Proof.Machine.doFrameWork channel work s
  | .epochCommit epoch tick => Sys2Proof.Machine.doEpochCommit epoch tick s
  | .epochAbort => Sys2Proof.Machine.doEpochAbort s
  | .objectWrite route idx sub item data facts => Sys2Proof.Machine.doObjectWrite route idx sub item data facts s
  | .add e rd ra rb => Sys2Proof.Machine.doAdd e rd ra rb s
  | .sub e rd ra rb => Sys2Proof.Machine.doSub e rd ra rb s
  | .addS e rd ra rb => Sys2Proof.Machine.doAddS e rd ra rb s
  | .subS e rd ra rb => Sys2Proof.Machine.doSubS e rd ra rb s
  | .and e rd ra rb => Sys2Proof.Machine.doAnd e rd ra rb s
  | .or e rd ra rb => Sys2Proof.Machine.doOr e rd ra rb s
  | .xor e rd ra rb => Sys2Proof.Machine.doXor e rd ra rb s
  | .shl e rd ra rb => Sys2Proof.Machine.doShl e rd ra rb s
  | .shr e rd ra rb => Sys2Proof.Machine.doShr e rd ra rb s
  | .sar e rd ra rb => Sys2Proof.Machine.doSar e rd ra rb s
  | .mul e rd ra rb => Sys2Proof.Machine.doMul e rd ra rb s
  | .mulh e rd ra rb => Sys2Proof.Machine.doMulh e rd ra rb s
  | .div e rd ra rb => Sys2Proof.Machine.doDiv e rd ra rb s
  | .cmp e ra rb => Sys2Proof.Machine.doCmp e ra rb s
  | .min e rd ra rb => Sys2Proof.Machine.doMin e rd ra rb s
  | .max e rd ra rb => Sys2Proof.Machine.doMax e rd ra rb s
  | .clz e rd ra => Sys2Proof.Machine.doClz e rd ra s
  | .nrm e rd ra => Sys2Proof.Machine.doNrm e rd ra s
  | .addi e rd ra imm => Sys2Proof.Machine.doAddi e rd ra imm s
  | .andi e rd ra imm => Sys2Proof.Machine.doAndi e rd ra imm s
  | .ori e rd ra imm => Sys2Proof.Machine.doOri e rd ra imm s
  | .xori e rd ra imm => Sys2Proof.Machine.doXori e rd ra imm s
  | .lui e rd imm => Sys2Proof.Machine.doLui e rd imm s
  | .cmpi e ra imm => Sys2Proof.Machine.doCmpi e ra imm s
  | .shli e rd ra count => Sys2Proof.Machine.doShli e rd ra count s
  | .shri e rd ra count => Sys2Proof.Machine.doShri e rd ra count s
  | .sari e rd ra count => Sys2Proof.Machine.doSari e rd ra count s
  | .ld e rd an width mode step_ => Sys2Proof.Machine.doLd e rd an width mode step_ s
  | .st e rs an width mode step_ => Sys2Proof.Machine.doSt e rs an width mode step_ s
  | .amov e an cd ra imm => Sys2Proof.Machine.doAmov e an cd ra imm s
  | .aget e rd an => Sys2Proof.Machine.doAget e rd an s
  | .cdset e k brev ra rb => Sys2Proof.Machine.doCdset e k brev ra rb s
  | .macS16 e aa ab stepA stepB v => Sys2Proof.Machine.doMacS16 e aa ab stepA stepB v s
  | .macW16 e aa ab stepA stepB v => Sys2Proof.Machine.doMacW16 e aa ab stepA stepB v s
  | .macS32 e aa ab stepA stepB v => Sys2Proof.Machine.doMacS32 e aa ab stepA stepB v s
  | .macW32 e aa ab stepA stepB v => Sys2Proof.Machine.doMacW32 e aa ab stepA stepB v s
  | .cmacS16 e aa ab stepA stepB v => Sys2Proof.Machine.doCmacS16 e aa ab stepA stepB v s
  | .bflyS16 e aa ab stepA stepB v => Sys2Proof.Machine.doBflyS16 e aa ab stepA stepB v s
  | .acst e an acc shift round sat width vec step_ => Sys2Proof.Machine.doAcst e an acc shift round sat width vec step_ s
  | .acmv e rd acc shift round sat width => Sys2Proof.Machine.doAcmv e rd acc shift round sat width s
  | .acld e ra acc shift => Sys2Proof.Machine.doAcld e ra acc shift s
  | .acsum e => Sys2Proof.Machine.doAcsum e s
  | .acclr e acc vec => Sys2Proof.Machine.doAcclr e acc vec s
  | .xld64 e rd ra => Sys2Proof.Machine.doXld64 e rd ra s
  | .xld128 e rd ra => Sys2Proof.Machine.doXld128 e rd ra s
  | .xst64 e ra rb => Sys2Proof.Machine.doXst64 e ra rb s
  | .xst128 e ra rb => Sys2Proof.Machine.doXst128 e ra rb s
  | .xcopyIn e rd ra rb => Sys2Proof.Machine.doXcopyIn e rd ra rb s
  | .xcopyOut e rd ra rb => Sys2Proof.Machine.doXcopyOut e rd ra rb s
  | .xwait e tag => Sys2Proof.Machine.doXwait e tag s
  | .xamoAdd e rd ra rb => Sys2Proof.Machine.doXamoAdd e rd ra rb s
  | .xamoSwp e rd ra rb => Sys2Proof.Machine.doXamoSwp e rd ra rb s
  | .xamoCas e rd ra rb => Sys2Proof.Machine.doXamoCas e rd ra rb s
  | .qpush e ra rb => Sys2Proof.Machine.doQpush e ra rb s
  | .qpushRel e ra rb => Sys2Proof.Machine.doQpushRel e ra rb s
  | .qpushBlk e rd ra rb => Sys2Proof.Machine.doQpushBlk e rd ra rb s
  | .qpushBlkRel e rd ra rb => Sys2Proof.Machine.doQpushBlkRel e rd ra rb s
  | .qpop e rd ra => Sys2Proof.Machine.doQpop e rd ra s
  | .qpopAcq e rd ra => Sys2Proof.Machine.doQpopAcq e rd ra s
  | .qpopBlk e rd ra rb => Sys2Proof.Machine.doQpopBlk e rd ra rb s
  | .qpopBlkAcq e rd ra rb => Sys2Proof.Machine.doQpopBlkAcq e rd ra rb s
  | .qmark e ra => Sys2Proof.Machine.doQmark e ra s
  | .qrewind e ra => Sys2Proof.Machine.doQrewind e ra s
  | .qrelease e ra => Sys2Proof.Machine.doQrelease e ra s
  | .qstat e rd ra => Sys2Proof.Machine.doQstat e rd ra s
  | .fenceLd e => Sys2Proof.Machine.doFenceLd e s
  | .fenceSt e => Sys2Proof.Machine.doFenceSt e s
  | .fenceAll e => Sys2Proof.Machine.doFenceAll e s
  | .fenceQ e => Sys2Proof.Machine.doFenceQ e s
  | .fenceEpoch e => Sys2Proof.Machine.doFenceEpoch e s
  | .fenceTick e ra => Sys2Proof.Machine.doFenceTick e ra s
  | .b e cond off => Sys2Proof.Machine.doB e cond off s
  | .call e off => Sys2Proof.Machine.doCall e off s
  | .jr e ra => Sys2Proof.Machine.doJr e ra s
  | .loop e ra off => Sys2Proof.Machine.doLoop e ra off s
  | .yield e => Sys2Proof.Machine.doYield e s
  | .wait e rd ra => Sys2Proof.Machine.doWait e rd ra s
  | .post e rd ra rb => Sys2Proof.Machine.doPost e rd ra rb s
  | .exit e => Sys2Proof.Machine.doExit e s
  | .trap e code => Sys2Proof.Machine.doTrap e code s
  | .bexpArm e width => Sys2Proof.Machine.doBexpArm e width s
  | .bexpRead e rd => Sys2Proof.Machine.doBexpRead e rd s
  | .bexpOff e => Sys2Proof.Machine.doBexpOff e s
  | .stclr e ra => Sys2Proof.Machine.doStclr e ra s
  | .strd e rd => Sys2Proof.Machine.doStrd e rd s
  | .illegalInstruction e word => Sys2Proof.Machine.doIllegalInstruction e word s
  | .externalAccessComplete e n => Sys2Proof.Machine.doExternalAccessComplete e n s
  | .xcopyComplete e n => Sys2Proof.Machine.doXcopyComplete e n s
  | .stolenCycle e => Sys2Proof.Machine.doStolenCycle e s
  | .contextWriteback e => Sys2Proof.Machine.doContextWriteback e s
  | .candidatePreload e => Sys2Proof.Machine.doCandidatePreload e s
  | .dispatch hearth => Sys2Proof.Machine.doDispatch hearth s
  | .latchRetry poster => Sys2Proof.Machine.doLatchRetry poster s
  | .deadlineMiss thread => Sys2Proof.Machine.doDeadlineMiss thread s
  | .create port rec_ => Sys2Proof.Machine.doCreate port rec_ s
  | .set port rec_ => Sys2Proof.Machine.doSet port rec_ s
  | .migrate port rec_ => Sys2Proof.Machine.doMigrate port rec_ s
  | .migrationMove thread => Sys2Proof.Machine.doMigrationMove thread s
  | .resume port rec_ => Sys2Proof.Machine.doResume port rec_ s
  | .remove port rec_ => Sys2Proof.Machine.doRemove port rec_ s
  | .clearStatistics port rec_ => Sys2Proof.Machine.doClearStatistics port rec_ s
  | .gaugeReading hearth g => Sys2Proof.Machine.doGaugeReading hearth g s
  | .deficitStanding engine => Sys2Proof.Machine.doDeficitStanding engine s
  | .avsDecision => Sys2Proof.Machine.doAvsDecision s
  | .avsReport mv => Sys2Proof.Machine.doAvsReport mv s
  | .avsFailure => Sys2Proof.Machine.doAvsFailure s
  | .queueReset q => Sys2Proof.Machine.doQueueReset q s
  | .cellAudit => Sys2Proof.Machine.doCellAudit s
  | .ledgerClose => Sys2Proof.Machine.doLedgerClose s
  | .ledgerReceived ledger frames good => Sys2Proof.Machine.doLedgerReceived ledger frames good s
  | .fetchReceived channel seq ts => Sys2Proof.Machine.doFetchReceived channel seq ts s
  | .fetchReplyReceived channel seq ts payload => Sys2Proof.Machine.doFetchReplyReceived channel seq ts payload s
  | .partnerLost => Sys2Proof.Machine.doPartnerLost s
  | .hello => Sys2Proof.Machine.doHello s
  | .joinAccept peer => Sys2Proof.Machine.doJoinAccept peer s
  | .joinChannelSnapshot channel snap => Sys2Proof.Machine.doJoinChannelSnapshot channel snap s
  | .twinWithdraw => Sys2Proof.Machine.doTwinWithdraw s
  | .twinStartJoin => Sys2Proof.Machine.doTwinStartJoin s
  | .twinLinkKeyWrite key bad => Sys2Proof.Machine.doTwinLinkKeyWrite key bad s
  | .keyTransportKeyWrite key bad => Sys2Proof.Machine.doKeyTransportKeyWrite key bad s
  | .evidenceBlockClose stream => Sys2Proof.Machine.doEvidenceBlockClose stream s
  | .compressorJobStart unit => Sys2Proof.Machine.doCompressorJobStart unit s
  | .compressorJobSuspend unit => Sys2Proof.Machine.doCompressorJobSuspend unit s
  | .compressorJobComplete unit => Sys2Proof.Machine.doCompressorJobComplete unit s
  | .outputPageGrant stream => Sys2Proof.Machine.doOutputPageGrant stream s
  | .unitAbort unit => Sys2Proof.Machine.doUnitAbort unit s
  | .checkJobStart k => Sys2Proof.Machine.doCheckJobStart k s
  | .checkJobComplete k => Sys2Proof.Machine.doCheckJobComplete k s
  | .sealJob k => Sys2Proof.Machine.doSealJob k s
  | .sealComplete k poison => Sys2Proof.Machine.doSealComplete k poison s
  | .nvmeWriteComplete seg off end_ => Sys2Proof.Machine.doNvmeWriteComplete seg off end_ s
  | .segmentCloseTime => Sys2Proof.Machine.doSegmentCloseTime s
  | .segmentHeaderWritten seg => Sys2Proof.Machine.doSegmentHeaderWritten seg s
  | .format => Sys2Proof.Machine.doFormat s
  | .closeSegment => Sys2Proof.Machine.doCloseSegment s
  | .adopt => Sys2Proof.Machine.doAdopt s
  | .lineShellEnable on => Sys2Proof.Machine.doLineShellEnable on s
  | .lineShellWakeComplete => Sys2Proof.Machine.doLineShellWakeComplete s
  | .syncConvEdge rising long dt => Sys2Proof.Machine.doSyncConvEdge rising long dt s
  | .syncCommand mask tick => Sys2Proof.Machine.doSyncCommand mask tick s
  | .syncReset => Sys2Proof.Machine.doSyncReset s
  | .pllUnlock => Sys2Proof.Machine.doPllUnlock s
  | .pllRelock => Sys2Proof.Machine.doPllRelock s
  | .recalibrateNow port => Sys2Proof.Machine.doRecalibrateNow port s
  | .calibrationComplete port => Sys2Proof.Machine.doCalibrationComplete port s
  | .calDrift temp => Sys2Proof.Machine.doCalDrift temp s
  | .usdoRequest bus write idx sub data facts => Sys2Proof.Machine.doUsdoRequest bus write idx sub data facts s
  | .nmtStart bus => Sys2Proof.Machine.doNmtStart bus s
  | .nmtStop bus => Sys2Proof.Machine.doNmtStop bus s
  | .nmtPreOperational bus => Sys2Proof.Machine.doNmtPreOperational bus s
  | .nmtResetNode bus => Sys2Proof.Machine.doNmtResetNode bus s
  | .nmtResetCommunication bus => Sys2Proof.Machine.doNmtResetCommunication bus s
  | .sync bus => Sys2Proof.Machine.doSync bus s
  | .rpdo bus n data facts => Sys2Proof.Machine.doRpdo bus n data facts s
  | .tpdoEventTimer n => Sys2Proof.Machine.doTpdoEventTimer n s
  | .producerHeartbeat => Sys2Proof.Machine.doProducerHeartbeat s
  | .consumerHeartbeatTimeout bus entry => Sys2Proof.Machine.doConsumerHeartbeatTimeout bus entry s
  | .busOff bus back => Sys2Proof.Machine.doBusOff bus back s
  | .errorCountClear => Sys2Proof.Machine.doErrorCountClear s
  | .read head staged items => Sys2Proof.Machine.doRead head staged items s
  | .write head items facts => Sys2Proof.Machine.doWrite head items facts s
  | .blockBegin head idx sub item len crc => Sys2Proof.Machine.doBlockBegin head idx sub item len crc s
  | .blockData head off data => Sys2Proof.Machine.doBlockData head off data s
  | .blockEnd head facts => Sys2Proof.Machine.doBlockEnd head facts s
  | .blockRead head idx sub item off => Sys2Proof.Machine.doBlockRead head idx sub item off s
  | .keyLoad head slot key bad => Sys2Proof.Machine.doKeyLoad head slot key bad s
  | .blockTimeout session => Sys2Proof.Machine.doBlockTimeout session s
  | .goaKeyWrite slot key bad => Sys2Proof.Machine.doGoaKeyWrite slot key bad s
  | .faultReport cls code inst detail => Sys2Proof.Machine.doFaultReport cls code inst detail s
  | .blockResetEnd kind inst => Sys2Proof.Machine.doBlockResetEnd kind inst s
  | .settleTimeExpiry kind inst => Sys2Proof.Machine.doSettleTimeExpiry kind inst s
  | .coalesceWindowClose seq => Sys2Proof.Machine.doCoalesceWindowClose seq s
  | .heartbeatTimeout => Sys2Proof.Machine.doHeartbeatTimeout s
  | .watchdog => Sys2Proof.Machine.doWatchdog s
  | .faultNRelease => Sys2Proof.Machine.doFaultNRelease s
  | .railOutOfRange rail => Sys2Proof.Machine.doRailOutOfRange rail s
  | .thermalWarning sensor temp => Sys2Proof.Machine.doThermalWarning sensor temp s
  | .overTemperature sensor temp => Sys2Proof.Machine.doOverTemperature sensor temp s
  | .resetNLow => Sys2Proof.Machine.doResetNLow s
  | .coldStart straps world => Sys2Proof.Machine.doColdStart straps world s
  | .ptpAcquireTimeout => Sys2Proof.Machine.doPtpAcquireTimeout s
  | .proceed => Sys2Proof.Machine.doProceed s
  | .warm => Sys2Proof.Machine.doWarm s
  | .warmSelftest => Sys2Proof.Machine.doWarmSelftest s
  | .cold => Sys2Proof.Machine.doCold s
  | .rekindle => Sys2Proof.Machine.doRekindle s
  | .rekindleRecovery => Sys2Proof.Machine.doRekindleRecovery s
  | .warmStart world => Sys2Proof.Machine.doWarmStart world s
  | .startStepTimeout step_ => Sys2Proof.Machine.doStartStepTimeout step_ s
  | .firmwareLoadData data => Sys2Proof.Machine.doFirmwareLoadData data s
  | .verifyAndCommit signed => Sys2Proof.Machine.doVerifyAndCommit signed s
  | .discard => Sys2Proof.Machine.doDiscard s
  | .raiseRollbackIndex => Sys2Proof.Machine.doRaiseRollbackIndex s
  | .firmwareLoadTimeout => Sys2Proof.Machine.doFirmwareLoadTimeout s
  | .delayReqTx slot => Sys2Proof.Machine.doDelayReqTx slot s
  | .joinStateCopyComplete copy => Sys2Proof.Machine.doJoinStateCopyComplete copy s
  | .thermalWarningRearm temps => Sys2Proof.Machine.doThermalWarningRearm temps s
  | .vddIo18Removed => Sys2Proof.Machine.doVddIo18Removed s
  | .formatComplete => Sys2Proof.Machine.doFormatComplete s
  | .flashWriteDone => Sys2Proof.Machine.doFlashWriteDone s
  | .mgmtLinkChange speed => Sys2Proof.Machine.doMgmtLinkChange speed s
  | .canErrorPassive bus passive => Sys2Proof.Machine.doCanErrorPassive bus passive s

end Sys2Proof.Machine
end

