-- ==== Sys2Proof/WellFormed.lean ====
section
/-! DEFINITION. Well-formed commands: every operand that names an item names one that the FULL tier has (Tables 1.2 to 1.5,
3.1, 9.2, 15.3), and every byte string holds no more than its length. -/
namespace Sys2Proof
open Sys2Proof.Machine

/-- A number below a bound. -/
def within (bound n : Nat) : Bool := decide (n < bound)
/-- An engine, 0 to 191. -/
def engineNo (n : Nat) : Bool := within 192 n
/-- A hearth, 0 to 11. -/
def hearthNo (n : Nat) : Bool := within 12 n
/-- An Ethernet port, 0 to 31. -/
def portNo (n : Nat) : Bool := within 32 n
/-- An Ethernet priority, 0 to 7. -/
def prioNo (n : Nat) : Bool := within 8 n
/-- A PTP slot, CAN bus or key slot, 0 or 1. -/
def slotNo (n : Nat) : Bool := within 2 n
/-- A capture input, 0 to 4. -/
def inputNo (n : Nat) : Bool := within 5 n
/-- A lane group, 0 to 7. -/
def laneGroupNo (n : Nat) : Bool := within 8 n
/-- A PRP pair, 0 to 15. -/
def pairNo (n : Nat) : Bool := within 16 n
/-- A flow entry, 0 to 262,143. -/
def flowNo (n : Nat) : Bool := within 262144 n
/-- A flue stop, 0 to 23. -/
def stopNo (n : Nat) : Bool := within 24 n
/-- A thread, 0 to 131,071. -/
def threadNo (n : Nat) : Bool := within 131072 n
/-- A channel or an evidence stream, 0 to 65,535. -/
def channelNo (n : Nat) : Bool := within 65536 n
/-- A compressor, 0 to 3. -/
def compressorNo (n : Nat) : Bool := within 4 n
/-- A queue, 0 to 262,143. -/
def queueNo (n : Nat) : Bool := within 262144 n
/-- An ordered-accumulate context, 0 to 8,703. -/
def contextNo (n : Nat) : Bool := within 8704 n
/-- An endpoint, 0 to 1,048,575. -/
def endpointNo (n : Nat) : Bool := within 1048576 n
/-- A temperature sensor, 0 to 5. -/
def sensorNo (n : Nat) : Bool := within 6 n
/-- A supply rail, 0 to 9. -/
def railNo (n : Nat) : Bool := within 10 n
/-- A line port, 0 to 63. -/
def lineNo (n : Nat) : Bool := within 64 n
/-- A trigger unit or a check-value channel, 0 to 15. -/
def sixteenNo (n : Nat) : Bool := within 16 n
/-- An RPDO or TPDO, or a management link speed, 0 to 3. -/
def pdoNo (n : Nat) : Bool := within 4 n
/-- A fault class, 0 to 4. -/
def classNo (n : Nat) : Bool := within 5 n
/-- A session, not 0. -/
def sessionNo (n : Nat) : Bool := within 4294967296 n && decide (n ≠ 0)
/-- The port of a Stoker slice, or none for the dictionary. -/
def portOption (p : Option Nat) : Bool := p.all hearthNo

/-- A byte string holds no more than its length. -/
def Bytes.wf (b : Bytes) : Bool := decide (b.val < 2 ^ (8 * b.len))
/-- A Stoker command record fits its fields (Table 8.6). -/
def Machine.StokerRec.wf (r : StokerRec) : Bool :=
  within 4294967296 r.cost && within 4294967296 r.entryPc && within 65536 r.lmWindow && within 65536 r.mask && within 256 r.flags
    && within 256 r.prio && within 256 r.target && within 4294967296 r.relDl && within 256 r.waitMask && within 4294967296 r.thread
/-- A setup record fits its header (Table 4.4). -/
def Machine.SetupRec.wf (r : SetupRec) : Bool :=
  within (2 ^ 32) r.seq && within 256 r.kind && within (2 ^ 32) r.subject && within (2 ^ 64) r.tick && r.body.wf
/-- A Gencel Object Access header fits its fields (Table 14.8). -/
def Machine.GoaHead.wf (h : GoaHead) : Bool := within (2 ^ 64) h.seq && within (2 ^ 32) h.session && within (2 ^ 32) h.keyId
/-- Straps fit their pins (Table 16.4). -/
def Machine.Straps.wf (s : Straps) : Bool :=
  within 128 s.node && within 4 s.tier && within 4 s.boot && within 4 s.twin && within 4 s.line

/-- Whether a command is well formed. -/
def Instr.wellFormed (i : Instr) : Bool :=
  match i with
  | .tickStart => true
  | .bankSeal => true
  | .oaRoundClose n _ => contextNo n
  | .mediaLock => true
  | .suspectClearTimeExpiry slot => slotNo slot
  | .slotLost slot => slotNo slot
  | .domainSwitchSlew slot => slotNo slot
  | .domainSwitchStep slot => slotNo slot
  | .domainSwitchHoldover => true
  | .domainSwitchClearSuspect slot => slotNo slot
  | .triggerFire k => sixteenNo k
  | .triggerPulseEnd k => sixteenNo k
  | .ppsOutPulse => true
  | .ppsOutPulseEnd => true
  | .timeInEdge input _ _ => inputNo input
  | .captureRecordsRead input => inputNo input
  | .laneGroupModeWrite group _ => laneGroupNo group
  | .adminUpWrite port _ => portNo port
  | .linkStateChange port _ => portNo port
  | .frameReceived port _ frame => portNo port && frame.data.wf
  | .pauseExpiry port prio => portNo port && prioNo prio
  | .damperBreak port prio => portNo port && prioNo prio
  | .damperIgnoreEnd port prio => portNo port && prioNo prio
  | .pauseTxRefresh port prio => portNo port && prioNo prio
  | .egressFrameTx port => portNo port
  | .lifeCheckTx pair => pairNo pair
  | .prpNodeForget => true
  | .flowKeyWrite entry _ => flowNo entry
  | .flueCreditMismatch stop => stopNo stop
  | .setupRecordWrite data _ => data.wf
  | .endpointRegister rec_ => rec_.wf
  | .endpointRemove rec_ => rec_.wf
  | .channelOpen rec_ => rec_.wf
  | .channelClose rec_ => rec_.wf
  | .channelModify rec_ => rec_.wf
  | .groupJoin rec_ => rec_.wf
  | .groupLeave rec_ => rec_.wf
  | .keyUpdate rec_ => rec_.wf
  | .endpointUpdate rec_ => rec_.wf
  | .previousKeyExpiry endpoint => endpointNo endpoint
  | .setupResultsRead => true
  | .frameWork channel _ => channelNo channel
  | .epochCommit _ _ => true
  | .epochAbort => true
  | .objectWrite _ idx sub_ _ data _ => within 65536 idx && within 256 sub_ && data.wf
  | .add e _ _ _ => engineNo e
  | .sub e _ _ _ => engineNo e
  | .addS e _ _ _ => engineNo e
  | .subS e _ _ _ => engineNo e
  | .and e _ _ _ => engineNo e
  | .or e _ _ _ => engineNo e
  | .xor e _ _ _ => engineNo e
  | .shl e _ _ _ => engineNo e
  | .shr e _ _ _ => engineNo e
  | .sar e _ _ _ => engineNo e
  | .mul e _ _ _ => engineNo e
  | .mulh e _ _ _ => engineNo e
  | .div e _ _ _ => engineNo e
  | .cmp e _ _ => engineNo e
  | .min e _ _ _ => engineNo e
  | .max e _ _ _ => engineNo e
  | .clz e _ _ => engineNo e
  | .nrm e _ _ => engineNo e
  | .addi e _ _ _ => engineNo e
  | .andi e _ _ _ => engineNo e
  | .ori e _ _ _ => engineNo e
  | .xori e _ _ _ => engineNo e
  | .lui e _ _ => engineNo e
  | .cmpi e _ _ => engineNo e
  | .shli e _ _ _ => engineNo e
  | .shri e _ _ _ => engineNo e
  | .sari e _ _ _ => engineNo e
  | .ld e _ _ _ _ _ => engineNo e
  | .st e _ _ _ _ _ => engineNo e
  | .amov e _ _ _ _ => engineNo e
  | .aget e _ _ => engineNo e
  | .cdset e _ _ _ _ => engineNo e
  | .macS16 e _ _ _ _ _ => engineNo e
  | .macW16 e _ _ _ _ _ => engineNo e
  | .macS32 e _ _ _ _ _ => engineNo e
  | .macW32 e _ _ _ _ _ => engineNo e
  | .cmacS16 e _ _ _ _ _ => engineNo e
  | .bflyS16 e _ _ _ _ _ => engineNo e
  | .acst e _ _ _ _ _ _ _ _ => engineNo e
  | .acmv e _ _ _ _ _ _ => engineNo e
  | .acld e _ _ _ => engineNo e
  | .acsum e => engineNo e
  | .acclr e _ _ => engineNo e
  | .xld64 e _ _ => engineNo e
  | .xld128 e _ _ => engineNo e
  | .xst64 e _ _ => engineNo e
  | .xst128 e _ _ => engineNo e
  | .xcopyIn e _ _ _ => engineNo e
  | .xcopyOut e _ _ _ => engineNo e
  | .xwait e _ => engineNo e
  | .xamoAdd e _ _ _ => engineNo e
  | .xamoSwp e _ _ _ => engineNo e
  | .xamoCas e _ _ _ => engineNo e
  | .qpush e _ _ => engineNo e
  | .qpushRel e _ _ => engineNo e
  | .qpushBlk e _ _ _ => engineNo e
  | .qpushBlkRel e _ _ _ => engineNo e
  | .qpop e _ _ => engineNo e
  | .qpopAcq e _ _ => engineNo e
  | .qpopBlk e _ _ _ => engineNo e
  | .qpopBlkAcq e _ _ _ => engineNo e
  | .qmark e _ => engineNo e
  | .qrewind e _ => engineNo e
  | .qrelease e _ => engineNo e
  | .qstat e _ _ => engineNo e
  | .fenceLd e => engineNo e
  | .fenceSt e => engineNo e
  | .fenceAll e => engineNo e
  | .fenceQ e => engineNo e
  | .fenceEpoch e => engineNo e
  | .fenceTick e _ => engineNo e
  | .b e _ _ => engineNo e
  | .call e _ => engineNo e
  | .jr e _ => engineNo e
  | .loop e _ _ => engineNo e
  | .yield e => engineNo e
  | .wait e _ _ => engineNo e
  | .post e _ _ _ => engineNo e
  | .exit e => engineNo e
  | .trap e _ => engineNo e
  | .bexpArm e _ => engineNo e
  | .bexpRead e _ => engineNo e
  | .bexpOff e => engineNo e
  | .stclr e _ => engineNo e
  | .strd e _ => engineNo e
  | .illegalInstruction e _ => engineNo e
  | .externalAccessComplete e _ => engineNo e
  | .xcopyComplete e _ => engineNo e
  | .stolenCycle e => engineNo e
  | .contextWriteback e => engineNo e
  | .candidatePreload e => engineNo e
  | .dispatch hearth => hearthNo hearth
  | .latchRetry _ => true
  | .deadlineMiss thread => threadNo thread
  | .create port rec_ => portOption port && rec_.wf
  | .set port rec_ => portOption port && rec_.wf
  | .migrate port rec_ => portOption port && rec_.wf
  | .migrationMove thread => threadNo thread
  | .resume port rec_ => portOption port && rec_.wf
  | .remove port rec_ => portOption port && rec_.wf
  | .clearStatistics port rec_ => portOption port && rec_.wf
  | .gaugeReading hearth _ => hearthNo hearth
  | .deficitStanding engine => engineNo engine
  | .avsDecision => true
  | .avsReport _ => true
  | .avsFailure => true
  | .queueReset q => queueNo q
  | .cellAudit => true
  | .ledgerClose => true
  | .ledgerReceived _ _ _ => true
  | .fetchReceived channel _ _ => channelNo channel
  | .fetchReplyReceived channel _ _ payload => channelNo channel && payload.all Bytes.wf
  | .partnerLost => true
  | .hello => true
  | .joinAccept _ => true
  | .joinChannelSnapshot channel _ => channelNo channel
  | .twinWithdraw => true
  | .twinStartJoin => true
  | .twinLinkKeyWrite _ _ => true
  | .keyTransportKeyWrite _ _ => true
  | .evidenceBlockClose stream => channelNo stream
  | .compressorJobStart unit => compressorNo unit
  | .compressorJobSuspend unit => compressorNo unit
  | .compressorJobComplete unit => compressorNo unit
  | .outputPageGrant stream => channelNo stream
  | .unitAbort unit => compressorNo unit
  | .checkJobStart k => sixteenNo k
  | .checkJobComplete k => sixteenNo k
  | .sealJob k => sixteenNo k
  | .sealComplete k _ => sixteenNo k
  | .nvmeWriteComplete _ _ _ => true
  | .segmentCloseTime => true
  | .segmentHeaderWritten _ => true
  | .format => true
  | .closeSegment => true
  | .adopt => true
  | .lineShellEnable _ => true
  | .lineShellWakeComplete => true
  | .syncConvEdge _ _ _ => true
  | .syncCommand _ _ => true
  | .syncReset => true
  | .pllUnlock => true
  | .pllRelock => true
  | .recalibrateNow port => lineNo port
  | .calibrationComplete port => lineNo port
  | .calDrift _ => true
  | .usdoRequest bus _ idx sub_ data _ => slotNo bus && within 65536 idx && within 256 sub_ && data.wf
  | .nmtStart bus => slotNo bus
  | .nmtStop bus => slotNo bus
  | .nmtPreOperational bus => slotNo bus
  | .nmtResetNode bus => slotNo bus
  | .nmtResetCommunication bus => slotNo bus
  | .sync bus => slotNo bus
  | .rpdo bus n data _ => slotNo bus && pdoNo n && data.wf
  | .tpdoEventTimer n => pdoNo n
  | .producerHeartbeat => true
  | .consumerHeartbeatTimeout bus entry => slotNo bus && slotNo entry
  | .busOff bus _ => slotNo bus
  | .errorCountClear => true
  | .read head _ items => head.wf && items.all (fun i => i.data.wf)
  | .write head items _ => head.wf && items.all (fun i => i.data.wf)
  | .blockBegin head idx sub_ _ _ _ => head.wf && within 65536 idx && within 256 sub_
  | .blockData head _ data => head.wf && data.wf
  | .blockEnd head _ => head.wf
  | .blockRead head idx sub_ _ _ => head.wf && within 65536 idx && within 256 sub_
  | .keyLoad head slot _ _ => head.wf && slotNo slot
  | .blockTimeout session => sessionNo session
  | .goaKeyWrite slot _ _ => slotNo slot
  | .faultReport cls code inst detail => classNo cls && within 65536 code && within 16777216 inst && within 4294967296 detail
  | .blockResetEnd kind inst => blockReal (kind * 256 + inst)
  | .settleTimeExpiry kind inst => blockReal (kind * 256 + inst)
  | .coalesceWindowClose _ => true
  | .heartbeatTimeout => true
  | .watchdog => true
  | .faultNRelease => true
  | .railOutOfRange rail => railNo rail
  | .thermalWarning sensor _ => sensorNo sensor
  | .overTemperature sensor _ => sensorNo sensor
  | .resetNLow => true
  | .coldStart straps w => straps.wf && decide (w.drams.length = 4) && w.drams.all (fun n => decide (n ≤ 64))
  | .ptpAcquireTimeout => true
  | .proceed => true
  | .warm => true
  | .warmSelftest => true
  | .cold => true
  | .rekindle => true
  | .rekindleRecovery => true
  | .warmStart _ => true
  | .startStepTimeout _ => true
  | .firmwareLoadData data => data.wf
  | .verifyAndCommit _ => true
  | .discard => true
  | .raiseRollbackIndex => true
  | .firmwareLoadTimeout => true
  | .delayReqTx slot => slotNo slot
  | .joinStateCopyComplete _ => true
  | .thermalWarningRearm _ => true
  | .vddIo18Removed => true
  | .formatComplete => true
  | .flashWriteDone => true
  | .mgmtLinkChange speed => pdoNo speed
  | .canErrorPassive bus _ => slotNo bus

end Sys2Proof
end

