-- ==== Sys2Proof/Safety.lean ====
section
/-! DEFINITION. What counts as a safe run of the block, in the terms that the statements use: addressed memory in canonical
form, every waiting command well formed, and no stop; and the words in which statements speak of engines. -/
namespace Sys2Proof.Machine

/-- A command completes: it answers a next state. -/
def Completes (i : Instr) (s : State) : Prop := ∃ t, exec i s = .next t

/-- The addressed memories are in canonical form. -/
def State.memWf (s : State) : Prop := Memory.wf s.sys.mem = true

/-- Every waiting command is well formed. -/
def State.queueWf (s : State) : Bool := s.pending.all Instr.wellFormed

/-- A state in which a run is safe: canonical memory and well-formed commands. -/
def State.Safe (s : State) : Prop := s.memWf ∧ s.queueWf = true

/-- The state with its device changed, everything else as it is. -/
def State.onDev (f : Dev → Dev) (s : State) : State := { s with sys := Sys.onDev f s.sys }

/-- The device state lets a write of the row's object through (R309, R325): RESET_N high, no quench by the supervisor's loss,
and a start far enough on. -/
def Served (d : Dev) (r : Row) : Prop := silent d = false ∧ stateRefuses d r.idx r.sub true = false

/-- The same of a read. -/
def ServedRead (d : Dev) (r : Row) : Prop := silent d = false ∧ stateRefuses d r.idx r.sub false = false

/-- Engine e runs thread t, and u is the system once the outstanding operations that the instruction needs have been
performed (R115): the state itself where none is outstanding. -/
def Runs (s : State) (e t : Nat) (needs : XOp → Bool) (u : Sys) : Prop :=
  threadAt s.sys.dev e = some t ∧ performAll (fun o => decide (o.thread = t) && needs o) e s.sys = some u

/-- Where an instruction of engine e ends: the system u with the context c in use, its PC moved on. -/
def State.ends (s : State) (u : Sys) (e : Nat) (c : Ctx) : State := { s with sys := putCtx u e c.advance }

/-- Where a taken branch of engine e ends: PC at the target, every active loop ended. -/
def State.branches (s : State) (u : Sys) (e : Nat) (c : Ctx) (target : BitVec 32) : State :=
  { s with sys := putCtx u e (c.jump target) }

/-- Where an exception of engine e ends (R140). -/
def State.excepts (s : State) (u : Sys) (e t word code : Nat) (detail : Option Nat) : State :=
  { s with sys := { u with dev := takeException u.dev e t word code detail } }

end Sys2Proof.Machine

namespace Sys2Proof
/-- The commands that may read and write the memories that engines address: engine instructions, completions of what engines
hold in flight, dispatches (which settle them), and the losses of supplies that clear them. -/
def Instr.reachesMemory : Instr → Bool
  | .add _ _ _ _ => true
  | .sub _ _ _ _ => true
  | .addS _ _ _ _ => true
  | .subS _ _ _ _ => true
  | .and _ _ _ _ => true
  | .or _ _ _ _ => true
  | .xor _ _ _ _ => true
  | .shl _ _ _ _ => true
  | .shr _ _ _ _ => true
  | .sar _ _ _ _ => true
  | .mul _ _ _ _ => true
  | .mulh _ _ _ _ => true
  | .div _ _ _ _ => true
  | .cmp _ _ _ => true
  | .min _ _ _ _ => true
  | .max _ _ _ _ => true
  | .clz _ _ _ => true
  | .nrm _ _ _ => true
  | .addi _ _ _ _ => true
  | .andi _ _ _ _ => true
  | .ori _ _ _ _ => true
  | .xori _ _ _ _ => true
  | .lui _ _ _ => true
  | .cmpi _ _ _ => true
  | .shli _ _ _ _ => true
  | .shri _ _ _ _ => true
  | .sari _ _ _ _ => true
  | .ld _ _ _ _ _ _ => true
  | .st _ _ _ _ _ _ => true
  | .amov _ _ _ _ _ => true
  | .aget _ _ _ => true
  | .cdset _ _ _ _ _ => true
  | .macS16 _ _ _ _ _ _ => true
  | .macW16 _ _ _ _ _ _ => true
  | .macS32 _ _ _ _ _ _ => true
  | .macW32 _ _ _ _ _ _ => true
  | .cmacS16 _ _ _ _ _ _ => true
  | .bflyS16 _ _ _ _ _ _ => true
  | .acst _ _ _ _ _ _ _ _ _ => true
  | .acmv _ _ _ _ _ _ _ => true
  | .acld _ _ _ _ => true
  | .acsum _ => true
  | .acclr _ _ _ => true
  | .xld64 _ _ _ => true
  | .xld128 _ _ _ => true
  | .xst64 _ _ _ => true
  | .xst128 _ _ _ => true
  | .xcopyIn _ _ _ _ => true
  | .xcopyOut _ _ _ _ => true
  | .xwait _ _ => true
  | .xamoAdd _ _ _ _ => true
  | .xamoSwp _ _ _ _ => true
  | .xamoCas _ _ _ _ => true
  | .qpush _ _ _ => true
  | .qpushRel _ _ _ => true
  | .qpushBlk _ _ _ _ => true
  | .qpushBlkRel _ _ _ _ => true
  | .qpop _ _ _ => true
  | .qpopAcq _ _ _ => true
  | .qpopBlk _ _ _ _ => true
  | .qpopBlkAcq _ _ _ _ => true
  | .qmark _ _ => true
  | .qrewind _ _ => true
  | .qrelease _ _ => true
  | .qstat _ _ _ => true
  | .fenceLd _ => true
  | .fenceSt _ => true
  | .fenceAll _ => true
  | .fenceQ _ => true
  | .fenceEpoch _ => true
  | .fenceTick _ _ => true
  | .b _ _ _ => true
  | .call _ _ => true
  | .jr _ _ => true
  | .loop _ _ _ => true
  | .yield _ => true
  | .wait _ _ _ => true
  | .post _ _ _ _ => true
  | .exit _ => true
  | .trap _ _ => true
  | .bexpArm _ _ => true
  | .bexpRead _ _ => true
  | .bexpOff _ => true
  | .stclr _ _ => true
  | .strd _ _ => true
  | .illegalInstruction _ _ => true
  | .externalAccessComplete _ _ => true
  | .xcopyComplete _ _ => true
  | .stolenCycle _ => true
  | .dispatch _ => true
  | .coldStart _ _ => true
  | .vddIo18Removed => true
  | _ => false
end Sys2Proof
end

