-- ==== Sys2Proof/Certificates/Slice0/Obligations.lean ====
section
/-! DEFINITION. The statements for the provers, family by family. Each docstring names the rule of spec/ that it formalises,
or says what it rests on. -/
open Sys2Proof Sys2Proof.Machine

/-- One step takes the command at the front of the queue and runs it with the queue's rest (the model's own interface, log
entry 1). -/
def Obligations.StepRunsFrontCommand : Prop :=
  ∀ (c : Instr) (rest : List Instr) (s : State),
    step { s with pending := c :: rest } = exec c { s with pending := rest }

/-- With no command waiting a step changes nothing: DESIGN CHOICE, log entry 2. -/
def Obligations.EmptyQueueIdles : Prop :=
  ∀ (s : State), s.pending = [] → step s = .next s

/-- No command stops the block, and none touches the queue (R135: "No encoding has an undefined effect"; log entry 1). -/
def Obligations.CommandsCompleteAndLeaveQueue : Prop :=
  ∀ (i : Instr) (s : State), ∃ u : Sys, exec i s = .next { s with sys := u }

/-- The canonical form of memory (log entry 3) is kept by every step, whatever command runs. -/
def Obligations.MemoryStaysCanonical : Prop :=
  ∀ (s t : State), s.memWf → step s = .next t → t.memWf

/-- The base case of MemoryStaysCanonical. -/
def Obligations.MemoryCanonicalAtReset : Prop :=
  State.reset.memWf ∧ State.reset.sys.mem = Mem.reset ∧ State.reset.pending = []

/-- Every byte of addressed memory is unchanged by a command that is not one of those that reach it. -/
def Obligations.OnlyEnginesReachMemory : Prop :=
  ∀ (i : Instr) (s : State), i.reachesMemory = false →
    ∃ t, exec i s = .next t ∧ t.sys.mem = s.sys.mem ∧ t.pending = s.pending

/-- What reset leaves (R313, R314, R317). -/
def Obligations.ResetState : Prop :=
  let d := State.reset.sys.dev
  d.start.resetLow = true ∧ d.start.ready = false ∧ d.dict.epoch = 0 ∧ d.dict.obj = [] ∧ d.chans = [] ∧ d.groups = []
    ∧ d.queues = [] ∧ d.engines = [] ∧ d.stk.tcbs = [] ∧ d.out = [] ∧ State.reset.pending = []

/-- Wrapping and bitwise instructions (R130, R134): the value and the poison of rd; setReg drops a write of G0 (R117). -/
def Obligations.ScalarResults : Prop :=
  ∀ (s : State) (e t : Nat) (rd ra rb : BitVec 5) (u : Sys), Runs s e t (needRegs [rd, ra, rb]) u →
    let c := ctxAt u e
    let x := c.reg ra
    let y := c.reg rb
    let done := fun (v : Word) => s.ends u e (c.setReg rd v (c.psn ra || c.psn rb))
    exec (.add e rd ra rb) s = .next (done (x + y)) ∧
    exec (.sub e rd ra rb) s = .next (done (x - y)) ∧
    exec (.and e rd ra rb) s = .next (done (x &&& y)) ∧
    exec (.or e rd ra rb) s = .next (done (x ||| y)) ∧
    exec (.xor e rd ra rb) s = .next (done (x ^^^ y)) ∧
    exec (.mul e rd ra rb) s = .next (done (BitVec.ofInt 64 (x.toInt * y.toInt))) ∧
    exec (.mulh e rd ra rb) s = .next (done (BitVec.ofInt 64 ((x.toInt * y.toInt) / 2 ^ 64))) ∧
    exec (.min e rd ra rb) s = .next (done (if x.slt y then x else y)) ∧
    exec (.max e rd ra rb) s = .next (done (if x.slt y then y else x))

/-- Immediate forms (Table 6.9): imm sign-extended for ADDI, zero-extended for the bitwise instructions. -/
def Obligations.ImmediateResults : Prop :=
  ∀ (s : State) (e t : Nat) (rd ra : BitVec 5) (imm : BitVec 16) (count : BitVec 6) (u : Sys),
    (Runs s e t (needRegs [rd, ra]) u →
      let c := ctxAt u e
      let x := c.reg ra
      let done := fun (v : Word) => s.ends u e (c.setReg rd v (c.psn ra))
      exec (.addi e rd ra imm) s = .next (done (x + imm.signExtend 64)) ∧
      exec (.andi e rd ra imm) s = .next (done (x &&& imm.zeroExtend 64)) ∧
      exec (.ori e rd ra imm) s = .next (done (x ||| imm.zeroExtend 64)) ∧
      exec (.xori e rd ra imm) s = .next (done (x ^^^ imm.zeroExtend 64)) ∧
      exec (.shli e rd ra count) s = .next (done (x <<< count.toNat)) ∧
      exec (.shri e rd ra count) s = .next (done (x >>> count.toNat)) ∧
      exec (.sari e rd ra count) s = .next (done (x.sshiftRight count.toNat))) ∧
    (Runs s e t (needRegs [rd]) u →
      exec (.lui e rd imm) s = .next (s.ends u e ((ctxAt u e).setReg rd (BitVec.ofInt 64 (imm.toInt * 65536)) false)))

/-- R130: saturation and division, with SAT where it says; poison of rd as R132 has it. -/
def Obligations.SaturatingArithmetic : Prop :=
  ∀ (s : State) (e t : Nat) (rd ra rb : BitVec 5) (u : Sys), Runs s e t (needRegs [rd, ra, rb]) u →
    let c := ctxAt u e
    let x := (c.reg ra).toInt
    let y := (c.reg rb).toInt
    let done := fun (v : Int) (sat : Bool) =>
      s.ends u e ((c.setReg rd (BitVec.ofInt 64 v) (c.psn ra || c.psn rb)).stick St.sat sat)
    let clip := fun (v : Int) => max (-(2 ^ 63)) (min (2 ^ 63 - 1) v)
    exec (.addS e rd ra rb) s = .next (done (clip (x + y)) (decide (x + y < -(2 ^ 63) ∨ 2 ^ 63 ≤ x + y))) ∧
    exec (.subS e rd ra rb) s = .next (done (clip (x - y)) (decide (x - y < -(2 ^ 63) ∨ 2 ^ 63 ≤ x - y))) ∧
    exec (.div e rd ra rb) s = .next (
      if y = 0 then done (if 0 ≤ x then 2 ^ 63 - 1 else -(2 ^ 63)) true
      else if x = -(2 ^ 63) ∧ y = -1 then done (2 ^ 63 - 1) true
      else done (x.tdiv y) false)

/-- CLZ: leading zeros; NRM: redundant sign bits (Table 6.9), by what such a count means; a write of G0 is ignored (R117). -/
def Obligations.CountInstructions : Prop :=
  ∀ (s : State) (e t : Nat) (rd ra : BitVec 5) (u : Sys), Runs s e t (needRegs [rd, ra]) u →
    let c := ctxAt u e
    let x := c.reg ra
    (∃ n : Nat, n ≤ 64 ∧ x.toNat < 2 ^ (64 - n) ∧ (n < 64 → 2 ^ (63 - n) ≤ x.toNat) ∧
      exec (.clz e rd ra) s = .next (s.ends u e (c.setReg rd (BitVec.ofNat 64 n) (c.psn ra)))) ∧
    (∃ m : Nat, m ≤ 63 ∧ -(2 ^ (63 - m) : Int) ≤ x.toInt ∧ x.toInt < (2 ^ (63 - m) : Int) ∧
      (m < 63 → ¬ (-(2 ^ (62 - m) : Int) ≤ x.toInt ∧ x.toInt < (2 ^ (62 - m) : Int))) ∧
      exec (.nrm e rd ra) s = .next (s.ends u e (c.setReg rd (BitVec.ofNat 64 m) (c.psn ra))))

/-- SHL, SHR, SAR (Table 6.9), and the poisoned shift register of Table 6.7. -/
def Obligations.RegisterShifts : Prop :=
  ∀ (s : State) (e t : Nat) (rd ra rb : BitVec 5) (u : Sys), Runs s e t (needRegs [rd, ra, rb]) u →
    let c := ctxAt u e
    let n := (c.reg rb).toNat % 64
    let done := fun (v : Word) => s.ends u e (c.setReg rd v (c.psn ra))
    (c.psn rb = false →
      exec (.shl e rd ra rb) s = .next (done (c.reg ra <<< n)) ∧
      exec (.shr e rd ra rb) s = .next (done (c.reg ra >>> n)) ∧
      exec (.sar e rd ra rb) s = .next (done ((c.reg ra).sshiftRight n))) ∧
    (c.psn rb = true →
      exec (.shl e rd ra rb) s = .next (s.excepts u e t (wordR 0 rd ra rb 7) exPoison none) ∧
      exec (.shr e rd ra rb) s = .next (s.excepts u e t (wordR 0 rd ra rb 8) exPoison none) ∧
      exec (.sar e rd ra rb) s = .next (s.excepts u e t (wordR 0 rd ra rb 9) exPoison none))

/-- CMP and CMPI: "flags from ra − rb" (Table 6.9); the sense of C is open (log entry 30). -/
def Obligations.ComparisonFlags : Prop :=
  ∀ (s : State) (e t : Nat) (ra rb : BitVec 5) (imm : BitVec 16) (u : Sys),
    let c := ctxAt u e
    let sets := fun (i : Instr) (x y : Word) (p : Bool) => ∃ k : Ctx, exec i s = .next (s.ends u e k) ∧
      k.stF St.z = b2n (decide (x = y)) ∧ k.stF St.n = b2n (x - y).msb ∧
      k.stF St.v = b2n (decide (x.toInt - y.toInt ≠ (x - y).toInt)) ∧ k.stF St.fpsn = b2n p ∧
      k.stF St.sat = c.stF St.sat ∧ k.stF St.psn = (if p then 1 else c.stF St.psn) ∧ k.g = c.g ∧ k.acc = c.acc ∧ k.a = c.a
    (Runs s e t (fun o => needRegs [ra, rb] o || needFlags o) u →
      sets (.cmp e ra rb) (c.reg ra) (c.reg rb) (c.psn ra || c.psn rb)) ∧
    (Runs s e t (fun o => needRegs [ra] o || needFlags o) u →
      sets (.cmpi e ra imm) (c.reg ra) (imm.signExtend 64) (c.psn ra))

/-- ST instructions (R118, R131). -/
def Obligations.StatusInstructions : Prop :=
  ∀ (s : State) (e t : Nat) (rd ra width : BitVec 5) (u : Sys),
    let c := ctxAt u e
    (Runs s e t needStatus u →
      exec (.strd e rd) s = .next (s.ends u e (c.setReg rd c.st false)) ∧
      exec (.stclr e ra) s = .next (s.ends u e { c with st := c.st &&& ~~~(c.reg ra &&& 0x0F000000) })) ∧
    (Runs s e t (needRegs [rd]) u →
      exec (.bexpRead e rd) s = .next (s.ends u e (c.setReg rd (BitVec.ofNat 64 (c.stF St.bexpShift)) false))) ∧
    (Runs s e t (fun _ => false) u →
      (∃ k : Ctx, exec (.bexpOff e) s = .next (s.ends u e k) ∧ k.stF St.bexpArmed = 0 ∧ k.stF St.bexpShift = c.stF St.bexpShift) ∧
      (width.toNat < 2 → ∃ k : Ctx, exec (.bexpArm e width) s = .next (s.ends u e k) ∧ k.stF St.bexpArmed = 1 ∧
        k.stF St.bexpWidth = width.toNat ∧ k.stF St.bexpShift = 0 ∧ k.stF St.bexpZero = 1 ∧ k.stF St.aov = c.stF St.aov))

/-- The frame of the three-register instructions: only rd, the sticky bits PSN and SAT, the loop state and PC may change. -/
def Obligations.ScalarFrame : Prop :=
  ∀ (s : State) (e t f : Nat) (rd ra rb q : BitVec 5) (i : Instr),
    (i = .add e rd ra rb ∨ i = .sub e rd ra rb ∨ i = .addS e rd ra rb ∨ i = .subS e rd ra rb ∨ i = .and e rd ra rb ∨
      i = .or e rd ra rb ∨ i = .xor e rd ra rb ∨ i = .mul e rd ra rb ∨ i = .mulh e rd ra rb ∨ i = .div e rd ra rb ∨
      i = .min e rd ra rb ∨ i = .max e rd ra rb) →
    threadAt s.sys.dev e = some t → (engineOf s.sys.dev e).ops = [] → f ≠ e → q ≠ rd →
    ∃ n : State, exec i s = .next n ∧
      (ctxAt n.sys e).reg q = (ctxAt s.sys e).reg q ∧
      (ctxAt n.sys e).a = (ctxAt s.sys e).a ∧ (ctxAt n.sys e).cd = (ctxAt s.sys e).cd ∧
      (ctxAt n.sys e).acc = (ctxAt s.sys e).acc ∧ (ctxAt n.sys e).accp = (ctxAt s.sys e).accp ∧
      (ctxAt n.sys e).qs = (ctxAt s.sys e).qs ∧ (ctxAt n.sys e).lmwin = (ctxAt s.sys e).lmwin ∧
      (ctxAt n.sys e).tags = (ctxAt s.sys e).tags ∧ (ctxAt n.sys e).failed = (ctxAt s.sys e).failed ∧
      (∀ x, x = St.z ∨ x = St.n ∨ x = St.c ∨ x = St.v ∨ x = St.fpsn ∨ x = St.aov ∨ x = St.prefused →
        (ctxAt n.sys e).stF x = (ctxAt s.sys e).stF x) ∧
      (i ≠ .addS e rd ra rb → i ≠ .subS e rd ra rb → i ≠ .div e rd ra rb →
        (ctxAt n.sys e).stF St.sat = (ctxAt s.sys e).stF St.sat) ∧
      engineOf n.sys.dev f = engineOf s.sys.dev f ∧ (engineOf n.sys.dev e).ops = [] ∧
      n.sys.mem = s.sys.mem ∧ n.pending = s.pending

/-- Table 6.1: "G0 reads as zero and ignores writes". -/
def Obligations.ZeroRegister : Prop :=
  (∀ (s : State) (e : Nat), (ctxAt s.sys e).reg 0 = 0 ∧ (ctxAt s.sys e).psn 0 = false) ∧
  (∀ (s : State) (e t : Nat) (ra rb q : BitVec 5) (imm : BitVec 16) (i : Instr),
    (i = .add e 0 ra rb ∨ i = .and e 0 ra rb ∨ i = .addi e 0 ra imm) →
    threadAt s.sys.dev e = some t → (engineOf s.sys.dev e).ops = [] →
    ∃ n : State, exec i s = .next n ∧ (ctxAt n.sys e).reg q = (ctxAt s.sys e).reg q ∧
      (ctxAt n.sys e).stF St.psn = (ctxAt s.sys e).stF St.psn)

/-- R115: the instruction waits at its boundary; the state stays as it is. -/
def Obligations.WaitForOperand : Prop :=
  ∀ (s : State) (e t : Nat) (rd ra rb : BitVec 5) (an : BitVec 3) (width mode : BitVec 2) (step_ : BitVec 14),
    threadAt s.sys.dev e = some t →
    (performAll (fun o => decide (o.thread = t) && needRegs [rd, ra, rb] o) e s.sys = none → exec (.add e rd ra rb) s = .next s) ∧
    (performAll (fun o => decide (o.thread = t) && (needRegs [ra, rb] o || needFlags o)) e s.sys = none →
      exec (.cmp e ra rb) s = .next s) ∧
    (performAll (fun o => decide (o.thread = t) && needRegs (regsOf rd width) o) e s.sys = none →
      exec (.ld e rd an width mode step_) s = .next s)

/-- AMOV, AGET, CDSET (Table 6.9), in the fields of Tables 6.4 and 6.5; R125 for the lengths of bit-reversed descriptors. -/
def Obligations.AddressRegisters : Prop :=
  ∀ (s : State) (e t : Nat) (an am : BitVec 3) (cd k : BitVec 2) (rd ra rb : BitVec 5) (imm : BitVec 16) (brev : Bool)
    (u : Sys),
    let c := ctxAt u e
    let len := (c.reg rb).toNat % 2 ^ 19
    let power := ∃ m : Nat, 2 ≤ m ∧ len = 2 ^ m
    (Runs s e t (needRegs [ra]) u →
      (c.psn ra = false → ∃ n : Ctx, exec (.amov e an cd ra imm) s = .next (s.ends u e n) ∧
        n.offset an = (c.reg ra + imm.signExtend 64).toNat % 2 ^ 18 ∧ n.cdsel an = cd.toNat ∧
        (am ≠ an → n.offset am = c.offset am ∧ n.cdsel am = c.cdsel am) ∧ n.g = c.g ∧ n.cd = c.cd ∧ n.st = c.st) ∧
      (c.psn ra = true → exec (.amov e an cd ra imm) s =
        .next (s.excepts u e t (wordI 0x0A (BitVec.ofNat 5 (an.toNat * 4 + cd.toNat)) ra imm) exPoison none))) ∧
    (Runs s e t (needRegs [rd]) u →
      exec (.aget e rd an) s = .next (s.ends u e (c.setReg rd (BitVec.ofNat 64 (c.offset an)) false))) ∧
    (Runs s e t (needRegs [ra, rb]) u →
      (c.psn ra = false → c.psn rb = false → (brev = true → power) →
        ∃ n : Ctx, exec (.cdset e k brev ra rb) s = .next (s.ends u e n) ∧
          n.base k.toNat = (c.reg ra).toNat % 2 ^ 18 ∧ n.length k.toNat = len ∧ n.brev k.toNat = brev ∧
          (∀ j, j ≠ k.toNat → n.base j = c.base j ∧ n.length j = c.length j ∧ n.brev j = c.brev j) ∧
          n.g = c.g ∧ n.a = c.a ∧ n.st = c.st) ∧
      (c.psn rb = false → brev = true → ¬ power → exec (.cdset e k brev ra rb) s =
        .next (s.excepts u e t (wordR 0x0C 0 ra rb (1 + 2 * k.toNat)) exIllegal none)) ∧
      (c.psn ra = true → brev = false → exec (.cdset e k brev ra rb) s =
        .next (s.excepts u e t (wordR 0x0C 0 ra rb (2 * k.toNat)) exPoison none)))

/-- LD (R120, Table 6.8): value, extension, poison and post-modify; nothing is stored. -/
def Obligations.LocalLoad : Prop :=
  ∀ (s : State) (e t : Nat) (rd : BitVec 5) (an : BitVec 3) (width mode : BitVec 2) (step_ : BitVec 14) (u : Sys),
    let c := ctxAt u e
    let n := widthBytes width
    let got := lmRead u e (c.addrs an n)
    Runs s e t (needRegs (regsOf rd width)) u → localCheck c rd an width mode = none →
    ∃ k : Ctx, exec (.ld e rd an width mode step_) s = .next { s with sys := putCtx got.2.2 e k.advance } ∧
      got.2.2.mem = u.mem ∧ got.1 = locRead u.mem e (c.addrs an n) ∧
      (width ≠ 3 → k = (if mode = 1 then fun x : Ctx => x.postModify an step_.toInt else id)
        (c.setReg rd (BitVec.ofInt 64 (if n < 8 then (if got.1 < 2 ^ (8 * n - 1) then (got.1 : Int) else (got.1 : Int) - 2 ^ (8 * n))
          else (got.1 : Int))) (got.2.1.any id))) ∧
      (width = 3 → k.reg (rd + 1) = BitVec.ofNat 64 (got.1 / 2 ^ 64) ∧ (rd ≠ 0 → k.reg rd = BitVec.ofNat 64 got.1)) ∧
      (∀ q : BitVec 5, q ≠ rd → (width = 3 → q ≠ rd + 1) → k.reg q = c.reg q) ∧
      (mode = 0 → k.a = c.a) ∧
      (mode = 1 → k.cdsel an = c.cdsel an ∧
        k.offset an = nextOffset (c.length (c.cdsel an)) (c.brev (c.cdsel an)) (c.offset an) step_.toInt % 2 ^ 18)

/-- ST (R120): the bytes stored, read back, and the frame of memory. -/
def Obligations.LocalStore : Prop :=
  ∀ (s : State) (e t : Nat) (rd : BitVec 5) (an : BitVec 3) (width mode : BitVec 2) (step_ : BitVec 14) (u : Sys),
    let c := ctxAt u e
    let n := widthBytes width
    let at_ := c.addrs an n
    Runs s e t (needRegs (regsOf rd width)) u → localCheck c rd an width mode = none →
    ∃ (k : Ctx) (m : Mem), exec (.st e rd an width mode step_) s = .next { s with sys := putCtx { u with mem := m } e k.advance } ∧
      (s.memWf → at_.Nodup → locRead m e at_ = (if width = 3 then (c.reg rd).toNat + (c.reg (rd + 1)).toNat * 2 ^ 64
        else (c.reg rd).toNat % 2 ^ (8 * n))) ∧
      (∀ x, x ∉ at_.map (localAt e) → cellRead m.loc x = cellRead u.mem.loc x) ∧ m.ext = u.mem.ext ∧ m.extPsn = u.mem.extPsn ∧
      k.g = c.g ∧ k.acc = c.acc ∧ (mode = 0 → k.a = c.a) ∧
      (mode = 1 → k.cdsel an = c.cdsel an ∧
        k.offset an = nextOffset (c.length (c.cdsel an)) (c.brev (c.cdsel an)) (c.offset an) step_.toInt % 2 ^ 18)

/-- ALIGN (3) before LM_RANGE (4): "the lowest code of Table 6.11 is taken" (R139). -/
def Obligations.LocalTraps : Prop :=
  ∀ (s : State) (e t : Nat) (rd : BitVec 5) (an : BitVec 3) (width mode : BitVec 2) (step_ : BitVec 14) (u : Sys),
    let c := ctxAt u e
    let n := widthBytes width
    let unit := if width = 3 then 2 else n
    let first := c.base (c.cdsel an) + (if width = 3 ∧ c.length (c.cdsel an) ≠ 0
      then c.offset an % c.length (c.cdsel an) else c.offset an)
    let windowLow := c.lmwin.toNat % 64 * 4096
    let inside := fun a => windowLow ≤ a ∧ a < windowLow + c.lmwin.toNat / 256 % 128 * 4096 ∧ a < 262144
    Runs s e t (needRegs (regsOf rd width)) u → mode.toNat < 2 → (width = 3 → rd.toNat % 2 = 0) →
    (first % unit ≠ 0 →
      exec (.ld e rd an width mode step_) s = .next (s.excepts u e t (wordL 8 rd an width mode step_) 3 none) ∧
      exec (.st e rd an width mode step_) s = .next (s.excepts u e t (wordL 9 rd an width mode step_) 3 none)) ∧
    (first % unit = 0 → (∃ a ∈ c.addrs an n, ¬ inside a) →
      exec (.ld e rd an width mode step_) s = .next (s.excepts u e t (wordL 8 rd an width mode step_) 4 none) ∧
      exec (.st e rd an width mode step_) s = .next (s.excepts u e t (wordL 9 rd an width mode step_) 4 none))

/-- R124 and R125, on the one function that every post-modify uses (LocalLoad, LocalStore). -/
def Obligations.PostModifyRules : Prop :=
  ∀ (len off : Nat) (step_ : Int),
    ((nextOffset 0 false off step_ : Int) = ((off : Int) + step_) % 2 ^ 18) ∧
    (0 < len → nextOffset len false off step_ < len ∧
      ((nextOffset len false off step_ : Int) - (off + step_)) % (len : Int) = 0) ∧
    (2 ≤ len → nextOffset len false 0 (-2) = len - 2) ∧
    (∀ m : Nat, 2 ≤ m → len = 2 ^ m → off < len → nextOffset len true off step_ < len ∧
      nextOffset len true (nextOffset len true off step_) (-step_) = off)

/-- The lanes of R127, written out as its pseudocode has them. -/
def Obligations.MacResults : Prop :=
  ∀ (s : State) (e t : Nat) (aa ab : BitVec 3) (stepA stepB : BitVec 7) (v : BitVec 6) (r : Reads),
    threadAt s.sys.dev e = some t → vecReads s.sys e aa ab stepA stepB = .ok r → v.toNat % 8 = 0 →
    let c := ctxAt s.sys e
    let clr := v.getLsbD 5
    let product := fun (w i : Nat) =>
      let p := (element w r.a r.markA (if v.getLsbD 3 then 0 else i)).1 * (element w r.b r.markB i).1
      if v.getLsbD 4 then -p else p
    let poisoned := fun (w i : Nat) => (element w r.a r.markA (if v.getLsbD 3 then 0 else i)).2 || (element w r.b r.markB i).2
    let lane := fun (w bit : Nat) (sat : Bool) (x0 : Int) (p : Int) (value : Int) (pin : Bool) =>
      let top : Int := 2 ^ (w - 1) - 1
      let x := (if clr then 0 else x0) + p
      let was := !clr && c.pinned bit
      if was then value = x0 ∧ pin = true
      else if sat then value = max (-top) (min top x) ∧ pin = decide (x < -top ∨ top < x)
      else (value - x) % 2 ^ w = 0 ∧ -(2 ^ (w - 1)) ≤ value ∧ value < 2 ^ (w - 1) ∧ pin = false
    let ends := fun (i : Instr) (wide sat : Bool) => ∃ k : Ctx,
      exec i s = .next { s with sys := putCtx r.sys e k.advance } ∧ k.g = c.g ∧ k.cd = c.cd ∧
      if wide then ∀ j < 4, lane 72 (2 * j) sat (c.acc32 j) (product 32 j) (k.acc32 j) (k.pinned (2 * j)) ∧
        k.accPsn (2 * j) = ((!clr && c.accPsn (2 * j)) || poisoned 32 j)
      else ∀ j < 8, lane 40 j sat (c.acc16 j) (product 16 j) (k.acc16 j) (k.pinned j) ∧
        k.accPsn j = ((!clr && c.accPsn j) || poisoned 16 j)
    ((clr = true ∨ ∀ p < 4, c.wide p = false) →
      ends (.macS16 e aa ab stepA stepB v) false true ∧ ends (.macW16 e aa ab stepA stepB v) false false) ∧
    ((clr = true ∨ ∀ p < 4, c.wide p = true) →
      ends (.macS32 e aa ab stepA stepB v) true true ∧ ends (.macW32 e aa ab stepA stepB v) true false)

/-- CMAC.S16 (R127) and BFLY.S16 (R130). -/
def Obligations.ComplexAndButterfly : Prop :=
  ∀ (s : State) (e t : Nat) (aa ab : BitVec 3) (stepA stepB : BitVec 7) (v : BitVec 6) (r : Reads),
    threadAt s.sys.dev e = some t → vecReads s.sys e aa ab stepA stepB = .ok r →
    let c := ctxAt s.sys e
    let x := fun (i : Nat) => (element 16 r.a r.markA i).1
    let y := fun (i : Nat) => (element 16 r.b r.markB i).1
    (v.toNat % 4 = 0 → (v.getLsbD 5 = true ∨ ∀ p < 4, c.wide p = false) →
      let i := fun (j : Nat) => if v.getLsbD 3 then 0 else j
      let yi := fun (j : Nat) => if v.getLsbD 2 then -(y (2 * j + 1)) else y (2 * j + 1)
      let sign : Int := if v.getLsbD 4 then -1 else 1
      let part := fun (a : Nat) (p : Int) (value : Int) =>
        (v.getLsbD 5 || !c.pinned a) = true →
          value = max (-(2 ^ 39 - 1)) (min (2 ^ 39 - 1) ((if v.getLsbD 5 then 0 else c.acc16 a) + sign * p))
      ∃ k : Ctx, exec (.cmacS16 e aa ab stepA stepB v) s = .next { s with sys := putCtx r.sys e k.advance } ∧
        ∀ j < 4, part (2 * j) (x (2 * i j) * y (2 * j) - x (2 * i j + 1) * yi j) (k.acc16 (2 * j)) ∧
          part (2 * j + 1) (x (2 * i j) * yi j + x (2 * i j + 1) * y (2 * j)) (k.acc16 (2 * j + 1))) ∧
    (v.toNat % 32 = 0 →
      let half := fun (z : Int) => if v.getLsbD 5 then (z + 1) / 2 else z
      let clip := fun (z : Int) => max (-32768) (min 32767 (half z))
      ∃ (k : Ctx) (m : Mem), exec (.bflyS16 e aa ab stepA stepB v) s = .next { s with sys := putCtx { r.sys with mem := m } e k.advance } ∧
        (s.memWf → (r.addrA ++ r.addrB).Nodup → ∀ j < 8,
          toSigned 16 (locRead m e ((r.addrA.drop (2 * j)).take 2)) = clip (x j + y j) ∧
          toSigned 16 (locRead m e ((r.addrB.drop (2 * j)).take 2)) = clip (x j - y j)) ∧
        (∀ a, a ∉ (r.addrA ++ r.addrB).map (localAt e) → cellRead m.loc a = cellRead s.sys.mem.loc a) ∧ m.ext = s.sys.mem.ext ∧
        k.g = c.g ∧ k.acc = c.acc ∧
        (k.stF St.sat = 1 ↔ c.stF St.sat = 1 ∨ ∃ j < 8, clip (x j + y j) ≠ half (x j + y j) ∨ clip (x j - y j) ≠ half (x j - y j)))

/-- R128. A sum is a value, whether it is pinned, and whether an addition overflowed. -/
def Obligations.AccumulatorSum : Prop :=
  ∀ (s : State) (e t : Nat), threadAt s.sys.dev e = some t →
    let c := ctxAt s.sys e
    let add := fun (w : Nat) (a b : Int × Bool × Bool) =>
      let top : Int := 2 ^ (w - 1) - 1
      let full := fun (neg : Bool) => if neg then -top else top
      if a.2.1 then (full (decide (a.1 < 0)), true, a.2.2 || b.2.2)
      else if b.2.1 then (full (decide (b.1 < 0)), true, a.2.2 || b.2.2)
      else if a.1 + b.1 < -top ∨ top < a.1 + b.1 then (full (decide (a.1 + b.1 < 0)), true, true)
      else (a.1 + b.1, false, a.2.2 || b.2.2)
    let n := fun (i : Nat) => (c.acc16 i, c.pinned i, false)
    let w := fun (i : Nat) => (c.acc32 i, c.pinned (2 * i), false)
    ∃ k : Ctx, exec (.acsum e) s = .next (s.ends s.sys e k) ∧ k.g = c.g ∧ (∀ p, 0 < p → p < 4 → k.acc[p]? = c.acc[p]?) ∧
      (c.wide 0 = false →
        let r := add 40 (add 40 (add 40 (n 0) (n 1)) (add 40 (n 2) (n 3))) (add 40 (add 40 (n 4) (n 5)) (add 40 (n 6) (n 7)))
        k.acc16 0 = r.1 ∧ k.pinned 0 = r.2.1 ∧ k.stF St.aov = (if r.2.2 then 1 else c.stF St.aov) ∧
          k.acc16 1 = c.acc16 1 ∧ (∀ i, 0 < i → i < 8 → k.pinned i = c.pinned i)) ∧
      (c.wide 0 = true →
        let r := add 72 (add 72 (w 0) (w 1)) (add 72 (w 2) (w 3))
        k.acc32 0 = r.1 ∧ k.pinned 0 = r.2.1 ∧ k.stF St.aov = (if r.2.2 then 1 else c.stF St.aov) ∧
          (∀ i, 0 < i → i < 8 → k.pinned i = c.pinned i))

/-- R129 with its rounding and fit, and ACCLR (R126). -/
def Obligations.AccumulatorConversions : Prop :=
  ∀ (s : State) (e t : Nat) (rd ra : BitVec 5) (an acc : BitVec 3) (shift step_ : BitVec 6) (round width : BitVec 2) (sat : Bool)
    (u : Sys),
    let c := ctxAt u e
    let i := acc.toNat
    let wide := c.wide (i / 2)
    let x := if wide then c.acc32 (i / 2) else c.acc16 i
    let bits := 16 * 2 ^ width.toNat
    let fitted := fun (q : Int) => if sat then max (-(2 ^ (bits - 1))) (min (2 ^ (bits - 1) - 1) q) else toSigned bits (toUnsigned bits q)
    let value := fun (v : Int) => ∃ q : Int, v = fitted q ∧
      (shift.toInt ≤ 0 → q = x * 2 ^ shift.toInt.natAbs) ∧
      (0 < shift.toInt → let m : Int := 2 ^ shift.toInt.natAbs
        (round = 0 → q * m ≤ x ∧ x < (q + 1) * m) ∧
        (round = 1 → 2 * q * m ≤ 2 * x + m ∧ 2 * x + m < 2 * (q + 1) * m) ∧
        (round = 2 → 2 * (q * m - x).natAbs ≤ 2 ^ shift.toInt.natAbs ∧ (2 * (q * m - x).natAbs = 2 ^ shift.toInt.natAbs → q % 2 = 0)))
    (Runs s e t (needRegs [rd]) u → round ≠ 3 → width ≠ 3 →
      ∃ (k : Ctx) (v : Int), exec (.acmv e rd acc shift round sat width) s = .next (s.ends u e k) ∧ value v ∧
        (rd ≠ 0 → k.reg rd = BitVec.ofInt 64 v) ∧ k.acc = c.acc ∧ k.a = c.a ∧ (∀ q, q ≠ rd → k.reg q = c.reg q)) ∧
    (Runs s e t (fun _ => false) u → round ≠ 3 → width ≠ 3 → c.localFault an (bits / 8) = none →
      ∃ (k : Ctx) (v : Int) (m : Mem), exec (.acst e an acc shift round sat width false step_) s
          = .next { s with sys := putCtx { u with mem := m } e k.advance } ∧ value v ∧
        (s.memWf → locRead m e (c.addrs an (bits / 8)) = toUnsigned bits v) ∧
        (∀ a, a ∉ (c.addrs an (bits / 8)).map (localAt e) → cellRead m.loc a = cellRead u.mem.loc a) ∧ m.ext = u.mem.ext ∧
        k.g = c.g ∧ k.acc = c.acc ∧ k.cdsel an = c.cdsel an ∧
        k.offset an = nextOffset (c.length (c.cdsel an)) (c.brev (c.cdsel an)) (c.offset an) (2 * step_.toInt) % 2 ^ 18) ∧
    (Runs s e t (needRegs [ra]) u →
      let top : Int := if wide then 2 ^ 71 - 1 else 2 ^ 39 - 1
      let y := if shift.toInt ≤ 0 then (c.reg ra).toInt * 2 ^ shift.toInt.natAbs else (c.reg ra).toInt / 2 ^ shift.toInt.natAbs
      ∃ k : Ctx, exec (.acld e ra acc shift) s = .next (s.ends u e k) ∧
        (if wide then k.acc32 (i / 2) else k.acc16 i) = max (-top) (min top y) ∧
        k.pinned (if wide then i / 2 * 2 else i) = false ∧ k.accPsn (if wide then i / 2 * 2 else i) = c.psn ra ∧
        k.g = c.g ∧ (∀ p, p ≠ i / 2 → p < 4 → k.acc[p]? = c.acc[p]?)) ∧
    (Runs s e t (fun _ => false) u → ∃ k : Ctx, exec (.acclr e acc true) s = .next (s.ends u e k) ∧ k.g = c.g ∧
        (∀ j < 8, k.acc16 j = 0 ∧ k.pinned j = false ∧ k.accPsn j = false) ∧ ∀ p < 4, k.wide p = false)

/-- The operation joins those outstanding (R147); it is performed at its home later (ExternalPerformed). -/
def Obligations.ExternalIssue : Prop :=
  ∀ (s : State) (e t : Nat) (rd ra rb : BitVec 5) (u : Sys),
    let c := ctxAt u e
    let a := (c.reg ra).toNat
    let held := fun (store : Bool) => ((engineOf u.dev e).ops.filter (fun o => o.queue.isNone && o.isStore == store)).length
    let free := fun (bytes : Nat) (use : XUse) => c.psn ra = false ∧ a % bytes = 0 ∧ mapped u.dev e a bytes use = true ∧
      held (decide (use = .store)) < (if use = .store then 16 else 8)
    let joins := fun (i : Instr) (k : XKind) (psn : Nat) =>
      let quiet := match k with
        | .store _ _ => toDeviceSpace u.dev e a
        | _ => false
      ∃ n : State, exec i s = .next n ∧
      (engineOf n.sys.dev e).ops = (engineOf u.dev e).ops ++ [{ kind := k, addr := a, thread := t, poison := psn }] ∧
      ctxAt n.sys e = (if psn = 0 ∨ quiet = true then c else c.setSt St.psn 1).advance ∧ n.sys.mem = u.mem ∧ n.pending = s.pending ∧
      threadAt n.sys.dev e = threadAt u.dev e
    (Runs s e t (needRegs [rd, ra]) u → free 8 .load → joins (.xld64 e rd ra) (.load false rd) 0) ∧
    (Runs s e t (needRegs [rd, rd + 1, ra]) u → free 16 .load → rd.toNat % 2 = 0 → joins (.xld128 e rd ra) (.load true rd) 0) ∧
    (Runs s e t (needRegs [ra, rb]) u → free 8 .store →
      joins (.xst64 e ra rb) (.store false (BitVec.ofNat 128 (c.reg rb).toNat)) (if c.psn rb then 1 else 0)) ∧
    (Runs s e t (needRegs [ra, rb, rb + 1]) u → free 16 .store → rb.toNat % 2 = 0 →
      joins (.xst128 e ra rb) (.store true (BitVec.ofNat 128 ((c.reg rb).toNat + (c.reg (rb + 1)).toNat * 2 ^ 64)))
        ((if c.psn rb then 1 else 0) + 2 * (if c.psn (rb + 1) then 1 else 0))) ∧
    (Runs s e t (needRegs [rd, ra, rb]) u → free 8 .atomic →
      joins (.xamoAdd e rd ra rb) (.add rd (c.reg rb)) (if c.psn rb then 1 else 0) ∧
      joins (.xamoSwp e rd ra rb) (.swap rd (c.reg rb)) (if c.psn rb then 1 else 0) ∧
      joins (.xamoCas e rd ra rb) (.cas rd (c.reg rb) (c.reg rd)) (if c.psn rb ∨ c.psn rd then 1 else 0))

/-- The checks of R139 in the order of Table 6.11. -/
def Obligations.ExternalTraps : Prop :=
  ∀ (s : State) (e t : Nat) (rd ra rb : BitVec 5) (u : Sys),
    let c := ctxAt u e
    let a := (c.reg ra).toNat
    let raises := fun (i : Instr) (word code : Nat) => exec i s = .next (s.excepts u e t word code none)
    (Runs s e t (needRegs [rd, ra]) u →
      (c.psn ra = true → raises (.xld64 e rd ra) (wordR 0x20 rd ra 0 0) exPoison) ∧
      (c.psn ra = false → a % 8 ≠ 0 → raises (.xld64 e rd ra) (wordR 0x20 rd ra 0 0) exAlign) ∧
      (c.psn ra = false → a % 8 = 0 → mapped u.dev e a 8 .load = false →
        raises (.xld64 e rd ra) (wordR 0x20 rd ra 0 0) exX)) ∧
    (Runs s e t (needRegs [rd, rd + 1, ra]) u → rd.toNat % 2 = 1 →
      raises (.xld128 e rd ra) (wordR 0x20 rd ra 0 1) exIllegal) ∧
    (Runs s e t (needRegs [ra, rb]) u →
      (c.psn ra = true → raises (.xst64 e ra rb) (wordR 0x20 0 ra rb 2) exPoison) ∧
      (c.psn ra = false → a % 8 ≠ 0 → raises (.xst64 e ra rb) (wordR 0x20 0 ra rb 2) exAlign) ∧
      (c.psn ra = false → a % 8 = 0 → 0x10000000 ≤ a → a < 0x10100000 →
        raises (.xst64 e ra rb) (wordR 0x20 0 ra rb 2) exX)) ∧
    (Runs s e t (needRegs [rd, ra, rb]) u → c.psn ra = false → a % 8 = 0 → 0x10000000 ≤ a → a < 0x10100000 →
      raises (.xamoAdd e rd ra rb) (wordR 0x20 rd ra rb 8) exX ∧ raises (.xamoCas e rd ra rb) (wordR 0x20 rd ra rb 10) exX)

/-- R147, R157 at a home that is plain memory; 0 is the oldest operation in flight. Pushes and pops are QueuePush's and QueuePop's. -/
def Obligations.ExternalPerformed : Prop :=
  ∀ (s : State) (e t x : Nat) (o : XOp), s.memWf → threadAt s.sys.dev e = some t → (engineOf s.sys.dev e).ops = [o] → o.thread = t →
    o.queue = none →
    homeOf s.sys.dev e o.addr = .mem x →
    let m := s.sys.mem.ext
    let old := cellsRead m x 8
    let n : Nat := match o.kind with
      | .store true _ => 16
      | _ => 8
    let keeps := fun (w : State) => ∀ y, ¬ (x ≤ y ∧ y < x + n) → cellRead w.sys.mem.ext y = cellRead m y
    let writes := fun (w : State) (v : Nat) => cellsRead w.sys.mem.ext x n = v
    ∃ w : State, exec (.externalAccessComplete e 0) s = .next w ∧ (engineOf w.sys.dev e).ops = [] ∧ keeps w ∧
      w.sys.mem.loc = s.sys.mem.loc ∧ w.pending = s.pending ∧
      match o.kind with
      | .load false rd => w.sys.mem = s.sys.mem ∧ (rd ≠ 0 → (ctxAt w.sys e).reg rd = BitVec.ofNat 64 old)
      | .load true rd => w.sys.mem = s.sys.mem ∧ (rd ≠ 0 → rd.toNat % 2 = 0 →
          (ctxAt w.sys e).reg rd = BitVec.ofNat 64 old ∧ (ctxAt w.sys e).reg (rd + 1) = BitVec.ofNat 64 (cellsRead m (x + 8) 8))
      | .store wide v => writes w (if wide then v.toNat else v.toNat % 2 ^ 64) ∧ (ctxAt w.sys e).g = (ctxAt s.sys e).g
      | .add rd v => writes w ((old + v.toNat) % 2 ^ 64) ∧ (rd ≠ 0 → (ctxAt w.sys e).reg rd = BitVec.ofNat 64 old)
      | .swap rd v => writes w v.toNat ∧ (rd ≠ 0 → (ctxAt w.sys e).reg rd = BitVec.ofNat 64 old)
      | .cas rd v k => writes w (if old = k.toNat then v.toNat else old) ∧
          (rd ≠ 0 → (ctxAt w.sys e).reg rd = BitVec.ofNat 64 old) ∧
          (ctxAt w.sys e).stF St.z = (if old = k.toNat then 1 else 0)
      | .push _ _ _ _ _ => True
      | .pop _ _ _ => True

/-- R150: the store buffer gives the load its value; only the issuing engine sees it early. -/
def Obligations.StoreForwarding : Prop :=
  ∀ (s : State) (e t a x p q : Nat) (rd : BitVec 5) (v : BitVec 128), threadAt s.sys.dev e = some t → rd ≠ 0 →
    homeOf s.sys.dev e a = .mem x →
    let st : XOp := { kind := .store false v, addr := a, thread := t, poison := p }
    let ld : XOp := { kind := .load false rd, addr := a, thread := t, poison := q }
    (engineOf s.sys.dev e).ops = [st, ld] →
    (∃ w : State, exec (.externalAccessComplete e 1) s = .next w ∧ (ctxAt w.sys e).reg rd = BitVec.ofNat 64 v.toNat ∧
      w.sys.mem = s.sys.mem ∧ (engineOf w.sys.dev e).ops = [st]) ∧
    (∃ w : State, exec (.externalAccessComplete e 0) s = .next w ∧ (engineOf w.sys.dev e).ops = [ld] ∧
      (s.memWf → cellsRead w.sys.mem.ext x 8 = v.toNat % 2 ^ 64))

/-- R121. The copy outstanding is the engine's first, number 0. -/
def Obligations.Copies : Prop :=
  ∀ (s : State) (e t : Nat) (rd ra rb : BitVec 5) (tag : BitVec 3) (u : Sys) (x : XCopy) (y : Nat),
    let c := ctxAt u e
    let words := (c.reg rd).toNat % 2 ^ 16
    let tg := (c.reg rd).toNat / 2 ^ 16 % 8
    let new := fun (into : Bool) => ({ tag := tg, into := into, ext := (c.reg ra).toNat, loc := (c.reg rb).toNat, words := words,
                                       thread := t, left := List.range words } : XCopy)
    let starts := fun (i : Instr) (into : Bool) => ∃ n : State, exec i s = .next n ∧
      (engineOf n.sys.dev e).copies = (engineOf u.dev e).copies ++ [new into] ∧ (ctxAt n.sys e).tags.getLsbD tg = true ∧
      (ctxAt n.sys e).failed.getLsbD tg = false ∧ n.sys.mem = u.mem ∧ (ctxAt n.sys e).g = c.g
    let moved := fun (n : State) (l : List Nat) =>
      let local_ := fun (i j : Nat) => localAt e (x.loc + 16 * i + j)
      (x.into = true → n.sys.mem.ext = s.sys.mem.ext ∧
        (∀ i ∈ l, ∀ j < 16, cellRead n.sys.mem.loc (local_ i j) = cellRead s.sys.mem.ext (y + 16 * i + j)) ∧
        ∀ b, (∀ i ∈ l, ∀ j < 16, b ≠ local_ i j) → cellRead n.sys.mem.loc b = cellRead s.sys.mem.loc b) ∧
      (x.into = false → n.sys.mem.loc = s.sys.mem.loc ∧
        (∀ i ∈ l, ∀ j < 16, cellRead n.sys.mem.ext (y + 16 * i + j) = cellRead s.sys.mem.loc (local_ i j)) ∧
        ∀ b, (∀ i ∈ l, ∀ j < 16, b ≠ y + 16 * i + j) → cellRead n.sys.mem.ext b = cellRead s.sys.mem.ext b)
    (Runs s e t (needRegs [rd, ra, rb]) u → 1 ≤ words → words ≤ 4096 → c.psn rd = false → c.psn ra = false → c.psn rb = false →
      (c.reg ra).toNat % 16 = 0 → (c.reg rb).toNat % 2 = 0 → c.inWindow (c.reg rb).toNat = true →
      c.inWindow ((c.reg rb).toNat + 16 * words - 1) = true →
      (∀ z ∈ (engineOf u.dev e).copies, ¬ (z.tag = tg ∧ z.thread = t)) →
      starts (.xcopyIn e rd ra rb) true ∧ starts (.xcopyOut e rd ra rb) false) ∧
    (s.memWf → (engineOf s.sys.dev e).copies = [x] → (∀ i ∈ x.left, i < x.words) → x.left.Nodup → s.sys.mem.lmBad = [] →
      mapped s.sys.dev e x.ext (16 * x.words) (if x.into then .copyIn else .copyOut) = true →
      (∀ i < x.words, homeOf s.sys.dev e (x.ext + 16 * i) = .mem (y + 16 * i)) →
      (threadAt s.sys.dev e = some t → x.thread = t → x.tag < 8 →
        ∃ n : State, exec (.xcopyComplete e 0) s = .next n ∧ (engineOf n.sys.dev e).copies = [] ∧
          (ctxAt n.sys e).tags.getLsbD x.tag = false ∧ (ctxAt n.sys e).g = (ctxAt s.sys e).g ∧ moved n x.left) ∧
      (∃ (n : State) (gone : List Nat), exec (.stolenCycle e) s = .next n ∧
        oget n.sys.dev Obj.stolenCycles e 0 = oget s.sys.dev Obj.stolenCycles e 0 + 1 ∧
        gone.Nodup ∧ gone ⊆ x.left ∧ gone.length = min 2 x.left.length ∧ moved n gone ∧
        engineOf n.sys.dev e = { engineOf s.sys.dev e with copies := [{ x with left := x.left.filter (fun i => !gone.contains i) }] })) ∧
    (threadAt s.sys.dev e = some t → (∀ z ∈ (engineOf s.sys.dev e).copies, ¬ (z.tag = tag.toNat ∧ z.thread = t)) →
      exec (.xwait e tag) s = .next (if (ctxAt s.sys e).failed.getLsbD tag.toNat
        then s.excepts s.sys e t (wordR 0x20 0 0 (tag.zeroExtend 5) 6) exX none else s.ends s.sys e (ctxAt s.sys e)))

/-- R154 to R156. A thread that blocks has a TCB and waits for no move. -/
def Obligations.Fences : Prop :=
  ∀ (s : State) (e t : Nat) (ra : BitVec 5) (k : Tcb) (u v w : Sys), threadAt s.sys.dev e = some t →
    let waits := fun (i : Instr) (ops : XOp → Bool) (copies : XCopy → Bool) =>
      performAll ops e s.sys = some u → copiesAll copies e u = some v →
      exec i s = .next (s.ends v e (ctxAt v e)) ∧ ∀ o ∈ (engineOf u.dev e).ops, ops o = false
    let blocks := fun (i : Instr) (from_ : Sys) (h : Hold) => tcbOf from_.dev t = some k → k.move = none →
      ∃ n : State, exec i s = .next n ∧ (engineOf n.sys.dev e).thread = none ∧
        (engineOf n.sys.dev e).back = some (t, (ctxAt from_ e).advance) ∧
        (tcbOf n.sys.dev t).map (fun q => (q.state, q.hold)) = some (1, some h)
    waits (.fenceLd e) (fun o => o.queue.isNone && !o.isStore) (fun c => c.into) ∧
    waits (.fenceSt e) (fun o => o.queue.isNone && !o.isLoad) (fun c => !c.into) ∧
    waits (.fenceAll e) (fun o => o.queue.isNone) (fun _ => true) ∧
    waits (.fenceQ e) XOp.isPush (fun _ => false) ∧
    ((∀ o ∈ (engineOf s.sys.dev e).ops, o.isPush = false) → exec (.fenceQ e) s = .next (s.ends s.sys e (ctxAt s.sys e))) ∧
    (s.sys.dev.dict.commit = none → exec (.fenceEpoch e) s = .next (s.ends s.sys e (ctxAt s.sys e))) ∧
    (∀ p, s.sys.dev.dict.commit = some p →
      blocks (.fenceEpoch e) s.sys (.epoch p.epoch p.tick)) ∧
    (Runs s e t (needRegs [ra]) w →
      let c := ctxAt w e
      (c.psn ra = true → exec (.fenceTick e ra) s = .next (s.excepts w e t (wordR 0x22 0 ra 0 5) exPoison none)) ∧
      (c.psn ra = false → (c.reg ra).toNat ≤ curTick w.dev → exec (.fenceTick e ra) s = .next (s.ends w e c)) ∧
      (c.psn ra = false → curTick w.dev < (c.reg ra).toNat →
        blocks (.fenceTick e ra) w (.tick (c.reg ra).toNat)))

/-- R196 for the pushes of Table 9.3; w is the system after what a release waits for (R151). That a push is taken at a time of its own
is R150 as log entry 82 reads it. -/
def Obligations.QueuePush : Prop :=
  (∀ (s : State) (e t : Nat) (rd ra rb : BitVec 5) (u w : Sys),
    let c := ctxAt u e
    let q := (c.reg ra).toNat
    let len := (c.reg rd).toNat
    let ready := q < 262144 ∧ c.psn ra = false ∧ bitSet (ogetN u.dev Obj.queueGrantMask q 0) (e / 16) = true
    let same := (ctxAt w e).g = c.g ∧ (ctxAt w e).gp = c.gp ∧ (ctxAt w e).a = c.a ∧ (ctxAt w e).cd = c.cd
    let sends := fun (i : Instr) (word rel : Bool) (item : QItem) => ∃ n : State, exec i s = .next n ∧
      (engineOf n.sys.dev e).ops = (engineOf w.dev e).ops.map (XOp.demote t) ++
        [{ kind := .push q word rel item true, addr := queuePlace q, thread := t, poison := item.poison }] ∧
      (∀ r, queueOf n.sys.dev r = queueOf w.dev r) ∧ n.sys.mem.ext = w.mem.ext ∧ (w.mem.lmBad = [] → n.sys.mem = w.mem) ∧
      (ctxAt n.sys e).g = c.g ∧ (ctxAt n.sys e).qs = (ctxAt w e).qs
    let pair : QItem := { plainItem ⟨16, c.pair rb⟩ with poison := c.pairPsn rb }
    let block := lmRead w e (blockAddrs c (rb.truncate 3) len)
    let bytes : QItem := { plainItem ⟨len, block.1⟩ with poison := poisonMask block.2.1 }
    same →
    (Runs s e t (needRegs [ra, rb, rb + 1]) u → ready → rb.toNat % 2 = 0 →
      (w = u → sends (.qpush e ra rb) true false pair) ∧ (releaseAll e u = some w → sends (.qpushRel e ra rb) true true pair)) ∧
    (Runs s e t (needRegs [rd, ra]) u → ready → blockMore rd rb u c = none →
      (1 ≤ len → len ≤ 1024 → (w = u → sends (.qpushBlk e rd ra rb) false false bytes) ∧
        (releaseAll e u = some w → sends (.qpushBlkRel e rd ra rb) false true bytes)) ∧
      (len = 0 ∨ 1024 < len → (w = u → sends (.qpushBlk e rd ra rb) false false (plainItem ⟨len, 0⟩)) ∧
        (releaseAll e u = some w → sends (.qpushBlkRel e rd ra rb) false true (plainItem ⟨len, 0⟩))))) ∧
  (∀ (s : State) (e t q at_ p : Nat) (word rel last : Bool) (item : QItem),
    let d := s.sys.dev
    let x := queueOf d q
    let k := cellsNeeded d q item
    let own := cellsHeld d q + k ≤ ogetN d Obj.queueDepthLimit q 0
    let pool := if queueClassA d q then k ≤ freeCells d else k + ogetN d Obj.classAReserve 0 0 ≤ freeCells d
    let fits := word = false → 1 ≤ item.data.len ∧ item.data.len ≤ 1024
    let qs := fun (n : State) (v : BitVec 16) => (ctxAt n.sys e).qs = (if last then v else (ctxAt s.sys e).qs)
    threadAt d e = some t → (engineOf d e).ops = [{ kind := .push q word rel item last, addr := at_, thread := t, poison := p }] →
    197632 ≤ q → q < 253440 → x.isolated = false → ogetN d Obj.thresholdDepth q 0 = 0 →
    ∃ n : State, exec (.externalAccessComplete e 0) s = .next n ∧ (engineOf n.sys.dev e).ops = [] ∧ n.sys.mem = s.sys.mem ∧
      (ctxAt n.sys e).g = (ctxAt s.sys e).g ∧ (∀ r, r ≠ q → queueOf n.sys.dev r = queueOf d r) ∧
      (isWord d q = word → fits → own → pool → qs n (if item.poison = 0 then 0 else 4) ∧
        (item.poison ≠ 0 → (ctxAt n.sys e).stF St.psn = 1) ∧
        ∃ cells : List Nat, queueOf n.sys.dev q = { x with items := x.items ++ [{ item with places := cells }] } ∧
          (word = false → cells.length = k ∧ cells.Nodup ∧ ∀ y ∈ cells, y ∉ heldPlaces d)) ∧
      (isWord d q = word → fits → ¬ (own ∧ pool) → queueOf n.sys.dev q = x ∧ qs n 18 ∧
        (¬ own → oget n.sys.dev Obj.queuePushesRefused q 0 = oget d Obj.queuePushesRefused q 0 + 1)) ∧
      (isWord d q ≠ word ∨ ¬ fits → queueOf n.sys.dev q = x ∧ qs n 2))

/-- R193 and R194; an undamaged item has no bad parity and good headers. When a plain pop is taken is log entry 82's reading of R115
and R150. -/
def Obligations.QueuePop : Prop :=
  ∀ (s : State) (e t : Nat) (rd ra rb : BitVec 5) (u : Sys) (i : Instr),
    let c := ctxAt u e
    let q := (c.reg ra).toNat
    let len := (c.reg rd).toNat
    let ready := 197632 ≤ q ∧ q < 253440 ∧ c.psn ra = false ∧ bitSet (ogetN u.dev Obj.queueGrantMask q 0) (e / 16) = true
    let pop := fun (q : Nat) => ({ kind := .pop q rd true, addr := queuePlace q, thread := t, poison := 0 } : XOp)
    let popped := fun (f : Sys) (q : Nat) (n : State) =>
      let x := queueOf f.dev q
      n.sys.mem = f.mem ∧ (engineOf n.sys.dev e).ops = [] ∧ (queueOf n.sys.dev q).items = x.items ∧
        (∀ y, x.items[x.read]? = some y → y.data.len = 16 → x.off = 0 → y.badHeads = 0 → y.badPar = 0 →
          (rd ≠ 0 → (ctxAt n.sys e).reg rd = BitVec.ofNat 64 (y.data.val % 2 ^ 128)) ∧
          (ctxAt n.sys e).reg (rd + 1) = BitVec.ofNat 64 (y.data.val % 2 ^ 128 / 2 ^ 64) ∧
          (queueOf n.sys.dev q).read = x.read + 1 ∧ (queueOf n.sys.dev q).last = y.data.val % 2 ^ 128 ∧
          (ctxAt n.sys e).qs = (if y.poison % 4 = 0 then 0 else 4)) ∧
        (x.items[x.read]? = none → (rd ≠ 0 → (ctxAt n.sys e).reg rd = BitVec.ofNat 64 (x.last % 2 ^ 128)) ∧
          (ctxAt n.sys e).reg (rd + 1) = BitVec.ofNat 64 (x.last % 2 ^ 128 / 2 ^ 64) ∧ queueOf n.sys.dev q = x ∧
          (ctxAt n.sys e).qs = 1)
    (Runs s e t (needRegs [rd, rd + 1, ra]) u → ready → rd.toNat % 2 = 0 →
      (∃ n : State, exec (.qpop e rd ra) s = .next n ∧ n.sys.mem = u.mem ∧ (∀ r, queueOf n.sys.dev r = queueOf u.dev r) ∧
        (engineOf n.sys.dev e).ops = (engineOf u.dev e).ops.map (XOp.demote t) ++ [pop q]) ∧
      (isWord u.dev q = true → (queueOf u.dev q).isolated = false → (engineOf u.dev e).ops = [] →
        ∃ n : State, exec (.qpopAcq e rd ra) s = .next n ∧ popped u q n)) ∧
    (∀ q : Nat, threadAt s.sys.dev e = some t → (engineOf s.sys.dev e).ops = [pop q] → rd.toNat % 2 = 0 →
      197632 ≤ q → q < 253440 → isWord s.sys.dev q = true → (queueOf s.sys.dev q).isolated = false →
      ∃ n : State, exec (.externalAccessComplete e 0) s = .next n ∧ popped s.sys q n) ∧
    (i = .qpopBlk e rd ra rb ∨ i = .qpopBlkAcq e rd ra rb → Runs s e t (needRegs [rd, ra]) u → ready →
      let x := queueOf u.dev q
      isWord u.dev q = false → x.isolated = false → (∀ o ∈ (engineOf u.dev e).ops, o.queue ≠ some q) →
      blockMore rd rb u c = none → 1 ≤ len → len ≤ 1024 →
      ∃ n : State, exec i s = .next n ∧ n.sys.mem.ext = u.mem.ext ∧ (queueOf n.sys.dev q).items = x.items ∧
        (∀ y, x.items[x.read]? = some y → x.off < y.data.len → y.badHeads = 0 → y.badPar = 0 →
          let k := min len (y.data.len - x.off)
          let at_ := blockAddrs c (rb.truncate 3) k
          (ctxAt n.sys e).reg rd = BitVec.ofNat 64 (k + (y.data.len - x.off - k) * 65536) ∧
          (s.memWf → at_.Nodup → locRead n.sys.mem e at_ = sliceBytes y.data.val x.off k) ∧
          (∀ a, a ∉ at_.map (localAt e) → cellRead n.sys.mem.loc a = cellRead u.mem.loc a) ∧
          (if x.off + k = y.data.len then (queueOf n.sys.dev q).read = x.read + 1 ∧ (queueOf n.sys.dev q).off = 0
           else (queueOf n.sys.dev q).read = x.read ∧ (queueOf n.sys.dev q).off = x.off + k)) ∧
        (x.items[x.read]? = none →
          let at_ := blockAddrs c (rb.truncate 3) (min len 16)
          (ctxAt n.sys e).reg rd = 0 ∧ queueOf n.sys.dev q = x ∧ (ctxAt n.sys e).qs = 1 ∧
          (s.memWf → at_.Nodup → locRead n.sys.mem e at_ = x.last % 2 ^ (8 * min len 16))))

/-- Table 9.3 for the read point, R198 for an isolated queue, R200 for the grant. -/
def Obligations.QueueReadPoint : Prop :=
  ∀ (s : State) (e t : Nat) (rd ra : BitVec 5) (u : Sys),
    let c := ctxAt u e
    let q := (c.reg ra).toNat
    let x := queueOf u.dev q
    let granted := q < 262144 ∧ c.psn ra = false ∧ bitSet (ogetN u.dev Obj.queueGrantMask q 0) (e / 16) = true
    let general := granted ∧ 197632 ≤ q ∧ q < 253440 ∧ ogetN u.dev Obj.thresholdDepth q 0 = 0 ∧
      ∀ o ∈ (engineOf u.dev e).ops, o.queue ≠ some q
    let ends := fun (i : Instr) (y : Queue) (qs : BitVec 16) => ∃ n : State, exec i s = .next n ∧ queueOf n.sys.dev q = y ∧
      (ctxAt n.sys e).qs = qs ∧ n.sys.mem = u.mem ∧ (ctxAt n.sys e).g = c.g ∧
      ∀ r, r ≠ q → queueOf n.sys.dev r = queueOf u.dev r
    (Runs s e t (needRegs [ra]) u →
      (general → x.isolated = false →
        ends (.qmark e ra) { x with mark := some (x.read, x.off) } 0 ∧
        (∀ r o, x.mark = some (r, o) → ends (.qrewind e ra) { x with read := r, off := o } 0) ∧
        (x.mark = none → ends (.qrewind e ra) x 2) ∧
        (∃ n : State, exec (.qrelease e ra) s = .next n ∧ (queueOf n.sys.dev q).items = x.items.drop x.read ∧
          (queueOf n.sys.dev q).read = 0 ∧ (queueOf n.sys.dev q).off = x.off ∧ (queueOf n.sys.dev q).last = x.last ∧
          (queueOf n.sys.dev q).mark = (match x.mark with
            | some (r, o) => if r < x.read then none else some (r - x.read, o)
            | none => none) ∧ (ctxAt n.sys e).qs = 0 ∧ n.sys.mem = u.mem)) ∧
      (general → x.isolated = true → ends (.qmark e ra) x 2 ∧ ends (.qrewind e ra) x 2 ∧ ends (.qrelease e ra) x 2) ∧
      (c.psn ra = true → exec (.qmark e ra) s = .next (s.excepts u e t (wordR 0x21 0 ra 0 8) exPoison none)) ∧
      (c.psn ra = false → ¬ granted →
        exec (.qmark e ra) s = .next (s.excepts u e t (wordR 0x21 0 ra 0 8) exQ none) ∧
        exec (.qrelease e ra) s = .next (s.excepts u e t (wordR 0x21 0 ra 0 10) exQ none))) ∧
    (Runs s e t (needRegs [rd, ra]) u → general →
      let full := x.isolated = true ∨ ogetN u.dev Obj.queueDepthLimit q 0 < cellsHeld u.dev q + 1 ∨
        freeCells u.dev < 1 + (if queueClassA u.dev q then 0 else ogetN u.dev Obj.classAReserve 0 0)
      ∃ n : State, exec (.qstat e rd ra) s = .next n ∧ queueOf n.sys.dev q = x ∧ n.sys.mem = u.mem ∧
        ((ctxAt n.sys e).qs = 0 ∨ (ctxAt n.sys e).qs = 8 ∨ (ctxAt n.sys e).qs = 16 ∨ (ctxAt n.sys e).qs = 24) ∧
        ((ctxAt n.sys e).qs.getLsbD 3 = true ↔ x.items.length ≤ x.read) ∧ ((ctxAt n.sys e).qs.getLsbD 4 = true ↔ full) ∧
        (rd ≠ 0 → (ctxAt n.sys e).reg rd = BitVec.ofNat 64 ((ctxAt n.sys e).qs.toNat + (x.items.length - x.read) % 2 ^ 24 * 2 ^ 16
          + cellsHeld u.dev q % 2 ^ 24 * 2 ^ 40)))

/-- Branches (Tables 6.8 and 6.9); the conditions by their codes 0 to 11. -/
def Obligations.ControlFlow : Prop :=
  ∀ (s : State) (e t : Nat) (cond ra : BitVec 5) (off : BitVec 21) (u : Sys),
    let c := ctxAt u e
    let z := c.stF St.z = 1
    let n := c.stF St.n = 1
    let cy := c.stF St.c = 1
    let v := c.stF St.v = 1
    let holds := [True, z, ¬ z, n, ¬ n, cy, ¬ cy, v, ¬ (n ↔ v), (n ↔ v), z ∨ ¬ (n ↔ v), ¬ z ∧ (n ↔ v)].getD cond.toNat False
    let dest := c.pc + off.signExtend 32 * 4
    (Runs s e t needFlags u → cond.toNat < 12 →
      (cond = 0 ∨ c.stF St.fpsn = 0 →
        (holds → exec (.b e cond off) s = .next (s.branches u e c dest)) ∧
        (¬ holds → exec (.b e cond off) s = .next (s.ends u e c))) ∧
      (cond ≠ 0 → c.stF St.fpsn = 1 → exec (.b e cond off) s = .next (s.excepts u e t (wordB 0x30 cond off) exPoison none))) ∧
    (Runs s e t (needRegs [31]) u →
      exec (.call e off) s = .next (s.branches u e (c.setReg 31 ((c.pc + 4).zeroExtend 64) false) dest)) ∧
    (Runs s e t (needRegs [ra]) u →
      (c.psn ra = false → exec (.jr e ra) s = .next (s.branches u e c (BitVec.ofNat 32 (c.reg ra).toNat))) ∧
      (c.psn ra = true → exec (.jr e ra) s = .next (s.excepts u e t (wordR 0x32 0 ra 0 0) exPoison none))) ∧
    (∀ target : BitVec 32, (c.jump target).pc = target ∧ (c.jump target).looping 0 = false ∧ (c.jump target).looping 1 = false ∧
      (c.jump target).g = c.g ∧ (c.jump target).acc = c.acc)

/-- R136. A poisoned count is a poisoned control operand (log entry 33). -/
def Obligations.HardwareLoops : Prop :=
  (∀ (s : State) (e t : Nat) (r : BitVec 5) (off : BitVec 21) (u : Sys), Runs s e t (needRegs [r]) u →
    let c := ctxAt u e
    let n : BitVec 32 := BitVec.ofNat 32 (c.reg r).toNat
    let stop := c.pc + off.signExtend 32 * 4
    let new : LoopReg := { count := n, start := c.pc + 4, stop := stop }
    (c.looping 0 = true → c.looping 1 = true → exec (.loop e r off) s = .next (s.excepts u e t (wordB 0x33 r off) exIllegal none)) ∧
    (¬ (c.looping 0 = true ∧ c.looping 1 = true) → c.psn r = true →
      exec (.loop e r off) s = .next (s.excepts u e t (wordB 0x33 r off) exPoison none)) ∧
    (¬ (c.looping 0 = true ∧ c.looping 1 = true) → c.psn r = false → n = 0 →
      exec (.loop e r off) s = .next { s with sys := putCtx u e { c with pc := stop + 4 } }) ∧
    (¬ (c.looping 0 = true ∧ c.looping 1 = true) → c.psn r = false → n ≠ 0 →
      ∃ k : Ctx, exec (.loop e r off) s = .next { s with sys := putCtx u e k } ∧ k.pc = c.pc + 4 ∧ k.g = c.g ∧
        k.looping 0 = true ∧ k.looping 1 = (c.looping 0 || c.looping 1) ∧
        (c.looping 0 = true → k.lc1 = new ∧ k.lc0 = c.lc0) ∧ (c.looping 0 = false → k.lc0 = new ∧ k.lc1 = c.lc1))) ∧
  (∀ (s : State) (e t : Nat), threadAt s.sys.dev e = some t → (∀ o ∈ (engineOf s.sys.dev e).ops, o.isPush = false) →
    let c := ctxAt s.sys e
    ∃ n : State, exec (.fenceQ e) s = .next n ∧
      let k := ctxAt n.sys e
      (c.looping 1 = true → c.pc = c.lc1.stop → 1 < c.lc1.count.toNat →
        k.pc = c.lc1.start ∧ k.lc1.count.toNat + 1 = c.lc1.count.toNat ∧ k.looping 1 = true ∧ k.lc0 = c.lc0) ∧
      (c.looping 1 = true → c.pc = c.lc1.stop → c.lc1.count.toNat ≤ 1 → ¬ (c.looping 0 = true ∧ c.pc = c.lc0.stop) →
        k.pc = c.pc + 4 ∧ k.looping 1 = false ∧ k.looping 0 = c.looping 0 ∧ k.lc0 = c.lc0) ∧
      (c.looping 1 = false → c.looping 0 = true → c.pc = c.lc0.stop → 1 < c.lc0.count.toNat →
        k.pc = c.lc0.start ∧ k.lc0.count.toNat + 1 = c.lc0.count.toNat ∧ k.looping 0 = true) ∧
      (c.looping 1 = false → c.looping 0 = false → k = { c with pc := c.pc + 4 }))

/-- R135. -/
def Obligations.IllegalEncodings : Prop :=
  ∀ (s : State) (e t : Nat) (w : BitVec 32) (rd cond : BitVec 5) (an ab acc : BitVec 3) (width mode round : BitVec 2)
    (step_ : BitVec 14) (sa sb : BitVec 7) (v shift st6 : BitVec 6) (sat vec : Bool) (off : BitVec 21),
    (∃ n, exec (.illegalInstruction e w) s = .next n) ∧
    (threadAt s.sys.dev e = some t → (engineOf s.sys.dev e).ops = [] →
      let illegal := fun (i : Instr) (word : Nat) => exec i s = .next (s.excepts s.sys e t word exIllegal none)
      (legalWord w.toNat = false → illegal (.illegalInstruction e w) w.toNat) ∧
      (2 ≤ mode.toNat ∨ (width = 3 ∧ rd.toNat % 2 = 1) →
        illegal (.ld e rd an width mode step_) (wordL 8 rd an width mode step_) ∧
        illegal (.st e rd an width mode step_) (wordL 9 rd an width mode step_)) ∧
      (v.toNat % 8 ≠ 0 → illegal (.macS16 e an ab sa sb v) (wordV 0x10 an ab sa sb v) ∧
        illegal (.macW16 e an ab sa sb v) (wordV 0x11 an ab sa sb v) ∧ illegal (.macS32 e an ab sa sb v) (wordV 0x12 an ab sa sb v) ∧
        illegal (.macW32 e an ab sa sb v) (wordV 0x13 an ab sa sb v)) ∧
      (v.toNat % 4 ≠ 0 → illegal (.cmacS16 e an ab sa sb v) (wordV 0x14 an ab sa sb v)) ∧
      (v.toNat % 32 ≠ 0 → illegal (.bflyS16 e an ab sa sb v) (wordV 0x15 an ab sa sb v)) ∧
      (round = 3 ∨ width = 3 →
        illegal (.acst e an acc shift round sat width vec st6) (wordA 0x18 (BitVec.ofNat 5 (an.toNat * 4)) acc shift round sat width vec st6) ∧
        illegal (.acmv e rd acc shift round sat width) (wordA 0x19 rd acc shift round sat width false 0)) ∧
      (12 ≤ cond.toNat → illegal (.b e cond off) (wordB 0x30 cond off)) ∧
      (2 ≤ rd.toNat → illegal (.bexpArm e rd) (wordR 0x38 0 0 rd 5)))

/-- R140; TRAP is the exception whose detail the spec gives. -/
def Obligations.ExceptionEntry : Prop :=
  ∀ (s : State) (e t : Nat) (k : Tcb) (code : BitVec 5), threadAt s.sys.dev e = some t → tcbOf s.sys.dev t = some k →
    exec (.trap e code) s = .next (s.excepts s.sys e t (wordR 0x38 0 0 code 4) 7 (some code.toNat)) ∧
    ∀ (word x detail : Nat), x < 256 → detail < 256 → word < 2 ^ 32 → t < 2 ^ 32 →
      let d := s.sys.dev
      let q := ogetN d Obj.exceptionQueue (e / 16) 0
      let c := ctxAt s.sys e
      let n := (s.excepts s.sys e t word x (some detail)).sys
      197632 ≤ q → q < 253440 → isWord d q = true → (queueOf d q).isolated = false → ogetN d Obj.thresholdDepth q 0 = 0 →
      cellsHeld d q + 1 ≤ ogetN d Obj.queueDepthLimit q 0 → 1 + ogetN d Obj.classAReserve 0 0 ≤ freeCells d →
      (engineOf n.dev e).thread = none ∧ (engineOf n.dev e).back = some (t, c) ∧ n.mem = s.sys.mem ∧
      (tcbOf n.dev t).map (fun y => (y.state, y.move)) = some (4, none) ∧
      oget n.dev Obj.exceptionsTaken e 0 = oget d Obj.exceptionsTaken e 0 + 1 ∧
      (∃ cells : List Nat, (queueOf n.dev q).items = (queueOf d q).items ++
        [{ plainItem ⟨16, x + detail * 2 ^ 8 + word * 2 ^ 32 + c.pc.toNat * 2 ^ 64 + t * 2 ^ 96⟩ with places := cells }]) ∧
      (k.channel = 0xFFFFFFFF → (0x0611, t, 2 ^ 31 + x) ∈ n.dev.faults.standing ∧ n.dev.chans = d.chans) ∧
      (k.channel ≠ 0xFFFFFFFF → (0x0611, k.channel, x) ∈ n.dev.faults.standing ∧
        ∀ ch, chanOf d k.channel = some ch → (chanOf n.dev k.channel).map (·.state) = some 2)

/-- Table 8.4. -/
def Obligations.SchedulerCalls : Prop :=
  ∀ (s : State) (e t : Nat) (k : Tcb) (rd ra rb : BitVec 5) (u : Sys), threadAt s.sys.dev e = some t →
    let d := s.sys.dev
    let plain := fun (x : Sys) => tcbOf x.dev t = some k ∧ k.trace = false ∧ k.move = none
    let leaves := fun (n : State) (c : Ctx) => (engineOf n.sys.dev e).thread = none ∧ (engineOf n.sys.dev e).back = some (t, c)
    (plain s.sys → (∀ r, k.release = some r → r.kind ≤ 1 → k.missed = true ∨ (d.time.media : Int) ≤ deadlineAt d r.dlTick r.dlOff) →
      ∃ n : State, exec (.exit e) s = .next n ∧ leaves n { ctxAt s.sys e with pc := BitVec.ofNat 32 k.entryPc } ∧
        (tcbOf n.sys.dev t).map (fun y => (y.state, y.release)) =
          some (if (entriesOf d t).any (fun r => r.kind == 6 || bitSet k.waitMask r.kind) then 2 else 1, none) ∧ n.sys.mem = s.sys.mem) ∧
    (plain s.sys → (∀ h, readyOf d h = []) →
      ∃ n : State, exec (.yield e) s = .next n ∧ threadAt n.sys.dev e = some t ∧ ctxAt n.sys e = (ctxAt s.sys e).advance ∧
        tcbOf n.sys.dev t = some k ∧ (∀ h, readyOf n.sys.dev h = [])) ∧
    (plain s.sys → firstFor (putResume d t { k with state := 2 }) e t = false →
      ∃ n : State, exec (.yield e) s = .next n ∧ leaves n (ctxAt s.sys e).advance ∧
        (tcbOf n.sys.dev t).map (·.state) = some 2 ∧ ∃ r ∈ entriesOf n.sys.dev t, r.kind = 6) ∧
    (Runs s e t (needRegs [rd, ra]) u → plain u →
      let mask := ((ctxAt u e).reg ra).toNat % 256
      let first := (sortReady u.dev (entriesOf u.dev t)).find? (fun r => bitSet mask r.kind)
      (∀ r, first = some r → ∃ n : State, exec (.wait e rd ra) s = .next n ∧ threadAt n.sys.dev e = threadAt u.dev e ∧
        (rd ≠ 0 → (ctxAt n.sys e).reg rd = BitVec.ofNat 64 (r.kind + r.value * 2 ^ 32)) ∧
        (∀ y ∈ entriesOf n.sys.dev t, y.order ≠ r.order)) ∧
      (first = none → ∃ n : State, exec (.wait e rd ra) s = .next n ∧ leaves n (ctxAt u e).advance ∧
        (tcbOf n.sys.dev t).map (fun y => (y.state, y.hold, y.release)) = some (1, some (.kinds mask rd), k.release))) ∧
    (Runs s e t (needRegs [rd, ra, rb]) u → rd ≠ 0 →
      let c := ctxAt u e
      let x := (c.reg ra).toNat
      let answers := fun (n : State) (v : Nat) => exec (.post e rd ra rb) s = .next n ∧ (ctxAt n.sys e).reg rd = BitVec.ofNat 64 v
      (tcbOf u.dev x = none → ∃ n : State, answers n 2 ∧ n.sys.dev.stk = u.dev.stk) ∧
      (∀ y, tcbOf u.dev x = some y → y.trace = false →
        let refused := 8176 ≤ (readyOf u.dev (y.home / 16)).length ∨
          (y.state = 1 ∧ y.wants 4 = true ∧ 512 ≤ runnableOn u.dev y.home)
        (refused → ∃ n : State, answers n 1 ∧ n.sys.dev.stk = u.dev.stk ∧
          oget n.sys.dev Obj.postsRefused (y.home / 16) 0 = oget u.dev Obj.postsRefused (y.home / 16) 0 + 1) ∧
        (¬ refused → ∃ n : State, answers n 0 ∧
          ∃ r ∈ entriesOf n.sys.dev x, r.kind = 4 ∧ r.value = (c.reg rb).toNat % 2 ^ 32)))

/-- R171, on what DISPATCH takes its entry from (StokerEvents). -/
def Obligations.ReadyOrder : Prop :=
  (∀ (d : Dev) (h : Nat),
    let class_ := fun (r : Ready) => if r.kind = 0 then 0 else if r.kind = 6 then 1 else 2
    let key := fun (r : Ready) => if r.kind = 0 ∨ r.kind = 6 then 0 else r.key
    let notAfter := fun (a b : Ready) => prioOf d a.thread < prioOf d b.thread ∨ (prioOf d a.thread = prioOf d b.thread ∧
      (class_ a < class_ b ∨ (class_ a = class_ b ∧ (key a < key b ∨ (key a = key b ∧ a.order ≤ b.order)))))
    List.Pairwise notAfter (dispatchable d h) ∧ ∀ l : List Ready, (sortReady d l).Perm l ∧ List.Pairwise notAfter (sortReady d l)) ∧
  (∀ (d : Dev) (t kind value dlTick dlOff : Nat) (k : Tcb), ∃ r : Ready,
    readyOf (putEntry d t kind value dlTick dlOff k).1 (k.home / 16) = readyOf d (k.home / 16) ++ [r] ∧
    r.thread = t ∧ r.kind = kind ∧ r.order = d.stk.order ∧
    r.key = (if k.byDeadline then keyOfDeadline d dlTick dlOff else keyOfNow d))

/-- R142, R170, R172, R176. -/
def Obligations.StokerEvents : Prop :=
  (∀ (s : State) (e t : Nat) (c : Ctx) (k : Tcb), (engineOf s.sys.dev e).back = some (t, c) → tcbOf s.sys.dev t = some k →
    ∃ n : State, exec (.contextWriteback e) s = .next n ∧ (engineOf n.sys.dev e).back = none ∧
      tcbOf n.sys.dev t = some { k with ctx := c } ∧ (engineOf n.sys.dev e).thread = (engineOf s.sys.dev e).thread) ∧
  (∀ (s : State) (e : Nat) (r : Ready), hearthRuns s.sys.dev (e / 16) = true → e < enginesOf s.sys.dev →
    (dispatchable s.sys.dev (e / 16)).find? (fun x => (tcbOf s.sys.dev x.thread).any (fun k => bitSet k.mask (e % 16))) = some r →
    ∃ n : State, exec (.candidatePreload e) s = .next n ∧
      (engineOf n.sys.dev e).cand = (tcbOf n.sys.dev r.thread).map (fun k => (r.thread, k.ctx)) ∧
      (engineOf n.sys.dev e).cand ≠ none ∧ n.sys.dev.stk.ready = s.sys.dev.stk.ready) ∧
  (∀ (s : State) (h : Nat) (r : Ready) (l : List Ready) (k : Tcb),
    let d := s.sys.dev
    hearthRuns d h = true → dispatchable d h = r :: l → tcbOf d r.thread = some k → bitSet k.mask (k.home % 16) = true →
    k.home < enginesOf d → (engineOf d k.home).thread = none → k.trace = false → k.hold = none →
    (∀ x, (engineOf d x).ops = [] ∧ (engineOf d x).copies = [] ∧ (engineOf d x).back = none) →
    ∃ n : State, exec (.dispatch h) s = .next n ∧ (engineOf n.sys.dev k.home).thread = some r.thread ∧
      (tcbOf n.sys.dev r.thread).map (fun y => (y.state, y.dispatches)) = some (3, k.dispatches + 1) ∧
      (∀ y ∈ readyOf n.sys.dev (k.home / 16), y.order ≠ r.order) ∧ n.sys.mem = s.sys.mem ∧
      (engineOf n.sys.dev k.home).ctx.pc = (if r.kind = 6 then k.ctx.pc else BitVec.ofNat 32 k.entryPc) ∧
      (engineOf n.sys.dev k.home).ctx.g = k.ctx.g ∧ (engineOf n.sys.dev k.home).ctx.lmwin = BitVec.ofNat 32 k.lmWindow) ∧
  (∀ (s : State) (p m : Nat) (q : Post) (k : Tcb),
    let d := s.sys.dev
    latchOf d p = [q] → tcbOf d q.thread = some k → k.trace = false → q.kind ≠ 3 →
    (q.kind ≤ 1 → k.behind = false ∧ k.releases < 8) →
    (sget d.stk.owed p 0 = 0 → exec (.latchRetry p) s = .next s) ∧
    (sget d.stk.owed p 0 = m + 1 → (postBlocked d k q.kind = false → ∃ n : State, exec (.latchRetry p) s = .next n ∧ latchOf n.sys.dev p = [] ∧
      ∃ r ∈ entriesOf n.sys.dev q.thread, r.kind = q.kind ∧ r.value = q.value % 2 ^ 32) ∧
    (postBlocked d k q.kind = true → ∃ n : State, exec (.latchRetry p) s = .next n ∧ latchOf n.sys.dev p = [q] ∧ sget n.sys.dev.stk.owed p 0 = m ∧
      n.sys.dev.stk.ready = d.stk.ready ∧
      oget n.sys.dev Obj.hardwareRefusals (k.home / 16) 0 = oget d Obj.hardwareRefusals (k.home / 16) 0 + 1))) ∧
  (∀ (s : State) (t : Nat) (k : Tcb) (r : Ready),
    let d := s.sys.dev
    tcbOf d t = some k → k.trace = false → k.release = some r → r.kind ≤ 1 → k.missed = false → entriesOf d t = [] →
    deadlineAt d r.dlTick r.dlOff ≤ d.time.nextTick →
    ∃ n : State, exec (.deadlineMiss t) s = .next n ∧
      tcbOf n.sys.dev t = some { k with missed := true, misses := k.misses + 1 } ∧ n.sys.dev.engines = d.engines ∧
      (∀ c, chanOf d k.channel = some c → (chanOf n.sys.dev k.channel).map (·.misses) = some (c.misses + 1)))

/-- Table 8.5 with its statuses: 0 DONE, 4 CAPACITY, 5 DEFICIT. -/
def Obligations.StokerCommands : Prop :=
  (∀ (d : Dev) (e : Nat), capacityOf d e + deficitOf d e = allocatedOf d e + freeOf d e) ∧
  (∀ (s : State) (port : Option Nat) (r : StokerRec),
    let d := s.sys.dev
    let t := r.thread
    let result := fun (n : State) => match port with
      | none => n.sys.dev.stk.result
      | some h => sget n.sys.dev.stk.resultH h 0
    let open_ := match port with
      | none => Served d Obj.stokerCommand
      | some h => h < hearthsOf d
    let formed := r.prio < 32
    let done := fun (i : Instr) (n : State) => exec i s = .next n ∧ result n = t * 2 ^ 32
    open_ →
    (formed → windowOk r.lmWindow = true → r.target < enginesOf d → bitSet r.mask (r.target % 16) = true → t < 131072 →
      r.entryPc < 1048576 → r.entryPc % 4 = 0 → tcbOf d t = none →
      (deficitOf d r.target = 0 → r.cost ≤ freeOf d r.target → runnableOn d r.target < 512 →
        ∃ n : State, done (.create port r) n ∧ (tcbOf n.sys.dev t).map (fun k => (k.state, k.home, k.cost, k.prio)) =
          some (1, r.target, r.cost, r.prio) ∧ (tcbOf n.sys.dev t).map (fun k => (k.entryPc, k.mask, k.flags, k.channel, k.ctx.g)) =
          some (r.entryPc, r.mask, r.flags % 32, 0xFFFFFFFF, Ctx.reset.g)) ∧
      (deficitOf d r.target ≠ 0 → ∃ n : State, exec (.create port r) s = .next n ∧ result n = 5 + t * 2 ^ 32 ∧
        n.sys.dev.stk.tcbs = d.stk.tcbs) ∧
      (deficitOf d r.target = 0 → freeOf d r.target < r.cost → ∃ n : State, exec (.create port r) s = .next n ∧
        result n = 4 + t * 2 ^ 32 ∧ n.sys.dev.stk.tcbs = d.stk.tcbs)) ∧
    (∀ k, tcbOf d t = some k → formed → bitSet r.mask (k.home % 16) = true → k.channel = 0xFFFFFFFF → r.cost ≤ k.cost →
      ∃ n : State, done (.set port r) n ∧
        tcbOf n.sys.dev t = some { k with prio := r.prio, mask := r.mask, flags := r.flags % 32, relDl := r.relDl, cost := r.cost }) ∧
    (∀ k, tcbOf d t = some k → r.target < enginesOf d → r.target ≠ 255 → r.target ≠ k.home → r.target / 16 = k.home / 16 →
      r.mask = 0 → k.move = none → k.trace = false → deficitOf d r.target = 0 → k.cost ≤ freeOf d r.target →
      runnableOn d r.target < 512 →
      (k.state = 1 ∨ k.state = 2 → ∃ n : State, done (.migrate port r) n ∧
        (tcbOf n.sys.dev t).map (fun y => (y.home, y.cost, y.move)) = some (r.target, k.cost, none) ∧
        (tcbOf n.sys.dev t).map (·.mask) = some (if bitSet k.mask (r.target % 16) then k.mask else 2 ^ (r.target % 16))) ∧
      (k.state = 3 → ∃ n : State, done (.migrate port r) n ∧ tcbOf n.sys.dev t =
        some { k with move := some (r.target, if bitSet k.mask (r.target % 16) then k.mask else 2 ^ (r.target % 16)), via := port })) ∧
    (∀ k, tcbOf d t = some k → k.state = 4 → k.trace = false →
      ∃ n : State, done (.resume port r) n ∧ (k.release.isSome = true → (tcbOf n.sys.dev t).map (·.state) = some 2 ∧
          ∃ x ∈ entriesOf n.sys.dev t, x.kind = 6) ∧
        (k.release = none → (tcbOf n.sys.dev t).map (·.state) =
          some (if (entriesOf d t).any (fun x => k.wants x.kind) then 2 else 1))) ∧
    (∀ k, tcbOf d t = some k → k.channel = 0xFFFFFFFF →
      ∃ n : State, done (.remove port r) n ∧ tcbOf n.sys.dev t = none ∧ (∀ x ∈ readyOf n.sys.dev (k.home / 16), x.kind ≤ 6 → x.thread ≠ t) ∧
        ∀ e, threadAt n.sys.dev e ≠ some t) ∧
    (t < enginesOf d → ∃ n : State, done (.clearStatistics port r) n ∧ sfind n.sys.dev.stk.waits t = none ∧
        ogetN n.sys.dev Obj.readyDepthMax t 0 = 0)) ∧
  (∀ (s : State) (t e mask : Nat) (k : Tcb), tcbOf s.sys.dev t = some k → k.state = 1 ∨ k.state = 2 → k.move = some (e, mask) →
    k.home / 16 = e / 16 → k.trace = false →
    ∃ n : State, exec (.migrationMove t) s = .next n ∧
      (tcbOf n.sys.dev t).map (fun y => (y.home, y.mask, y.move)) = some (e, mask, none))

/-- R180 to R184, R198, R199. -/
def Obligations.GaugeAndSupply : Prop :=
  ∀ (s : State),
    let d := s.sys.dev
    let a := d.stk.avs
    (∀ h g, h < hearthsOf d → g < 65536 → sget d.stk.gaugeAt h 0 + usec (ogetN d Obj.gaugePeriod 0 0) ≤ now d →
      ∃ n : State, exec (.gaugeReading h g) s = .next n ∧ sget n.sys.dev.stk.gaugeAt h 0 = now d ∧
      (∀ e, e / 16 = h → e < enginesOf d → capacityOf n.sys.dev e = g * 985 / 10) ∧
      ogetN n.sys.dev Obj.gaugeMin h 0 = (if ogetN d Obj.gaugeMin h 0 = 0 then g else min g (ogetN d Obj.gaugeMin h 0))) ∧
    (∀ e since, sfind d.stk.deficit e = some (since, false) → canReach d (since + msec (ogetN d Obj.deficitAlarmTime 0 0)) = true →
      ∃ n : State, exec (.deficitStanding e) s = .next n ∧ sfind n.sys.dev.stk.deficit e = some (since, true) ∧
        oget n.sys.dev Obj.faultDetected 0 0 = oget d Obj.faultDetected 0 0 + 1) ∧
    (quenched d = false → d.start.resetLow = false → a.lastDecision + msec (ogetN d Obj.avsInterval 0 0) ≤ now d → a.waiting = none →
      let step_ := ogetN d Obj.avsStep 0 0
      let most := ogetN d Obj.avsMax 0 0
      (a.command < most → a.ports = [] → (∃ e < enginesOf d, deficitOf d e ≠ 0) →
        ∃ n : State, exec .avsDecision s = .next n ∧ n.sys.dev.stk.avs.command = min most (a.command + step_) ∧
          n.sys.dev.stk.avs.waiting = some (now d) ∧ n.sys.dev.out = .avs (min most (a.command + step_)) :: d.out) ∧
      (most < a.command → ∃ n : State, exec .avsDecision s = .next n ∧
        n.sys.dev.stk.avs.command = max most (a.command - step_) ∧ n.sys.dev.stk.avs.waiting = some (now d))) ∧
    (∀ mv, a.waiting.isSome = true → mv = a.command → ∃ n : State, exec (.avsReport mv) s = .next n ∧
      n.sys.dev.stk.avs.waiting = none ∧ n.sys.dev.stk.avs.reported = mv ∧ n.sys.dev.stk.avs.command = mv) ∧
    (∀ t, a.waiting = some t → canReach d (t + usec 2000) = true → ∃ n : State, exec .avsFailure s = .next n ∧
      n.sys.dev.stk.avs.command = a.reported ∧ n.sys.dev.stk.avs.waiting = none ∧
      oget n.sys.dev Obj.avsFailures 0 0 = oget d Obj.avsFailures 0 0 + 1) ∧
    (∀ q, Served d Obj.queueResetObj → 197632 ≤ q → q < 253440 → (queueOf d q).isolated = true →
      ∃ n : State, exec (.queueReset q) s = .next n ∧ (queueOf n.sys.dev q).isolated = false ∧ (queueOf n.sys.dev q).items = [] ∧
        (queueOf n.sys.dev q).last = 0 ∧ (queueOf n.sys.dev q).mark = none ∧ n.sys.dev.dict.abort = 0) ∧
    (d.start.resetLow = false → quenched d = false →
      (d.start.state ≠ 1 → ∃ n : State, exec .cellAudit s = .next n ∧
        oget n.sys.dev Obj.cellAuditMismatches 0 0 = oget d Obj.cellAuditMismatches 0 0 + 1) ∧
      (d.start.state = 1 → d.faults.blocks = [] → ∃ n : State, exec .cellAudit s = .next n ∧
        n.sys.dev.start.state = 2 ∧ n.sys.dev.start.due = some 8))

/-- R29, R31, R87, R164, R203, R204. -/
def Obligations.TicksAndRounds : Prop :=
  (∀ s : State,
    let d := s.sys.dev
    let t := d.time.advanceMedia (slewRate d) (d.time.nextTick - d.time.media)
    let stamp := d.time.stamped.getD ⟨d.time.gen, t.net⟩
    let apart := ((t.media : Int) - stamp.t).natAbs
    let n := if d.time.ticking then d.time.tick + 1 else d.time.firstTick
    d.time.started = true → d.start.resetLow = false → d.start.state ≠ 4 → d.start.ready = false → d.time.media ≤ d.time.nextTick →
    (apart ≤ 100000000 * 65536 ∨ d.time.ticking = false → ∃ w : State, exec .tickStart s = .next w ∧
      w.sys.dev.time.ticking = true ∧ w.sys.dev.time.tick = n ∧ w.sys.dev.time.tickStart = d.time.nextTick ∧
      w.sys.dev.time.media = d.time.nextTick ∧ w.sys.dev.time.nextTick = d.time.nextTick + 2500000 * 65536 ∧
      w.sys.dev.time.stamps.head? = some (n, stamp) ∧ w.sys.dev.time.net = t.net ∧ w.sys.dev.time.stamped = none ∧ w.sys.dev.dict = d.dict) ∧
    (100000000 * 65536 < apart → d.time.ticking = true → ∃ w : State, exec .tickStart s = .next w ∧
      w.sys.dev.time.tick = n ∧ w.sys.dev.time.media = stamp.t ∧ w.sys.dev.time.net = t.net ∧
      (d.time.stamped = none → w.sys.dev.time.mediaLocked = true) ∧ w.sys.dev.time.stamps.head? = some (n, stamp) ∧
      w.sys.dev.time.nextTick % (2500000 * 65536) = 0 ∧ stamp.t + 2500000 * 65536 ≤ w.sys.dev.time.nextTick ∧
      w.sys.dev.time.nextTick < stamp.t + 2 * (2500000 * 65536) ∧
      (w.sys.dev.time.nextTick / (2500000 * 65536) : Int) + w.sys.dev.time.tickOffset = (n : Int) + 1 ∧
      oget w.sys.dev Obj.discontinuityCount 0 0 = oget d Obj.discontinuityCount 0 0 + 1)) ∧
  (∀ (d : Dev) (n : Nat) (c : Commit), d.dict.units = [] → d.dict.commit = some c →
    (n < c.tick → epochTick n d = d) ∧
    (c.tick ≤ n → (epochTick n d).dict.epoch = c.epoch ∧ (epochTick n d).dict.commit = none)) ∧
  (∀ (s : State) (c : Nat) (x : Channel),
    let d := s.sys.dev
    let t := d.time.tick
    let z := sealedSlot d x (t - 8)
    d.chans = [(c, x)] → d.time.ticking = true → t = x.banks.doneTick + 1 → x.openTick + 8 ≤ t → x.recorded = false →
    x.banks.filling ≤ t - 8 →
    ∃ w : State, exec .bankSeal s = .next w ∧
      (chanOf w.sys.dev c).map (fun y => (y.banks.nextSeal, y.banks.doneTick)) = some (t - 7, t) ∧
      (chanOf w.sys.dev c).map (·.banks.lastDecoded) = some (if z.src = 1 then some z else x.banks.lastDecoded) ∧
      (1 ≤ z.src → z.src ≤ 3 →
        oget w.sys.dev Obj.bankSlotCounters c z.src = oget d Obj.bankSlotCounters c z.src + 1) ∧
      oget w.sys.dev Obj.bankSlotCounters c 0 = oget d Obj.bankSlotCounters c 0 + (if z.src = 0 then 2 else 1)) ∧
  (∀ (d : Dev) (x : Channel) (t : Nat) (y : BankSlot),
    (sfind x.banks.slots t = some y → sealedSlot d x t = y) ∧
    (sfind x.banks.slots t = none → t < firstFrameTick x → (sealedSlot d x t).src = 3 ∧ ∀ v ∈ (sealedSlot d x t).samples, v = 0) ∧
    (sfind x.banks.slots t = none → firstFrameTick x ≤ t → x.banks.lastDecoded = some y → (sealedSlot d x t).src = 2 ∧
      ∀ i < (if (if t < x.rateTick then x.rateWas else x.rate16) then 40 else 20), (∀ v ∈ y.samples, -32768 < v ∧ v < 32768) → (sealedSlot d x t).samples[i]? =
        some ((y.samples.getD i 0).tdiv (2 ^ (x.banks.run + 1))))) ∧
  (∀ (s : State) (n r : Nat),
    let d := s.sys.dev
    let p := oaParams d n r
    let w := if p.mode = 2 then 64 else 32
    let l := (byMember (oaEntries d n r)).filter OaEntry.active
    let sum := (sumEntries w l (List.replicate p.count 0, 0)).1
    d.time.ticking = true → 8192 ≤ n → n < 8704 → p.enable = true → sfind (oaOf d n).results r = none → r ≤ curTick d + 7 →
    r + p.lag ≤ curTick d → curTick d < r + 32 → p.count * w ≤ 1536 →
    ∃ (u : State) (res : OaResult), exec (.oaRoundClose n r) s = .next u ∧ sfind (oaOf u.sys.dev n).results r = some res ∧
      getF res.slot OaSlot.count = l.length % 65536 ∧ getF res.slot OaSlot.missing = oaMissing d n r % 65536 ∧
      getF res.slot OaSlot.closed = 1 ∧ res.poison = l.any OaEntry.poison ∧
      (∀ j < p.count, bitsAt res.slot (512 + w * j) w = toUnsigned w (sum.getD j 0)) ∧
      oget u.sys.dev Obj.oaCounters (253440 + n) 8 = oget d Obj.oaCounters (253440 + n) 8 + 1) ∧
  (∀ a b : List OaEntry, a.Perm b → (a.map OaEntry.member).Nodup → byMember a = byMember b) ∧
  (∀ (w : Nat) (a b : Int), 0 < w → (addSat w [a] [b]).1 = [max (-(2 ^ (w - 1))) (min (2 ^ (w - 1) - 1) (a + b))])

/-- R24, R25, R30, R33, R34, Table 2.4; times in 2⁻¹⁶ ns. -/
def Obligations.TimeSlots : Prop :=
  ∀ (s : State) (i : Nat),
    let d := s.sys.dev
    let t := d.time
    let x := slotAt d i
    let o := slotAt d (1 - i)
    let ends := fun (c : Instr) (p : Dev → Prop) => ∃ w : State, exec c s = .next w ∧ p w.sys.dev
    let apart := ((t.media : Int) - t.net).natAbs
    let close := (x.offset - o.offset).natAbs < 1000 * 65536
    t.slots.length = 2 → i < 2 →
    (t.started = true → apart < 10 * 65536 → ends .mediaLock (fun n =>
      n.time.mediaLocked = true ∧ n.time.net = t.net ∧ n.time.media = t.media)) ∧
    (x.state = 3 → ∀ t0, x.agree = some t0 → canReach d (t0 + secs (ogetN d Obj.suspectClearTime 0 0)) = true →
      ends (.suspectClearTimeExpiry i) (fun n => (slotAt n i).state = 2 ∧ (slotAt n i).agree = none)) ∧
    (x.state = 2 ∨ x.state = 3 →
      ends (.slotLost i) (fun n => (slotAt n i).state = 4 ∧ (slotAt n i).master = none ∧ (slotAt n (1 - i)).state = o.state ∧
        (t.selected = i → t.state = 2 → o.state ≠ 2 → n.time.state = 4 ∧ n.time.awaits = false) ∧
        (t.selected = i → t.state = 2 → o.state = 2 → close →
          n.time.state = 2 ∧ n.time.selected = 1 - i ∧ n.time.slew = o.offset) ∧
        (t.selected = i → t.state = 2 → o.state = 2 → ¬ close → n.time.state = 4 ∧ n.time.awaits = true) ∧
        (t.selected ≠ i → n.time.state = t.state ∧ n.time.selected = t.selected))) ∧
    (Served d Obj.domainSwitchCommand →
      (x.state = 2 ∨ x.state = 3 →
        ends (.domainSwitchSlew i) (fun n => n.time.selected = i ∧ n.time.slew = x.offset ∧ n.time.state = 2 ∧
          n.time.awaits = false ∧ (slotAt n i).state = 2 ∧ n.time.net = t.net ∧ n.time.gen = t.gen ∧ n.dict.abort = 0) ∧
        ends (.domainSwitchStep i) (fun n => n.time.selected = i ∧ n.time.net = ((t.net : Int) + x.offset).toNat ∧
          n.time.gen = (t.gen + 1) % 2 ^ 32 ∧ n.time.state = 2 ∧ n.time.slew = 0 ∧ n.time.mediaLocked = false ∧
          (slotAt n i).offset = 0 ∧ (slotAt n (1 - i)).offset = o.offset - x.offset ∧ (slotAt n i).state = 2 ∧
          n.time.media = t.media ∧ n.dict.abort = 0)) ∧
      (x.state ≠ 2 → x.state ≠ 3 →
        ends (.domainSwitchSlew i) (fun n => n.time = t ∧ n.dict.abort = 0x08000022) ∧
        ends (.domainSwitchStep i) (fun n => n.time = t ∧ n.dict.abort = 0x08000022)) ∧
      ends .domainSwitchHoldover (fun n => n.time.state = 4 ∧ n.time.awaits = true ∧ n.time.slew = 0 ∧ n.dict.abort = 0) ∧
      ends (.domainSwitchClearSuspect i) (fun n => n.dict.abort = 0 ∧
        (x.state = 3 → (slotAt n i).state = 2) ∧ (x.state ≠ 3 → n.time = t))) ∧
    (∀ m, x.master = some m → x.state ≠ 0 → (sfind d.fwd.ports m.port).any Port.linkUp = true →
      (ogetN d Obj.slotProfile i 0 = 3 → 2 ∈ x.grants) →
      ends (.delayReqTx i) (fun n => (slotAt n i).delaySeq = (x.delaySeq + 1) % 65536 ∧
        (slotAt n i).delay.map (fun y => (y.seq, y.stamp)) =
          some (x.delaySeq, ((t.net / 16384 * 16384 : Nat) + oget d Obj.portEgressLatency 0 m.port * 65536 / 1000 : Int).toNat) ∧
        n.out = .mac m.port 0x88F7 (octets (delayFrame d i m.port)) :: d.out ∧ n.time.net = t.net ∧
        oget n Obj.txCounters m.port 0 = oget d Obj.txCounters m.port 0 + 1))

/-- R35, R36, R38, R39; times in 2⁻¹⁶ ns. -/
def Obligations.TriggersAndCaptures : Prop :=
  ∀ (s : State) (k : Nat),
    let d := s.sys.dev
    let x := triggerOf d k
    let pin := ogetN d Obj.trigOutPin k 0
    let active := ogetN d Obj.trigPolarity k 0 ≠ 1
    let ends := fun (c : Instr) (p : Dev → Prop) => ∃ w : State, exec c s = .next w ∧ p w.sys.dev
    d.start.resetLow = false → d.start.state ≠ 4 →
    (k < 16 → x.armed = true → (x.late = true ∨ x.next ≤ (if ogetN d Obj.trigTimeBase k 0 = 1
        then curTick d * (2500000 * 65536) + (if d.time.ticking then min (2500000 * 65536 - 1) (d.time.media - d.time.tickStart) else 0) else d.time.net)) →
      let once := decide (ogetN d Obj.trigMode k 0 = 1)
      let fired := fun (n : Dev) => (triggerOf n k).armed = !once ∧ (triggerOf n k).done = once ∧ (triggerOf n k).late = false ∧
        (triggerOf n k).next = x.next + ogetN d Obj.trigPeriod k 0 * 65536 ∧
        oget n Obj.trigFired k 0 = oget d Obj.trigFired k 0 + 1 ∧
        oget n Obj.trigLate k 0 = oget d Obj.trigLate k 0 + (if x.late then 1 else 0) ∧ n.time.net = d.time.net
      (ogetN d Obj.trigTarget k 0 = 1 → pin < d.time.pins.length → ends (.triggerFire k) (fun n => fired n ∧
        (n.time.pins[pin]?).map (·.level) = some (decide active) ∧ (triggerOf n k).pin = some pin ∧ n.line = d.line ∧ n.stk = d.stk ∧
        (triggerOf n k).pulseEnd = some (d.time.elapsed + ogetN d Obj.trigWidth k 0 * 65536))) ∧
      (ogetN d Obj.trigTarget k 0 = 2 → ends (.triggerFire k) (fun n => fired n ∧ n.time.pins = d.time.pins ∧ n.stk = d.stk ∧
        ∃ e : EdgeReset, n.line.edges = d.line.edges ++ [e] ∧ e.mask = ogetN d Obj.trigConverterMask k 0)) ∧
      (ogetN d Obj.trigTarget k 0 = 4 → ∀ q, tcbOf d (ogetN d Obj.trigThreadNumber k 0) = some q → q.trace = false →
        sfind d.stk.latches (32 + k) = none → postBlocked d q 5 = false → ends (.triggerFire k) (fun n => fired n ∧
          n.time.pins = d.time.pins ∧ n.line = d.line ∧
          ∃ r ∈ entriesOf n (ogetN d Obj.trigThreadNumber k 0), r.kind = 5 ∧ r.value = k))) ∧
    (∀ due pin, x.pulseEnd = some due → x.pin = some pin → canReach d due = true → pin < d.time.pins.length → ends (.triggerPulseEnd k) (fun n =>
      (triggerOf n k).pulseEnd = none ∧ (n.time.pins[pin]?).map (·.level) = (d.time.pins[pin]?).map (·.rest))) ∧
    (d.time.ppsNext ≤ d.time.net → ends .ppsOutPulse (fun n =>
      let m := ogetN d Obj.ppsOutMode 0 0
      n.time.ppsNext = d.time.ppsNext + 1000000000 * 65536 ∧
      (m = 2 ∨ (m = 1 ∧ d.time.state ≠ 0) → n.time.ppsOut = true ∧ (n.time.ppsEnd.isSome = true)) ∧
      (m = 0 ∨ (m = 1 ∧ d.time.state = 0) → n.time.ppsOut = d.time.ppsOut ∧ n.time.ppsEnd = d.time.ppsEnd))) ∧
    (∀ due, d.time.ppsEnd = some due → canReach d due = true → ends .ppsOutPulseEnd (fun n =>
      n.time.ppsOut = false ∧ n.time.ppsEnd = none)) ∧
    (∀ rising : Bool, k < 5 → bitSet (ogetN d Obj.capEdge k 0) (if rising then 0 else 1) = true →
      let c := captureOf d k
      (∀ t0, c.lastEdge = some t0 → t0 + 100 * 65536 ≤ d.time.elapsed) →
      (c.records.length < 64 → ends (.timeInEdge k rising 0) (fun n => ∃ r : Nat,
        captureOf n k = { records := c.records ++ [r], seq := (c.seq + 1) % 65536, lost := false, lastEdge := some n.time.elapsed } ∧
        getF r CaptureRec.sequence = c.seq % 65536 ∧ getF r CaptureRec.edge = (if rising then 1 else 2) ∧
        getF r CaptureRec.source = k ∧ getF r CaptureRec.lostBefore = (if c.lost then 1 else 0) ∧
        oget n Obj.capCaptured k 0 = oget d Obj.capCaptured k 0 + 1)) ∧
      (64 ≤ c.records.length → ends (.timeInEdge k rising 0) (fun n => (captureOf n k).records = c.records ∧
        (captureOf n k).lost = true ∧ oget n Obj.capLost k 0 = oget d Obj.capLost k 0 + 1))) ∧
    (k < 5 → ServedRead d Obj.capRecords → ends (.captureRecordsRead k) (fun n => (captureOf n k).records = [] ∧ n.dict.abort = 0 ∧
      n.out = .answer 0 (joinBytes ((captureOf d k).records.map (bytesOf 24))) :: d.out))

/-- R41, R42, R47 to R49, R53, R56, R62, R184. -/
def Obligations.LinksAndPauses : Prop :=
  ∀ (s : State) (p q : Nat),
    let d := s.sys.dev
    let x := pauseOf d p q
    let ends := fun (c : Instr) (f : Dev → Prop) => ∃ w : State, exec c s = .next w ∧ f w.sys.dev
    d.start.resetLow = false → d.start.state ≠ 4 →
    (∀ g mode, Served d Obj.laneGroupMode → g < 8 → 4 * g < lanesOf d → mode ≤ 5 → (lanesOf d ≠ 2 ∨ mode = 1 ∨ mode = 3 ∨ mode = 4) →
      ((∀ i < 4, oget d Obj.adminUp (4 * g + i) 0 = 0) → ends (.laneGroupModeWrite g mode) (fun n =>
        groupMode n g = mode ∧ n.dict.abort = 0)) ∧
      ((∃ i < 4, oget d Obj.adminUp (4 * g + i) 0 ≠ 0) → ends (.laneGroupModeWrite g mode) (fun n =>
        n.dict.obj = d.dict.obj ∧ n.dict.abort = 0x08000022))) ∧
    (Served d Obj.adminUp → p < 32 → portExists d p = true →
      (720 ≤ d.stk.avs.reported → 720 ≤ d.stk.avs.command → ends (.adminUpWrite p 1) (fun n => oget n Obj.adminUp p 0 = 1 ∧ n.dict.abort = 0)) ∧
      (d.stk.avs.reported < 720 ∨ d.stk.avs.command < 720 → ends (.adminUpWrite p 1) (fun n =>
        n.dict.obj = d.dict.obj ∧ p ∈ n.stk.avs.ports ∧ n.dict.abort = 0)) ∧
      ends (.adminUpWrite p 0) (fun n => oget n Obj.adminUp p 0 = 0 ∧ (portOf n p).linkUp = false ∧ p ∉ n.stk.avs.ports ∧
        n.dict.abort = 0)) ∧
    (portExists d p = true → d.twin.state < 2 →
      (oget d Obj.adminUp p 0 = 1 → laneFailed d p = false → d.start.state < 2 → (blockSt d 1 p).phase ≠ 1 →
        ends (.linkStateChange p true) (fun n => (portOf n p).linkUp = true ∧ (portOf n p).pauses = (portOf d p).pauses)) ∧
      ((portOf d p).linkUp = true → ends (.linkStateChange p false) (fun n => (portOf n p).linkUp = false ∧
        oget n Obj.linkDownCount p 0 = oget d Obj.linkDownCount p 0 + 1))) ∧
    (x.from_.isSome = true → canReach d x.until_ = true → ends (.pauseExpiry p q) (fun n =>
      pausedNow n p q = false ∧ (pauseOf n p q).from_ = none ∧ (pauseOf n p q).ignore = x.ignore)) ∧
    (∀ t limit, p < 32 → q < 8 → x.from_ = some t →
      let all := ogetN d Obj.pauseMode p 0 = 1
      let broken := fun (n : Dev) (q : Nat) =>
        let age := ogetN d Obj.damperAgeLimit p q
        pauseOf n p q = { from_ := none, until_ := 0, ignore := some (n.time.elapsed + msec (ogetN d Obj.damperIgnoreTime 0 0)) } ∧
        oget n Obj.damperBreaks p q = oget d Obj.damperBreaks p q + 1 ∧
        (∀ i, i ∈ (queueOf n (196608 + 8 * p + q)).items ↔ i ∈ (queueOf d (196608 + 8 * p + q)).items ∧
          (age ≠ 0 → ∀ f, i.info = .frame f → n.time.elapsed ≤ f.stamp + msec age))
      (all → (∀ i < 8, limit ≤ ogetN d Obj.pauseWatchdogLimit p i) ∧ ∃ i < 8, limit = ogetN d Obj.pauseWatchdogLimit p i) →
      (¬ all → limit = ogetN d Obj.pauseWatchdogLimit p q) →
      t + msec limit < x.until_ → canReach d (t + msec limit) = true → ends (.damperBreak p q) (fun n =>
        (all → ∀ i < 8, broken n i) ∧ (¬ all → broken n q ∧ ∀ i, i ≠ q → pauseOf n p i = pauseOf d p i))) ∧
    (∀ t, x.ignore = some t → canReach d t = true → ends (.damperIgnoreEnd p q) (fun n => (pauseOf n p q).ignore = none ∧
      (pauseOf n p q).from_ = x.from_ ∧ (pauseOf n p q).until_ = x.until_)) ∧
    (let k := if ogetN d Obj.pauseMode p 0 = 1 then 8 else q;
      sendsPause d p k = true → ogetN d Obj.xoffCells p 0 < ingressCells d p k → ogetN d Obj.xonCells p 0 ≤ ingressCells d p k →
      (∀ t, sfind (portOf d p).xoff k = some (t, true) →
        canReach d (t + bitTimes d p (ogetN d Obj.pauseTxQuanta p 0 * 512) / 2) = true) →
      ends (.pauseTxRefresh p q) (fun n => sfind (portOf n p).xoff k = some (n.time.elapsed, true) ∧
        oget n Obj.txCounters p 2 = oget d Obj.txCounters p 2 + 1 ∧ oget n Obj.txCounters p 0 = oget d Obj.txCounters p 0 + 1 ∧
        n.out = .mac p 0x8808 (octets (pauseFrame d p k (ogetN d Obj.pauseTxQuanta p 0))) :: d.out)) ∧
    (∀ i a b, i < 16 → d.start.ready = true → pairPorts d i = some (a, b) → (portOf d a).linkUp = true → (portOf d b).linkUp = true →
      canReach d (sget d.fwd.lifeAt i 0 + msec (ogetN d Obj.lifeCheckInterval 0 0)) = true →
      ends (.lifeCheckTx i) (fun n => sfind n.fwd.lifeAt i = some n.time.elapsed ∧
        oget n Obj.txCounters a 0 = oget d Obj.txCounters a 0 + 1 ∧ oget n Obj.txCounters b 0 = oget d Obj.txCounters b 0 + 1 ∧
        let seq := (nextPrpSeq d i supervisionMac).1
        n.out = .mac b 0x88FB (octets (supervisionFrame d b seq 11)) :: .mac a 0x88FB (octets (supervisionFrame d a seq 10)) :: d.out)) ∧
    ends .prpNodeForget (fun n =>
      n.fwd.nodes.map PrpNode.mac = (d.fwd.nodes.filter (fun m =>
        decide (d.time.elapsed < m.seen + msec (ogetN d Obj.nodeForgetTime 0 0)))).map PrpNode.mac ∧
      ∀ m ∈ n.fwd.nodes, ∀ y ∈ m.seqs, d.time.elapsed < y.2 + msec (ogetN d Obj.entryForgetTime 0 0)) ∧
    (∀ i v : Nat, Served d Obj.flowKey →
      let key := v / 2 ^ 52 * 2 ^ 52
      (∀ m, m ≠ i → sfind d.fwd.placed m = some 2 → ogetN d Obj.flowProfile m 0 = comingN d Obj.flowProfile i →
        ogetN d Obj.flowKey m 0 = key →
        ends (.flowKeyWrite i v) (fun n => n.fwd = d.fwd ∧ n.dict.staged = d.dict.staged ∧ n.dict.abort = 0x08000020)) ∧
      (keyTaken d i (comingN d Obj.flowProfile i) key = false → d.fwd.placed.length < 245760 → d.start.ready = true →
        ends (.flowKeyWrite i v) (fun n => sfind n.dict.staged (Obj.flowKey.key i 0) = some (key : Int) ∧
          (sfind n.fwd.placed i).isSome = true ∧ n.dict.abort = 0))) ∧
    (∀ stop, stop < 24 → d.faults.blocks = [] →
      (∀ h, stopHearth stop = some h → ends (.flueCreditMismatch stop) (fun n => (blockSt n 2 h).phase = 1 ∧ n.faults.faultN = true)) ∧
      (stopHearth stop = none → d.start.state = 1 → ends (.flueCreditMismatch stop) (fun n => n.start.state = 2 ∧ n.start.due = some 8)) ∧
      (stopHearth stop = none → d.start.state ≠ 1 → ends (.flueCreditMismatch stop) (fun n =>
        oget n Obj.flueAuditMismatches (18 * stop) 0 = oget d Obj.flueAuditMismatches (18 * stop) 0 + 1 ∧ n.start = d.start)))

/-- R44, R46, R47, R60, R17, R99, R210. -/
def Obligations.Frames : Prop :=
  (∀ (s : State) (p : Nat) (f : Frame),
    let d := s.sys.dev
    let rx := fun (n : Dev) (j : Nat) => oget n Obj.rxCounters p j
    let size := f.data.len + 4
    let most := ogetN d Obj.maxFrameSize p 0 + 4 * min 2 f.tags
    let q := 196608 + 8 * ogetN d Obj.missPort p 0 + f.prio
    let item := QItem.of f.data (.frame { inPort := some p, inPrio := f.prio, stamp := d.time.elapsed, order := d.fwd.order })
    let ends := fun (g : Dev → Prop) => ∃ w : State, exec (.frameReceived p 0 f) s = .next w ∧ g w.sys.dev
    let bad := fun (j : Nat) => ends (fun n => rx n j = rx d j + 1 ∧ rx n 0 = rx d 0 + 1 ∧ n.queues = d.queues ∧ n.out = d.out)
    d.start.resetLow = false → d.start.state = 1 → d.start.ready = true → p < 32 → portExists d p = true → (portOf d p).linkUp = true →
    (f.full = true → bad 9) ∧
    (f.full = false → oget d Obj.deliverBad p 0 = 0 →
      (f.code.isSome = true → bad 8) ∧ (f.code = none → f.align.isSome = true → bad 7) ∧
      (f.code = none → f.align = none →
        (size < 14 → bad 3) ∧ (14 ≤ size → size < 64 → bad 4) ∧ (64 ≤ size → most < size → bad 5) ∧
        (64 ≤ size → size ≤ most → f.fcsBad = true → bad 6))) ∧
    (f.full = false → f.code = none → f.align = none → 64 ≤ size → size ≤ most → f.fcsBad = false →
      (∀ quanta, f.kind = .pause 0x010000C28001 quanta → 0 < quanta → ogetN d Obj.pauseMode p 0 = 1 → (portOf d p).pauses = [] →
        (portOf d p).txPrio = none → ends (fun n => rx n 1 = rx d 1 + 1 ∧ rx n 2 = rx d 2 + size ∧ rx n 12 = rx d 12 + 1 ∧
          ∀ i < 8, pausedNow n p i = true ∧ (pauseOf n p i).until_ = d.time.elapsed + bitTimes d p (quanta * 512))) ∧
      (f.kind = .plain → f.prp = none → getF f.key FlowKey.etherType ≠ 0x0806 → mediaIndex d (getF f.key FlowKey.dstAddress) = none →
        flowHit d f.key = none → ogetN d Obj.pauseMode p 0 = 0 →
        (ogetN d Obj.missAction p 0 = 0 → ends (fun n => rx n 1 = rx d 1 + 1 ∧ rx n 2 = rx d 2 + size ∧ n.queues = d.queues ∧
          oget n Obj.flowMissFrames 0 0 = oget d Obj.flowMissFrames 0 0 + 1)) ∧
        (ogetN d Obj.missAction p 0 = 2 → ogetN d Obj.missPort p 0 < 32 → f.prio < 8 → (queueOf d q).isolated = false →
          isWord d q = false → pushVerdict d q (cellsNeeded d q item) = 0 → ogetN d Obj.thresholdDepth q 0 = 0 →
          ends (fun n => (∃ cells : List Nat, (queueOf n q).items = (queueOf d q).items ++ [{ item with places := cells }]) ∧ n.fwd.order = d.fwd.order + 1))))) ∧
  (∀ (s : State) (p q : Nat) (b : Bytes),
    let d := s.sys.dev
    let o := portOf d p
    let tx := fun (n : Dev) (j : Nat) => oget n Obj.txCounters p j
    let limit := fun (b : Bytes) => ogetN d Obj.maxFrameSize p 0 + 4 * min 2 (tagsOf b)
    let strict := fun (r : Nat) => bitSet (ogetN d Obj.strictMask p 0) r = true
    let ends := fun (g : Dev → Prop) => ∃ w : State, exec (.egressFrameTx p) s = .next w ∧ g w.sys.dev
    let starts := ends (fun n => .frame p q { b with len := max 60 b.len } ∈ n.out ∧ (portOf n p).txPrio = some q ∧
      (portOf n p).txEnd = d.time.elapsed + bitTimes d p (8 * (8 + max 64 (b.len + 4))) ∧ tx n 0 = tx d 0 + 1 ∧
      tx n 1 = tx d 1 + (max 64 (b.len + 4) : Nat) ∧
      (queueOf n (196608 + 8 * p + q)).items = (queueOf d (196608 + 8 * p + q)).items.tail)
    p < 32 → o.linkUp = true → o.txPrio = none → q ∈ sendable d p → headFrame d p q = some b → ogetN d Obj.pauseMode p 0 = 0 →
    (∀ r < 8, ∀ i ∈ (queueOf d (196608 + 8 * p + r)).items, i.badHeads = 0 ∧ i.badPar = 0 ∧ ∀ f, i.info = .frame f → f.inPort = none) →
    ((∀ r ∈ sendable d p, ∀ c, headFrame d p r = some c → c.len + 4 ≤ limit c) →
      (strict q → (∀ r ∈ sendable d p, strict r → r ≤ q) → starts) ∧
      ((∀ r ∈ sendable d p, ¬ strict r) → o.drrAt = q → max 64 (b.len + 4) ≤ o.deficit.getD q 0 → starts)) ∧
    (limit b < b.len + 4 → sendable d p = [q] → (queueOf d (196608 + 8 * p + q)).items.length = 1 →
      ends (fun n => tx n 3 = tx d 3 + 1 ∧ tx n 0 = tx d 0 ∧ n.out = d.out ∧ (queueOf n (196608 + 8 * p + q)).items = [] ∧
        (portOf n p).txPrio = none))) ∧
  (∀ (s : State) (c e : Nat) (x : Channel) (z : Slot) (rest : List Slot) (w : Work),
    let d := s.sys.dev
    let old := epF d e Ep.txTimestamp
    let step_ := sentClock (epF d e Ep.txCodec) x.frameTicks
    let next := (epF d e Ep.txSequence + 1) % 65536
    chanOf d c = some x → x.todo = z :: rest → x.state = 1 → x.group = 0xFFFF → x.left = [] → z.group = 0xFFFF →
    x.canceller.bypassAt = none → isLine d x = false → z.dest = some e → epF d e Ep.kind ≠ 2 → w.bad = false → z.poison = false →
    ∃ n : State, exec (.frameWork c w) s = .next n ∧ (chanOf n.sys.dev c).map (·.todo) = some rest ∧
      (chanOf n.sys.dev c).map (·.treat.lfsr) =
        some (iterate lfsrStep (x.frameTicks * 5 / 4 * (if z.wide then 64 else 32)) x.treat.lfsr) ∧
      epF n.sys.dev e Ep.txTimestamp = (old + step_) % 2 ^ 32 ∧
      (bitSet (epF d e Ep.codecOptions) 1 = false → epF n.sys.dev e Ep.txSequence = next) ∧
      (epF n.sys.dev e Ep.txSequence = next ∨ epF n.sys.dev e Ep.txSequence = epF d e Ep.txSequence))

/-- R65 to R78, Tables 4.3 and 4.5; a is the device once the record counts as accepted. -/
def Obligations.SetupRecords : Prop :=
  ∀ (s : State) (r : SetupRec),
    let d := s.sys.dev
    let a := bump d Obj.setupAccepted 0 0
    let k := r.subject
    let b := r.body.val
    let ends := fun (c : Instr) (f : Dev → Prop) => ∃ w : State, exec c s = .next w ∧ f w.sys.dev
    let result := fun (n : Dev) (kind status engine : Nat) => ∃ v : Nat, n.setup.results = d.setup.results ++ [v] ∧
      getF v ResultRec.status = status ∧ getF v ResultRec.kind = kind ∧ getF v ResultRec.cookie = r.cookie % 2 ^ 64 ∧
      getF v ResultRec.sequence = r.seq % 2 ^ 32 ∧ getF v ResultRec.engine = engine % 256
    let live := epF d k Ep.state = 1 ∨ epF d k Ep.state = 2
    let done := fun (c : Instr) (kind engine : Nat) (f : Dev → Prop) => ends c (fun n => result n kind 0 engine ∧ f n ∧
      oget n Obj.setupApplied 0 0 = oget d Obj.setupApplied 0 0 + 1)
    let refused := fun (c : Instr) (kind status : Nat) => ends c (fun n => result n kind status 0xFF ∧ n.chans = d.chans ∧
      n.endpoints = d.endpoints ∧ n.groups = d.groups ∧ n.stk = d.stk)
    (∀ (data : Bytes) (badKeys : Nat), Served d Obj.setupRecord → d.start.ready = true → 32 ≤ data.len → data.val < 2 ^ (8 * data.len) →
      getF data.val SetupHdr.length = data.len →
      let q := parseRec d data
      let st := writeStatus { d with setup := { d.setup with next := (q.seq + 1) % 2 ^ 32 } } q data.len (bitsAt data.val 160 32) (bitSet badKeys 0)
      let answers := fun (v : Nat) (f : Dev → Prop) => ends (.setupRecordWrite data badKeys) (fun n =>
        n.out = .answer 0 (joinBytes [bytesOf 1 v]) :: d.out ∧ f n)
      (q.seq ≠ d.setup.next → answers 2 (fun n => n.setup = d.setup)) ∧
      (q.seq = d.setup.next → d.setup.pending.length + d.setup.results.length < 4096 →
        (st = 0 → answers 0 (fun n => n.setup.pending = d.setup.pending ++ [rewrapped d q] ∧ n.setup.next = (q.seq + 1) % 2 ^ 32) ∧
          curTick d + 2 ≤ q.tick ∧ (d.setup.pending.filter (fun p => decide (p.tick = q.tick))).length < 64) ∧
        (st ≠ 0 → answers 0 (fun n => n.setup.pending = d.setup.pending ∧ n.setup.next = (q.seq + 1) % 2 ^ 32 ∧
          ∃ v : Nat, n.setup.results = d.setup.results ++ [v] ∧ getF v ResultRec.status = st))) ∧
      (q.seq = d.setup.next → 4096 ≤ d.setup.pending.length + d.setup.results.length →
        headerOk q data.len (bitsAt data.val 160 32) = true → answers 0xFE (fun n => n.setup = d.setup))) ∧
    (epF d k Ep.state = 0 → done (.endpointRegister r) 1 0xFF (fun n => epF n k Ep.state = 1 ∧ epF n k Ep.boundChannel = 0xFFFFFFFF ∧
      epF n k Ep.group = 0xFFFF ∧ epF n k Ep.registerSequence = r.seq % 2 ^ 32 ∧
      epF n k Ep.remoteAddress = getF b Ep.remoteAddress ∧ epF n k Ep.txSequence = getF b Ep.txSequence ∧
      ∀ j, j ≠ k → sfind n.endpoints j = sfind d.endpoints j)) ∧
    (epF d k Ep.state ≠ 0 → refused (.endpointRegister r) 1 7) ∧
    (epF d k Ep.state = 1 → done (.endpointRemove r) 2 0xFF (fun n => sfind n.endpoints k = none ∧
      ∀ j, j ≠ k → sfind n.endpoints j = sfind d.endpoints j)) ∧
    (epF d k Ep.state ≠ 1 → refused (.endpointRemove r) 2 7) ∧
    (live → done (.keyUpdate r) 8 0xFF (fun n => epF n k Ep.mki = bitsAt b 32 32 ∧ epF n k Ep.mkiLength = bitsAt b 8 8 ∧
      (bitsAt b 0 8 ≠ 1 → epF n k Ep.rxKeyBlockPrevious = epF d k Ep.rxKeyBlock ∧ epF n k Ep.txKeyBlock = epF d k Ep.txKeyBlock ∧
        sfind n.setup.prevKeys k = some { tick := curTick d + 500, mkiLength := epF d k Ep.mkiLength, mki := epF d k Ep.mki }) ∧
      (bitsAt b 0 8 = 1 → epF n k Ep.rxKeyBlock = epF d k Ep.rxKeyBlock ∧ n.setup.prevKeys = d.setup.prevKeys))) ∧
    (¬ live → refused (.keyUpdate r) 8 7 ∧ refused (.endpointUpdate r) 9 7) ∧
    (live → (∀ c ∈ d.chans, c.2.endpoint ≠ k ∧ c.2.output ≠ k) → done (.endpointUpdate r) 9 0xFF (fun n =>
      epF n k Ep.remoteAddress = getF b Ep.remoteAddress ∧ epF n k Ep.remotePort = getF b Ep.remotePort ∧
      epF n k Ep.state = epF d k Ep.state ∧ epF n k Ep.txSequence = epF d k Ep.txSequence ∧
      epF n k Ep.rxKeyBlock = epF d k Ep.rxKeyBlock ∧ epF n k Ep.boundChannel = epF d k Ep.boundChannel)) ∧
    (∀ t, sfind d.setup.prevKeys k = some t →
      (t.tick < curTick d → ends (.previousKeyExpiry k) (fun n => sfind n.setup.prevKeys k = none ∧ epF n k Ep.rxKeyBlockPrevious = 0 ∧
        epF n k Ep.rxKeyBlock = epF d k Ep.rxKeyBlock)) ∧
      (curTick d ≤ t.tick → exec (.previousKeyExpiry k) s = .next s)) ∧
    ((let body := fillJitter a b
      let e := getF body ChBody.endpoint
      let cost := channelCost a e none (getF body ChBody.treatmentProfile)
      getF body ChBody.group = 0xFFFF → getF body ChBody.outputEndpoint = 0xFFFFFFFF → bitSet (getF body ChBody.flags) 1 = false →
      bitSet (epF d e Ep.flags) 3 = false → epF d e Ep.kind ≠ 2 →
      (65536 ≤ d.chans.length → refused (.channelOpen r) 3 10) ∧
      (d.chans.length < 65536 → ((chanOf d k).isSome = true ∨ epF d e Ep.state ≠ 1) → refused (.channelOpen r) 3 7) ∧
      (d.chans.length < 65536 → chanOf d k = none → epF d e Ep.state = 1 →
        (100000000000 < cipherCommitted a + cipherLoad a e none → refused (.channelOpen r) 3 11) ∧
        (cipherCommitted a + cipherLoad a e none ≤ 100000000000 →
          (∀ st, chooseEngine a cost (getF body ChBody.hearthHint) = .inr st → refused (.channelOpen r) 3 st) ∧
          (∀ g t, chooseEngine a cost (getF body ChBody.hearthHint) = .inl g → lowestFree a = some t →
            done (.channelOpen r) 3 g (fun n =>
              (chanOf n k).map (fun x => (x.state, x.endpoint, x.output, x.group, x.engine, x.thread, x.openTick)) =
                some (1, e, 0xFFFFFFFF, 0xFFFF, g, t, curTick d) ∧
              (tcbOf n t).map (fun y => (y.state, y.channel, y.cost, y.home, y.mask)) = some (1, k, cost, g, 2 ^ (g % 16)) ∧
              epF n e Ep.state = 2 ∧ epF n e Ep.boundChannel = k % 2 ^ 32)))))) ∧
    (chanOf d k = none → refused (.channelClose r) 4 7 ∧ refused (.channelModify r) 5 7 ∧ refused (.groupJoin r) 6 7 ∧
      refused (.groupLeave r) 7 7) ∧
    (∀ x : Channel, chanOf d k = some x → epF d x.endpoint Ep.kind ≠ 2 →
      (x.recorded = false → x.group = 0xFFFF → x.tones = [] → x.todo = [] →
        done (.channelClose r) 4 0xFF (fun n => chanOf n k = none ∧ tcbOf n x.thread = none ∧
          epF n x.endpoint Ep.state = 1 ∧ epF n x.endpoint Ep.boundChannel = 0xFFFFFFFF)) ∧
      (let body := fillJitter a b
       x.state = 1 → x.group = 0xFFFF → getF body ChBody.group = 0xFFFF → getF body ChBody.outputEndpoint = 0xFFFFFFFF →
        (getF body ChBody.endpoint ≠ x.endpoint → refused (.channelModify r) 5 7) ∧
        (getF body ChBody.endpoint = x.endpoint →
          let st := riseStatus a [planOf a k x none (getF body ChBody.treatmentProfile)]
          (st ≠ 0 → refused (.channelModify r) 5 st) ∧
          (st = 0 → done (.channelModify r) 5 0xFF (fun n =>
            (chanOf n k).map (fun y => (y.output, y.endpoint, y.engine, y.jmin)) =
              some (0xFFFFFFFF, x.endpoint, x.engine, wholeFrames (getF body ChBody.jitterMin) x.frameTicks) ∧
            (chanOf n k).map (·.cost) = some (channelCost a x.endpoint none (getF body ChBody.treatmentProfile)))))) ∧
      (let g := bitsAt b 0 16
       let m := bitsAt b 16 8
       x.state = 1 → x.group = 0xFFFF → x.recorded = false →
        (shas (sget d.groups g []) m = true → refused (.groupJoin r) 6 13) ∧
        (shas (sget d.groups g []) m = false → riseStatus a [planOf a k x (some x.endpoint) (profileOf x)] = 0 →
          done (.groupJoin r) 6 0xFF (fun n =>
            (chanOf n k).map (fun y => (y.group, y.member, y.output, y.joinTick)) = some (g, m, x.endpoint, curTick d) ∧
            sfind (sget n.groups g []) m = some k ∧ epF n x.endpoint Ep.group = g ∧ epF n x.endpoint Ep.memberIndex = m))) ∧
      (x.group = 0xFFFF → refused (.groupLeave r) 7 7) ∧
      (x.group ≠ 0xFFFF → x.recorded = false → x.tones = [] → done (.groupLeave r) 7 0xFF (fun n =>
        (chanOf n k).map (fun y => (y.group, y.member, y.output)) = some (0xFFFF, 0xFF, 0xFFFFFFFF) ∧
        sfind (sget n.groups x.group []) x.member = none ∧ epF n x.endpoint Ep.group = 0xFFFF)))

/-- R66, R75, R86, R209, R279 to R281, R288. -/
def Obligations.DictionaryAndEpochs : Prop :=
  ∀ (s : State),
    let d := s.sys.dev
    let ends := fun (c : Instr) (f : Dev → Prop) => ∃ w : State, exec c s = .next w ∧ f w.sys.dev
    let denied := fun (c : Instr) (code : Nat) => ends c (fun n => n.dict.abort = code ∧ n.dict.obj = d.dict.obj ∧
      n.dict.staged = d.dict.staged ∧ n.dict.commit = d.dict.commit ∧ n.out = .answer code noBytes :: d.out)
    (∀ (route idx sub item i j : Nat) (data : Bytes) (x : Outside) (r : Row), idx < 0x5000 →
      resolve d route idx sub item = .inr (.obj r i j) → silent d = false → stateRefuses d idx sub true = false → isSelect r = false →
      let v := r.ty.decode data.val
      let c : Instr := .objectWrite route idx sub item data x
      let sized := r.ty = .domain ∨ data.len = r.ty.size
      let inRange := r.ty = .domain ∨ (r.lo ≤ v ∧ v ≤ r.hi)
      (instanceGated d r.idx i j = true → denied c 0x08000022) ∧
      (instanceGated d r.idx i j = false → r.acc = .const ∨ r.acc = .ro → denied c 0x06010002) ∧
      (instanceGated d r.idx i j = false → r.acc ≠ .const → r.acc ≠ .ro →
        (¬ sized → denied c 0x06070010) ∧
        (sized → ¬ inRange → denied c 0x06090030) ∧
        (sized → inRange → (r.ty = .bool → v ≤ 1) →
          (r.acc = .rws → r.code ≠ 0x214003 → r.code ≠ 0x21400D → d.start.ready = true →
            (checkRules d r i j (unreserved r v) = 0 → ends c (fun n => sfind n.dict.staged (r.key i j) = some (unreserved r v) ∧ n.dict.obj = d.dict.obj ∧
              n.dict.commit = d.dict.commit ∧ n.dict.epoch = d.dict.epoch ∧ n.dict.abort = 0)) ∧
            (checkRules d r i j (unreserved r v) ≠ 0 → denied c (checkRules d r i j (unreserved r v)))) ∧
          (r.acc = .rw →
            r.code ∉ [0x210001, 0x300001, 0x300002, 0x300003, 0x300004, 0x252006, 0x280004, 0x280005, 0x2A3004, 0x2A3005, 0x2B0001, 0x2B400B, 0x100300] → r.code / 65536 ∉ [0x14, 0x16, 0x18, 0x1A] →
            ends c (fun n => oget n r i j = v ∧ n.dict.staged = d.dict.staged ∧ n.dict.abort = 0))))) ∧
    (Served d Obj.epochCommit → d.start.ready = true → d.start.state ≠ 4 → ∀ e t : Nat,
      (e = (d.dict.epoch + 1) % 2 ^ 32 → curTick d + 4 ≤ t → d.dict.commit = none → ends (.epochCommit e t) (fun n =>
        n.dict.commit = some { epoch := e, tick := t, values := d.dict.staged } ∧ n.dict.staged = [] ∧ n.dict.epoch = d.dict.epoch ∧
        oget n Obj.epochsCommitted 0 0 = oget d Obj.epochsCommitted 0 0 + 1 ∧ n.dict.abort = 0)) ∧
      ((e ≠ (d.dict.epoch + 1) % 2 ^ 32 ∧ (d.twin.state ≠ 2 ∨ d.twin.joinStep ≠ 3)) ∨ t < curTick d + 4 ∨ d.dict.commit.isSome = true → ends (.epochCommit e t) (fun n =>
        n.dict.commit = d.dict.commit ∧ n.dict.staged = d.dict.staged ∧ n.dict.abort = 0x08000020 ∧
        oget n Obj.commitsRefused 0 0 = oget d Obj.commitsRefused 0 0 + 1))) ∧
    (Served d Obj.epochAbort → d.start.state ≠ 4 →
      (d.dict.commit = none → denied .epochAbort 0x08000022) ∧
      (∀ c, d.dict.commit = some c → c.tick < curTick d + 2 → denied .epochAbort 0x08000022) ∧
      (∀ c, d.dict.commit = some c → curTick d + 2 ≤ c.tick → (d.dict.staged.map Prod.fst).Nodup → ends .epochAbort (fun n =>
        n.dict.commit = none ∧ n.dict.obj = d.dict.obj ∧ n.dict.abort = 0 ∧
        (∀ k v, sfind d.dict.staged k = some v → sfind n.dict.staged k = some v) ∧
        (∀ k, sfind d.dict.staged k = none → sfind n.dict.staged k = sfind c.values k)))) ∧
    (ServedRead d Obj.setupResults → ends .setupResultsRead (fun n => n.setup.results = [] ∧ n.setup.pending = d.setup.pending ∧
      n.out = .answer 0 (joinBytes (d.setup.results.map (bytesOf 24))) :: d.out)) ∧
    (∀ key : Nat, Served d Obj.keyTransportKey → ends (.keyTransportKeyWrite key false) (fun n =>
        oget n Obj.keyTransportKey 0 0 = key ∧ n.dict.abort = 0) ∧
      (key ≠ 0 → ends (.keyTransportKeyWrite key true) (fun n => oget n Obj.keyTransportKey 0 0 = oget d Obj.keyTransportKey 0 0 ∧
        n.dict.abort = 0x08000020 ∧ oget n Obj.keyUnwrapFailures 0 0 = oget d Obj.keyUnwrapFailures 0 0 + 1))) ∧
    (∀ (key : Nat) (bad : Bool), Served d Obj.twinLinkKey →
      (bad = false → ogetN d Obj.keyTransportKey 0 0 ≠ 0 → ends (.twinLinkKeyWrite key bad) (fun n =>
        n.twin.key = key ∧ n.twin.state = d.twin.state ∧ n.dict.abort = 0)) ∧
      (bad = true ∨ ogetN d Obj.keyTransportKey 0 0 = 0 → ends (.twinLinkKeyWrite key bad) (fun n =>
        n.twin = d.twin ∧ n.dict.abort = 0x08000020))) ∧
    (∀ (slot key : Nat), Served d Obj.goaKey → slot < d.goa.keys.length →
      ends (.goaKeyWrite slot key false) (fun n => n.goa.keys[slot]? = some key ∧ n.goa.sessions = d.goa.sessions ∧ n.dict.abort = 0) ∧
      (key ≠ 0 → ends (.goaKeyWrite slot key true) (fun n => n.goa = d.goa ∧ n.dict.abort = 0x08000020)))

/-- R208 to R221, Tables 10.1 and 10.8. -/
def Obligations.Twins : Prop :=
  ∀ (s : State),
    let d := s.sys.dev
    let w := d.twin
    let role := d.start.straps.twin % 4
    let ends := fun (c : Instr) (f : Dev → Prop) => ∃ u : State, exec c s = .next u ∧ f u.sys.dev
    let count := fun (n : Dev) (j k : Nat) => oget n Obj.twinCounters 0 j = oget d Obj.twinCounters 0 j + k
    let paired := 2 ≤ w.state ∧ w.state ≤ 4
    let sends := fun (n : Dev) => ∀ p, twinPorts d = [p] → (portOf d p).linkUp = true → ∃ b : Bytes, n.out = .mac p 0x88B5 b :: d.out
    role = 1 ∨ role = 2 →
    (d.time.ticking = true → d.time.nextTick - d.time.media ≤ 1005000 * 65536 → w.closed ≠ some (d.time.tick + 1) →
      let dl : NetStamp := ⟨d.time.gen, d.time.net + (d.time.nextTick - d.time.media) - 1005000 * 65536⟩
      let before := fun (e : LedgerEntry) => e.stamp.gen < dl.gen ∨ (e.stamp.gen = dl.gen ∧ e.stamp.t ≤ dl.t)
      ends .ledgerClose (fun n => n.twin.closed = some (d.time.tick + 1) ∧ n.twin.digests = [] ∧ n.twin.decisions = [] ∧
        (∀ e, e ∈ n.twin.entries ↔ e ∈ w.entries ∧ ¬ before e) ∧
        ∃ l, n.twin.own.head? = some (d.time.tick + 1, dl, l) ∧ ∀ e, e ∈ l ↔ e ∈ w.entries ∧ before e)) ∧
    (∀ (l : Ledger) (frames : Nat),
      ends (.ledgerReceived l frames false) (fun n => count n 22 frames ∧ n.twin = w) ∧
      (l.sender = role → ends (.ledgerReceived l frames true) (fun n => n.twin.state = (if w.state = 5 then 5 else 1) ∧ count n 1 frames)) ∧
      (role = 1 → l.sender = 2 → paired → (∀ o ∈ w.partner, o.tick ≠ l.tick) → l.digests = [] → w.heldDigests = [] →
        (l.entries = [] → ends (.ledgerReceived l frames true) (fun n => n.twin.partner = (l :: w.partner).take 16 ∧
          n.twin.fetches = w.fetches ∧ n.twin.state = w.state ∧ count n 1 frames)) ∧
        (∀ e, l.entries = [e] → wantsPacket d e = true → payloadClash d e = false → ends (.ledgerReceived l frames true) (fun n =>
          n.twin.fetches.map Fetch.entry = w.fetches.map Fetch.entry ++ [e] ∧ count n 3 1))) ∧
      (∀ o ∈ w.partner, o.tick = l.tick → l.sender ≠ role → ends (.ledgerReceived l frames true) (fun n => n.twin = w))) ∧
    (∀ c seq ts, paired →
      let held := ∃ k ∈ heldPackets d c, k.2.seq = seq ∧ k.2.ts = ts
      (held → ends (.fetchReceived c seq ts) (fun n => count n 6 1 ∧ count n 7 1 ∧ n.twin = w ∧ sends n ∧ n.queues = d.queues)) ∧
      (¬ held → ends (.fetchReceived c seq ts) (fun n => count n 6 1 ∧ count n 8 1 ∧ n.twin = w ∧ sends n ∧ n.queues = d.queues))) ∧
    (∀ f : Fetch, w.fetches = [f] →
      ends (.fetchReplyReceived f.entry.channel f.entry.seq f.entry.ts none) (fun n => n.twin.fetches = [] ∧
        n.twin.failed.head? = some (f.entry.channel, f.tick) ∧ count n 5 1) ∧
      (curTick d < f.tick → ∀ b : Bytes, ends (.fetchReplyReceived f.entry.channel f.entry.seq f.entry.ts (some b)) (fun n =>
        n.twin = { w with fetches := [] }))) ∧
    (paired → ends .partnerLost (fun n => n.twin.state = 1 ∧ n.twin.partner = [] ∧ n.twin.fetches = [] ∧ n.twin.joinStep = 0 ∧
        count n 21 1)) ∧
    (unionOn d = false → exec .partnerLost s = .next s) ∧
    (d.start.ready = true → w.state = 1 ∨ w.state = 5 → d.time.state = 2 → twinLinkUp d = true → oget d Obj.joinEnable 0 0 ≠ 0 →
      (w.helloAt = none → ends .hello (fun n => n.twin.helloAt = some n.time.elapsed ∧ n.twin.joinStep = 1 ∧ n.twin.state = w.state ∧
        sends n)) ∧
      (Served d Obj.twinCommand → ends .twinStartJoin (fun n => n.twin.joinStep = 1 ∧ n.twin.helloAt = some n.time.elapsed ∧
        n.dict.abort = 0))) ∧
    (Served d Obj.twinCommand →
      (w.state ≠ 1 → w.state ≠ 5 → ends .twinStartJoin (fun n => n.twin = w ∧ n.dict.abort = 0x08000022)) ∧
      (w.state ≠ 5 → ends .twinWithdraw (fun n => n.twin.state = 5 ∧ n.dict.abort = 0 ∧ ∀ c, mayEmit n c = false)) ∧
      (w.state = 5 → ends .twinWithdraw (fun n => n.twin = w ∧ n.dict.abort = 0x08000022))) ∧
    (∀ p : Peer,
      (p.role = role → ends (.joinAccept p) (fun n => n.twin.state = (if w.state = 5 then 5 else 1) ∧ n.twin.joinStep = 0)) ∧
      (p.role ≠ role → p.enable = true → oget d Obj.joinEnable 0 0 ≠ 0 → p.keyId = twinKeyId d → w.key ≠ 0 →
        (p.accepts = true → w.state = 1 ∨ w.state = 5 → w.joinStep = 1 → ends (.joinAccept p) (fun n =>
          n.twin.state = 2 ∧ n.twin.joinStep = 2 ∧ n.twin.joined = [])) ∧
        (p.accepts = false → w.state = 1 → ends (.joinAccept p) (fun n => n.twin.state = 3 ∧ n.twin.joinStep = 2 ∧ sends n)))) ∧
    (∀ c : JoinCopy, w.joinStep = 2 →
      (w.state = 3 → ends (.joinStateCopyComplete c) (fun n => n.twin = { w with joinStep := 3 } ∧ n.endpoints = d.endpoints)) ∧
      (w.state = 2 → ends (.joinStateCopyComplete c) (fun n => n.twin.joinStep = 3 ∧ n.endpoints = c.endpoints ∧
        n.fwd.placed = c.placed ∧ n.twin.nextSeq = c.nextSeq ∧ n.twin.expect = c.channels))) ∧
    (∀ (c t : Nat) (z : Snapshot), w.state = 2 → w.joinStep = 5 → curTick d < z.tick + z.chan.frameTicks → chanOf d c = none → c ∉ w.joined →
      lowestFree d = some t → z.chan.group = 0xFFFF → z.chan.recorded = false → ends (.joinChannelSnapshot c z) (fun n =>
        (chanOf n c).map (fun y => { y with thread := z.chan.thread, traceA := z.chan.traceA }) = some z.chan ∧
        (chanOf n c).map (·.thread) = some t ∧ (tcbOf n t).map (·.channel) = some c ∧ (queueOf n c).items.map (fun i => { i with places := [] }) = z.jitter.map (fun i => { i with places := [] }) ∧
        n.twin.joined = c :: w.joined ∧ sfind n.twin.awaiting c = some 0 ∧ sfind n.twin.states c = some 2))

/-- R222 to R237, R250. -/
def Obligations.EvidenceJobs : Prop :=
  ∀ (s : State) (c st : Nat),
    let d := s.sys.dev
    let ends := fun (i : Instr) (f : Dev → Prop) => ∃ u : State, exec i s = .next u ∧ f u.sys.dev
    let free : CompUnit := { state := 0, stream := none }
    let same := fun (j k : Job) => j.stream = k.stream ∧ j.index = k.index
    (∀ (x : Stream) (b : EvBlock) (r : List EvBlock), streamOf d st = some x → x.blocks = b :: r →
      (if x.kind = 2 then b.last.getD b.first < curTick d
        else b.final = true ∨ b.last.getD b.first + 8 ≤ curTick d) →
      (b.made = true → ends (.evidenceBlockClose st) (fun n => (streamOf n st).map (·.blocks) = some r ∧
        ∃ j : Job, n.ev.jobs = d.ev.jobs ++ [j] ∧ j.stream = st ∧ j.index = b.index ∧ j.state = 1 ∧ j.granted = 0 ∧
          (b.final = true → j.groupEnd = true) ∧
          (b.final = false → j.groupEnd = (match r.find? EvBlock.made with
            | some k => k.restart
            | none => decide ((b.index + 1) % ogetN d Obj.restartBlocks 0 0 = 0))) ∧
          getF j.image.val Preamble.firstTick = b.first % 2 ^ 64)) ∧
      (b.made = false → x.state = 1 → ends (.evidenceBlockClose st) (fun n => (streamOf n st).map (·.blocks) = some r ∧
        n.ev.jobs = d.ev.jobs))) ∧
    (∀ (j : Job) (x : Stream), c < compressorsOf d → (compUnit d c).state = 0 → d.start.ready = true →
      d.ev.jobs.find? (eligible d.ev.jobs) = some j → streamOf d j.stream = some x →
      ends (.compressorJobStart c) (fun n => compUnit n c = { state := 2, stream := some j.stream } ∧
        n.ev.jobs.length = d.ev.jobs.length ∧ (∀ k ∈ n.ev.jobs, same k j → k.state = 2) ∧
        (streamOf n j.stream).map (·.ctx.started) = some true)) ∧
    (∀ (j : Job) (x : Stream), runningJob d c = some (j, x) →
      let fits := (stepsOf j x.ctx).length ≤ x.ctx.words + roomSteps j x.ctx
      (¬ fits → ends (.compressorJobSuspend c) (fun n => compUnit n c = free ∧ (∀ k ∈ n.ev.jobs, same k j → k.state = 3) ∧
        n.ev.jobs.length = d.ev.jobs.length ∧ (streamOf n j.stream).map (fun y => (y.ctx.jobState, y.ctx.words)) =
          some (1, x.ctx.words + roomSteps j x.ctx) ∧
        oget n Obj.suspensions 0 0 = oget d Obj.suspensions 0 0 + 1)) ∧
      (fits → ends (.compressorJobComplete c) (fun n => compUnit n c = free ∧ (∀ k ∈ n.ev.jobs, ¬ same k j) ∧
        oget n Obj.jobsCompleted 0 0 = oget d Obj.jobsCompleted 0 0 + 1 ∧
        oget n Obj.storeCounters 0 0 = oget d Obj.storeCounters 0 0 + 1 ∧
        ∀ y, streamOf n j.stream = some y → y.ctx.started = false ∧ y.ctx.window.length ≤ 32768)) ∧
      (c < 4 → c < compressorsOf d → Served d Obj.compUnitCommand → ends (.unitAbort c) (fun n => compUnit n c = free ∧
        n.ev.jobs = d.ev.jobs.filter (fun k => !(decide (k.stream = j.stream) && decide (k.index = j.index))) ++ [{ j with state := 4 }] ∧
        (streamOf n j.stream).map (·.ctx.jobState) = some 2 ∧ oget n Obj.aborts 0 0 = oget d Obj.aborts 0 0 + 1 ∧
        n.dict.abort = 0))) ∧
    (c < 4 → compressorsOf d ≤ c → Served d Obj.compUnitCommand → ends (.unitAbort c) (fun n => n.ev = d.ev ∧ n.dict.abort = 0x08000022)) ∧
    (∀ j : Job, jobsOf d st = [j] →
      (0 < d.store.free → ends (.outputPageGrant st) (fun n => n.store.free = d.store.free - 1 ∧
        ∃ k ∈ n.ev.jobs, same k j ∧ k.granted = j.granted + 4096 ∧ k.state = (if j.state = 3 then 1 else j.state) ∧
          (j.state = 3 → n.ev.jobs.head? = some k))) ∧
      (d.store.free = 0 → d.store.grants.contains st = false → ends (.outputPageGrant st) (fun n => n.ev = d.ev ∧
        n.store = { d.store with grants := d.store.grants ++ [st] } ∧
        oget n Obj.storeCounters 0 8 = oget d Obj.storeCounters 0 8 + 1)) ∧
      (d.store.free = 0 → d.store.grants.contains st = true → ends (.outputPageGrant st) (fun n => n = d)))

/-- R240 to R249, Tables 12.4 and 12.10. -/
def Obligations.ChecksAndStore : Prop :=
  ∀ (s : State) (k : Nat),
    let d := s.sys.dev
    let x := checkOf d k
    let ends := fun (i : Instr) (f : Dev → Prop) => ∃ u : State, exec i s = .next u ∧ f u.sys.dev
    (∀ (i : QItem) (r : List QItem), k < checksOf d → x.job = none → x.sealing = none → (sealWaiting d k).isSome = false →
      (blockSt d 4 k).phase ≠ 1 → halted d = false → (queueOf d (196864 + k)).items = i :: r →
      (queueOf d (196864 + k)).isolated = false → i.badHeads = 0 → i.badPar = 0 →
      let v := i.data.val
      (i.data.len = 64 → descMalformed v = false → (getF v CheckDesc.length = 0 ∨
          rangeReadable d (getF v CheckDesc.startAddress) (getF v CheckDesc.length) = true) →
        ends (.checkJobStart k) (fun n => (checkOf n k).job = some ⟨v⟩ ∧ (queueOf n (196864 + k)).items = r)) ∧
      ((i.data.len ≠ 64 ∨ descMalformed v = true) → ogetN d Obj.thresholdDepth (getF v CheckDesc.resultQueue) 0 = 0 →
        ends (.checkJobStart k) (fun n => (checkOf n k).job = none ∧ oget n Obj.jobsFailed k 0 = oget d Obj.jobsFailed k 0 + 1))) ∧
    (∀ j : CheckJob, x.job = some j → x.sealing = none → (blockSt d 4 k).phase ≠ 1 →
      let v := j.desc
      let code := getF v CheckDesc.polynomial
      let n := getF v CheckDesc.length
      let q := getF v CheckDesc.resultQueue
      let run := scanRun s.sys code n (getF v CheckDesc.startAddress) (startRegister v, true, false)
      queueOpen d q = true → isWord d q = false → ogetN d Obj.thresholdDepth q 0 = 0 → cellsHeld d q < ogetN d Obj.queueDepthLimit q 0 →
      1 + ogetN d Obj.classAReserve 0 0 ≤ freeCells d →
      (run.2.2 = false → run.2.1 = true → ends (.checkJobComplete k) (fun m => (checkOf m k).job = none ∧
        ∃ (r : Bytes) (cells : List Nat), (queueOf m q).items = (queueOf d q).items ++ [{ plainItem r with places := cells }] ∧ r.len = 32 ∧
          getF r.val CheckRes.status = 0 ∧ getF r.val CheckRes.register = run.1 % 2 ^ 64 ∧
          getF r.val CheckRes.cookie = getF v CheckDesc.cookie ∧
          getF r.val CheckRes.value = (if getF v CheckDesc.lastF = 1 then run.1 ^^^ crcXorOut code else run.1) % 2 ^ 64)) ∧
      (run.2.2 = true → ends (.checkJobComplete k) (fun m => (checkOf m k).job = none ∧
        ∃ (r : Bytes) (cells : List Nat), (queueOf m q).items = (queueOf d q).items ++ [{ plainItem r with places := cells }] ∧
          getF r.val CheckRes.status = 3))) ∧
    (∀ (code a y n r : Nat), (∀ i < n, homeOf d 0 (a + i) = .mem (y + i)) → (∀ w, setHas s.sys.mem.extPsn w = false) →
      scanRun s.sys code n a (r, true, false) =
        ((List.range n).foldl (fun r i => crcByte code r (cellsRead s.sys.mem.ext (y + i) 1)) r, true, false)) ∧
    (∀ n off, k < checksOf d → x.sealing = none → (blockSt d 4 k).phase ≠ 1 → halted d = false →
      sealWaiting d k = some (n, off) →
      ends (.sealJob k) (fun m => (checkOf m k).sealing = some (n, off) ∧ (checkOf m k).job = x.job ∧
        oget m Obj.firmwareSuspensions k 0 = oget d Obj.firmwareSuspensions k 0 + (if x.job.isSome then 1 else 0))) ∧
    (∀ (n off : Nat) (r : Rec), x.sealing = some (n, off) → (blockSt d 4 k).phase ≠ 1 → recAt d n off = some r → r.off = off →
      (d.store.gapNext = [] → halted d = false → ends (.sealComplete k false) (fun m => (checkOf m k).sealing = none ∧
        (∃ z, recAt m n off = some z ∧ z.phase = 2 ∧ z.payload = r.payload ∧
          getF z.header BlockHdr.blockCrc = crcTagged 0 (n * 4194304 + off) (catBytes ⟨60, r.header / 2 ^ 32⟩ r.payload) % 2 ^ 32) ∧
        ∃ (name lba : Nat) (b : Bytes), m.out = .nvme name 0 lba b :: d.out)) ∧
      ends (.sealComplete k true) (fun m => (checkOf m k).sealing = none ∧ recAt m n off = none ∧
        m.store.free = d.store.free + r.pages ∧ m.store.gapNext.contains r.stream = true)) ∧
    (∀ (g : Segment) (name off : Nat) (r : Rec), d.store.segs = [g] → nameOf d.store g.number = some name → (blockSt d 5 (name / 2)).phase ≠ 1 →
      off ≠ 0 → g.records = [r] → r.off = off → r.phase = 2 →
      ends (.nvmeWriteComplete g.number off .done) (fun m => (recAt m g.number off).map (·.phase) = some 3) ∧
      (r.tries < 3 → ends (.nvmeWriteComplete g.number off .failed) (fun m =>
        (recAt m g.number off).map (fun z => (z.phase, z.tries)) = some (2, r.tries + 1) ∧
        oget m Obj.commandErrors (name / 2) 0 = oget d Obj.commandErrors (name / 2) 0 + 1 ∧
        oget m Obj.portRetries (name / 2) 0 = oget d Obj.portRetries (name / 2) 0 + 1)) ∧
      (3 ≤ r.tries → ends (.nvmeWriteComplete g.number off .failed) (fun m => (nameSt m.store name).state = 2)) ∧
      ends (.nvmeWriteComplete g.number off .dead) (fun m => (nameSt m.store name).state = 2)) ∧
    (∀ g : Segment, d.store.segs = [g] → g.reason = 0 → d.store.waiting = [] →
      (canReach d (g.openedAt + msec (ogetN d Obj.segmentCloseTime 0 0)) = true → ends .segmentCloseTime (fun m =>
        m.store.segs.head?.map (fun z => (z.number, z.reason)) = some (g.number, 2) ∧
        oget m Obj.storeCounters 0 5 = oget d Obj.storeCounters 0 5 + 1)) ∧
      (Served d Obj.storeCommand → ends .closeSegment (fun m =>
        m.store.segs.head?.map (fun z => (z.number, z.reason)) = some (g.number, 3) ∧ m.dict.abort = 0))) ∧
    (∀ (g : Segment) (rest : List Segment) (name h : Nat), d.store.segs = g :: rest → nameOf d.store g.number = some name →
      (blockSt d 5 (name / 2)).phase ≠ 1 → g.header = some h → ends (.segmentHeaderWritten g.number) (fun m =>
        sfind m.store.held g.number = some ⟨h, segData g, false⟩ ∧ m.store.free = d.store.free + sumNat (g.records.map Rec.pages) ∧
        m.store.lastCheck = getF h SegHdr.headerCheck ∧ m.store.segs.map Segment.number = rest.map Segment.number)) ∧
    (Served d Obj.storeCommand →
      let id := ogetN d Obj.formatIdentity 0 0
      let may := d.store.ready = false ∧ d.store.formatting = none ∧ id ≠ 0 ∧ slotsPer d.store (attached d.store) ≠ 0
      let i := id / 16 % 16
      (may → ends .format (fun m => m.store.formatting.map Prod.fst = some id ∧ m.dict.abort = 0)) ∧
      (¬ may → ends .format (fun m => m.store = d.store ∧ m.dict.abort = 0x08000022)) ∧
      (d.store.ready = false → ends .adopt (fun m => m.store = d.store ∧ m.dict.abort = 0x08000022)) ∧
      (∀ (z : Nat) (y : Namespace) (old : Option Nat), d.store.ready = true → d.store.places[i]? = some old →
        old.map (fun o => (nameSt d.store o).state) ≠ some 1 → old ≠ some z →
        (d.store.names.filter (fun p => decide (p.2.state = 3) && decide ((d.store.perName + 1) * slotBytes ≤ p.2.capacity))).head? = some (z, y) →
        ends .adopt (fun m => m.store.places[i]? = some (some z) ∧ (nameSt m.store z).state = 1 ∧ m.dict.abort = 0))) ∧
    (∀ id t, d.store.formatting = some (id, t) → ends .formatComplete (fun m => m.store.ready = true ∧ m.store.formatting = none ∧
      m.store.identity = id ∧ m.store.held = [] ∧ m.store.total = (attached d.store).length * slotsPer d.store (attached d.store)))

/-- R255, R257, R261, R262, R270, Table 13.4. -/
def Obligations.LineShellAndResets : Prop :=
  ∀ (s : State) (p : Nat),
    let d := s.sys.dev
    let ends := fun (c : Instr) (f : Dev → Prop) => ∃ u : State, exec c s = .next u ∧ f u.sys.dev
    let x := lineOf d p
    let here := sampleFrom d p (mediaOff d)
    let counts := fun (n : Dev) (r : Row) (i : Nat) => oget n r i 0 = oget d r i 0 + 1
    (Served d Obj.lineShellEnable →
      (d.line.awake = 0 → ends (.lineShellEnable true) (fun n => n.line = { d.line with awake := 1, calibration := 1 } ∧
        n.dict.abort = 0 ∧ oget n Obj.lineShellEnable 0 0 = 1)) ∧
      (d.line.awake ≠ 0 → ends (.lineShellEnable true) (fun n => n.line = d.line ∧ n.dict.abort = 0)) ∧
      (d.line.ports.any (fun k => k.2.bound.isSome) = true → ends (.lineShellEnable false) (fun n => n.line = d.line ∧
        n.dict.obj = d.dict.obj ∧ n.dict.abort = 0x08000022)) ∧
      (d.line.ports.any (fun k => k.2.bound.isSome) = false → ends (.lineShellEnable false) (fun n => n.line.awake = 0 ∧
        n.line.locked = false ∧ n.line.edges = [] ∧ oget n Obj.lineShellEnable 0 0 = 0 ∧ n.dict.abort = 0))) ∧
    (d.line.awake = 1 → (blockSt d 6 0).phase ≠ 1 → (∀ k, sfind d.dict.units 4 = some k → ∀ w ∈ k.waiting, w.2 = []) →
      ends .lineShellWakeComplete (fun n => n.line.awake = 2 ∧ n.line.locked = true ∧ n.line.calTemp = lineDieTemp d ∧
        n.line.drift = false ∧ sfind n.dict.units 4 = none)) ∧
    (d.line.awake ≠ 1 → exec .lineShellWakeComplete s = .next s) ∧
    (∀ (rising long : Bool) (dt : Nat), d.time.mediaLocked = true → canReach d (now d + dt) = true →
      let m := passTime d dt
      let off := (mediaOff m * 96 / edge96 + 2) * edge96 / 96
      (long = true → ogetN d Obj.syncPinEdge 0 0 = (if rising then 1 else 2) →
        ends (.syncConvEdge rising long dt) (fun n => n.line.edges = d.line.edges ++
          [{ due := now m + (off - mediaOff m), off := off, mask := ogetN d Obj.syncPinMask 0 0, source := 1 }])) ∧
      ((long = false ∨ ogetN d Obj.syncPinEdge 0 0 ≠ (if rising then 1 else 2)) →
        ends (.syncConvEdge rising long dt) (fun n => n.line = d.line))) ∧
    (∀ mask tick, Served d Obj.syncCommand →
      (tick ≠ 0 → tick ≤ curTick d → ends (.syncCommand mask tick) (fun n => n.line = d.line ∧ n.dict.abort = 0x08000020)) ∧
      (curTick d < tick → ends (.syncCommand mask tick) (fun n => n.line.commands = d.line.commands ++ [(tick, mask)] ∧ n.dict.abort = 0)) ∧
      ends (.syncCommand mask 0) (fun n => n.line.commands = d.line.commands ++ [(curTick d + 1, mask)] ∧ n.dict.abort = 0)) ∧
    (∀ e : EdgeReset, d.line.edges = [e] → canReach d e.due = true → ends .syncReset (fun n => n.line.edges = [] ∧
      counts n Obj.syncEvents 0 ∧ oget n Obj.lastSyncSource 0 0 = (min 4 e.source : Nat) ∧
      (p ∈ linesRunning d → bitSet e.mask p = true → x.calibrating = false →
        (lineOf n p).runTo = sampleFrom d p e.off + lineSettling d p ∧ counts n Obj.portSyncResets p) ∧
      ((p ∉ linesRunning d ∨ bitSet e.mask p = false ∨ x.calibrating = true) → lineOf n p = x))) ∧
    (d.line.awake = 2 → d.line.locked = true → ends .pllUnlock (fun n => n.line.locked = false ∧ n.line.unlockedTick = true ∧
      counts n Obj.pllUnlocks 0 ∧ counts n Obj.faultDetected 0 ∧
      (p ∈ linesRunning d → lineOf n p = if x.runs here then x else { x with runFrom := here, runTo := here }))) ∧
    (d.line.awake = 2 → d.line.locked = false → ends .pllRelock (fun n => n.line.locked = true ∧ counts n Obj.syncEvents 0 ∧
      oget n Obj.lastSyncSource 0 0 = 4 ∧ (p ∈ linesRunning d → p < 64 → x.calibrating = false → counts n Obj.portSyncResets p ∧
        ∃ off, mediaOff d ≤ off ∧ off ≤ mediaOff d + edge96 / 96 ∧ (lineOf n p).runTo = sampleFrom d p off + lineSettling d p))) ∧
    (Served d Obj.recalibrateNow →
      (p < linesPowered d → x.bound = none → ends (.recalibrateNow p) (fun n => (lineOf n p).calibrating = true ∧
        n.line.calibration = 1 ∧ n.dict.abort = 0)) ∧
      ((linesPowered d ≤ p ∨ x.bound.isSome = true) → ends (.recalibrateNow p) (fun n => n.line = d.line ∧ n.dict.abort = 0x08000022))) ∧
    (x.calibrating = true → ends (.calibrationComplete p) (fun n => (lineOf n p).calibrating = false ∧
      (lineOf n p).runTo = here + lineSettling d p ∧ counts n Obj.portSyncResets p ∧ n.line.calTemp = lineDieTemp d ∧ n.line.drift = false)) ∧
    (∀ t : Int, d.line.awake = 2 →
      (d.line.drift = false → 100 < (t - d.line.calTemp).natAbs → ends (.calDrift t) (fun n => n.line.drift = true ∧ counts n Obj.faultDetected 0)) ∧
      ((d.line.drift = true ∨ (t - d.line.calTemp).natAbs ≤ 100) → ends (.calDrift t) (fun n => n.line = d.line ∧ n.faults = d.faults ∧
        n.dict = d.dict)))

/-- R273 to R278, R287, Table 14.2. -/
def Obligations.CanBuses : Prop :=
  ∀ (s : State) (b : Nat),
    let d := s.sys.dev
    let ends := fun (c : Instr) (f : Dev → Prop) => ∃ u : State, exec c s = .next u ∧ f u.sys.dev
    let node := d.start.straps.node % 128
    let x := canNode d b
    let rest := fun (n : Dev) => canNode n (1 - b) = canNode d (1 - b) ∧ n.start = d.start ∧ n.dict.obj = d.dict.obj ∧ n.chans = d.chans
    (busOn d b = true →
      ends (.nmtStart b) (fun n => canNode n b = { x with nmt := 5 } ∧ rest n) ∧
      ends (.nmtStop b) (fun n => canNode n b = { x with nmt := 4 } ∧ rest n) ∧
      ends (.nmtPreOperational b) (fun n => canNode n b = { x with nmt := 127 } ∧ rest n) ∧
      (∀ c, (c = .nmtResetNode b ∨ c = .nmtResetCommunication b) → ends c (fun n => rest n ∧
        canNode n b = { x with nmt := 127, syncCount := [], nominal := ogetN d Obj.canNominalRate 0 0, data := ogetN d Obj.canDataRate 0 0 } ∧
        n.out = .can b (0x700 + node) (bytesOf 1 0) :: d.out)) ∧
      (∀ idx sub data y, x.nmt ≠ 4 →
        exec (.usdoRequest b true idx sub data y) s = .next (s.onDev (objectWrite b idx sub 0 data y)) ∧
        exec (.usdoRequest b false idx sub data y) s = .next (s.onDev (objectRead b idx sub 0))) ∧
      (∀ idx sub data y w, x.nmt = 4 → exec (.usdoRequest b w idx sub data y) s = .next s) ∧
      (∀ k, k < 2 → ogetN d Obj.consumerHeartbeatTime 0 k % 65536 ≠ 0 → ogetN d Obj.consumerHeartbeatTime 0 k / 65536 % 256 ≠ 0 →
        ends (.consumerHeartbeatTimeout b k) (fun n => oget n Obj.faultDetected 0 0 = oget d Obj.faultDetected 0 0 + 1 ∧
          n.cans = d.cans ∧ n.out = d.out ∧ n.start = d.start ∧ n.chans = d.chans))) ∧
    (busOn d b = false → ∀ c, (c = .nmtStart b ∨ c = .nmtStop b ∨ c = .nmtPreOperational b ∨ c = .nmtResetNode b ∨
      c = .nmtResetCommunication b ∨ c = .sync b) → exec c s = .next s) ∧
    (∀ n, n < 4 → busOn d b = true → x.nmt = 5 →
      let ty := ogetN d Obj.tpdoTransmissionType n 0
      let k := sget x.syncCount n 0 + 1
      let cob := ogetN d Obj.tpdoCobId n 0
      let e := ogetN d Obj.rpdoMapping n 0
      let size := e % 256 / 8
      ((∀ m, m < 4 → m ≠ n → bitSet (ogetN d Obj.tpdoCobId m 0) 31 = true) → bitSet cob 31 = false → ty ≠ 0 → ty ≤ 240 →
        (k < ty → ends (.sync b) (fun m => canNode m b = { x with syncCount := sput x.syncCount n k } ∧ m.out = d.out)) ∧
        (ty ≤ k → ∀ (v : Bytes) (f : Nat),
          (let y := setNode d b { x with syncCount := serase x.syncCount n }; tpdoData y n = (some v, { y with free := f })) →
          ends (.sync b) (fun m => canNode m b = { x with syncCount := serase x.syncCount n } ∧
            m.out.take 1 = [.can (if b = 0 ∧ busOn d 1 = true ∧ (canNode d 1).nmt = 5 then 1 else b) (cob % 2 ^ 29) v]))) ∧
      (∀ data y, bitSet (ogetN d Obj.rpdoCobId n 0) 31 = false → ogetN d Obj.rpdoMappedCount n 0 = 1 →
        mappedBytes d Obj.rpdoMapping n 1 ≤ data.len →
        let w := writeAccess b (e / 65536 % 65536) (e / 256 % 256) 0 ⟨size, sliceBytes data.val 0 size⟩ y d
        exec (.rpdo b n data y) s = .next (s.onDev (fun _ => { w with out := dropAnswer w.out }))) ∧
      (∀ data y, bitSet (ogetN d Obj.rpdoCobId n 0) 31 = true → exec (.rpdo b n data y) s = .next s) ∧
      (254 ≤ ty → ogetN d Obj.tpdoEventTimer n 0 ≠ 0 → b < 2 →
        let due := sget d.canAt n (now d) + max (msec (ogetN d Obj.tpdoEventTimer n 0)) (usec (100 * ogetN d Obj.tpdoInhibitTime n 0))
        canReach d due = true → exec (.tpdoEventTimer n) s = .next (s.onDev (fun d => tpdoSend (passUntil d due) n)))) ∧
    (∀ (m m' : Dev) (n : Nat) (v : Bytes), bitSet (ogetN m Obj.tpdoCobId n 0) 31 = false → tpdoData m n = (some v, m') →
      (tpdoSend m n).canAt = sput m'.canAt n (now m') ∧ (tpdoSend m n).cans = m'.cans ∧ (tpdoSend m n).dict = m'.dict) ∧
    (let period := ogetN d Obj.producerHeartbeatTime 0 0
     let due := sget d.canAt 4 (now d) + msec period
     let beat := fun (k : Nat) => Emission.can k (0x700 + node) (bytesOf 1 (canNode d k).nmt)
     period ≠ 0 → canReach d due = true →
      (busOn d 0 = true → busOn d 1 = true → ends .producerHeartbeat (fun n => n.out = beat 1 :: beat 0 :: d.out ∧ n.cans = d.cans)) ∧
      (busOn d 0 = true → busOn d 1 = false → ends .producerHeartbeat (fun n => n.out = beat 0 :: d.out ∧ n.cans = d.cans)) ∧
      (busOn d 0 = false → busOn d 1 = true → ends .producerHeartbeat (fun n => n.out = beat 1 :: d.out ∧ n.cans = d.cans))) ∧
    (b < 2 → busEnabled d b = true →
      (x.state ≠ 2 → ends (.busOff b false) (fun n => canNode n b = { x with state := 2 } ∧ canNode n (1 - b) = canNode d (1 - b) ∧
        oget n Obj.busOffCount 0 b = oget d Obj.busOffCount 0 b + 1 ∧ bitSet (errorReg n) 4 = true)) ∧
      (x.state = 2 → ends (.busOff b true) (fun n => canNode n b = { x with state := 0 } ∧ rest n)) ∧
      (∀ passive, x.state ≠ 2 → ends (.canErrorPassive b passive) (fun n => canNode n b = { x with state := b2n passive } ∧ rest n ∧
        (passive = true → bitSet (errorReg n) 4 = true)))) ∧
    (∀ speed, ends (.mgmtLinkChange speed) (fun n => n.goa = { d.goa with link := speed % 4 } ∧ n.cans = d.cans ∧
      (speed % 4 = 0 → bitSet (errorReg n) 4 = true))) ∧
    (Served d Obj.errorCount → ends .errorCountClear (fun n => n.faults = { d.faults with emcyField := [] } ∧ n.dict.abort = 0))

/-- R287 to R290, Table 14.8. -/
def Obligations.ObjectAccess : Prop :=
  ∀ (s : State) (h : GoaHead) (slot : Nat) (y : Outside),
    let d := s.sys.dev
    let ends := fun (c : Instr) (f : Dev → Prop) => ∃ u : State, exec c s = .next u ∧ f u.sys.dev
    let counts := fun (n : Dev) (j : Nat) => oget n Obj.goaCounters 0 j = oget d Obj.goaCounters 0 j + 1
    let key := d.goa.keys.getD slot 0
    let told := fun (r : Bytes) => Emission.datagram (catBytes r (bytesOf 32 (Config.hmac key r.len r.val)))
    let cmd := fun (c : Instr) (body : GoaBody) =>
      (∃ staged items, c = .read h staged items ∧ body = .read staged items) ∨ (∃ items, c = .write h items y ∧ body = .write items) ∨
      (∃ i u n len crc, c = .blockBegin h i u n len crc ∧ body = .blockBegin i u n len crc) ∨
      (∃ off b, c = .blockData h off b ∧ body = .blockData off b) ∨ (c = .blockEnd h y ∧ body = .blockEnd) ∨
      (∃ i u n off, c = .blockRead h i u n off ∧ body = .blockRead i u n off)
    (∀ c body, cmd c body →
      (silent d = true → exec c s = .next s) ∧
      (silent d = false → keySlot d h = none → ends c (fun n => n.goa = d.goa ∧ n.out = d.out ∧ counts n 1)) ∧
      (silent d = false → keySlot d h = some slot →
        (sessionOf d h.session = none → d.goa.sessions.length = 8 → (∀ o ∈ d.goa.sessions, now d < o.last + secs (ogetN d Obj.sessionIdleTime 0 0)) →
          ends c (fun n => n.goa = d.goa ∧ counts n 4 ∧ n.out = told (responseOf h body.opcode 3 0 noBytes) :: d.out)) ∧
        (∀ (x : Session), sessionOf d h.session = some x →
          (∀ k, x.kept.find? (fun k => decide (k.seq = h.seq) && decide (k.body = body)) = some k →
            ends c (fun n => n.goa = d.goa ∧ counts n 3 ∧ n.out = told k.resp :: d.out)) ∧
          (x.kept.find? (fun k => decide (k.seq = h.seq) && decide (k.body = body)) = none → h.seq ≤ x.high →
            ends c (fun n => n.goa = d.goa ∧ counts n 2 ∧ n.out = d.out)) ∧
          (x.kept.find? (fun k => decide (k.seq = h.seq) && decide (k.body = body)) = none → x.high < h.seq → x.frees = [] →
            bodyGood h body = false → ends c (fun n => counts n 0 ∧ (sessionOf n h.session).map (·.high) = some h.seq ∧
              n.out = told (responseOf h body.opcode 4 0 noBytes) :: d.out))))) ∧
    (∀ x : Session, silent d = false → keySlot d h = some slot → sessionOf d h.session = some x → x.kept = [] → x.high < h.seq → x.frees = [] →
      h.good = true → h.session ≠ 0 →
      let z := { x with key := slot, high := h.seq, last := now d, frees := [] }
      let d1 := setSession (goaCount d 0) z
      let blockOf := fun (n : Dev) => (sessionOf n h.session).map (fun t => (t.high, t.block))
      (∀ staged i, ends (.read h staged [i]) (fun n =>
        let g := readAccess (h.session + 2) i.idx i.sub i.item staged 1024 d1
        n.out = told (responseOf h 1 0 1 (joinBytes (match g.result with
          | .inl code => [itemHead i code, bytesOf 4 0]
          | .inr b => [itemHead i 0, bytesOf 4 b.len, padded b]))) :: g.dev.out)) ∧
      (∀ i, ends (.write h [i] y) (fun n =>
        let w := writeAccess (h.session + 2) i.idx i.sub i.item i.data y d1
        ((w.dict.abort ≠ 0 ∨ i.idx ≠ 0x2601 ∨ i.sub ≠ 1) →
          n.out = told (responseOf h 2 0 1 (joinBytes [itemHead i w.dict.abort])) :: dropAnswer w.out) ∧
        (∀ r o, w.dict.abort = 0 → i.idx = 0x2601 → i.sub = 1 → w.out = .answer 0 r :: o →
          n.out = told (responseOf h 2 0 1 (joinBytes [itemHead i (setupItemStatus r.len r)])) :: o))) ∧
      (∀ i u m len crc,
        (1 ≤ len → len ≤ 262144 → ends (.blockBegin h i u m len crc) (fun n => counts n 0 ∧
          blockOf n = some (h.seq, some { idx := i, sub := u, item := m, len := len, crc := crc, segs := [], clash := false, last := now d }) ∧
          (x.block.isSome = true → counts n 5) ∧ n.out = told (responseOf h 3 0 1 noBytes) :: d.out)) ∧
        ((len = 0 ∨ 262144 < len) → ends (.blockBegin h i u m len crc) (fun n => counts n 0 ∧ blockOf n = some (h.seq, x.block) ∧
          n.out = told (responseOf h 3 0x06090030 1 noBytes) :: d.out))) ∧
      (∀ b, x.block = some b →
        (∀ off data, off % 1024 = 0 → off < b.len → data.len = min 1024 (b.len - off) → ends (.blockData h off data) (fun n =>
          blockOf n = some (h.seq, some { b with segs := sput b.segs off data, last := now d, clash :=
            (b.clash || (match sfind b.segs off with | some o => decide (o ≠ data) | none => false)) }) ∧
          n.out = told (responseOf h 4 0 1 noBytes) :: d.out)) ∧
        (blockBytes b = none → ends (.blockEnd h y) (fun n => blockOf n = some (h.seq, some { b with last := now d }) ∧
          n.out = told (responseOf h 5 0x08000000 1 noBytes) :: d.out)) ∧
        (∀ data, blockBytes b = some data → ends (.blockEnd h y) (fun n =>
          let w := writeAccess (h.session + 2) b.idx b.sub b.item data y (setSession d1 { z with block := none })
          ∃ reply, n.out = told (responseOf h 5 w.dict.abort 1 reply) :: dropAnswer w.out))) ∧
      (∀ i u m off b, x.snap = some (i, u, m, b) → off ≠ 0 → ends (.blockRead h i u m off) (fun n =>
        n.out = told (responseOf h 6 0 1 ⟨min 1024 (b.len - off), sliceBytes b.val off (min 1024 (b.len - off))⟩) :: d.out))) ∧
    (∀ k bad, silent d = false →
      (d.goa.keys = [0, 0] → d.goa.sessions = [] → bad = false → h.tagOk = true → h.good = true → slot ≤ 1 → k ≠ 0 → h.session ≠ 0 →
        ends (.keyLoad h slot k bad) (fun n => n.goa.keys = d.goa.keys.set slot k ∧ counts n 0 ∧
          (sessionOf n h.session).map (fun t => (t.key, t.high)) = some (slot, h.seq) ∧ ∃ r, n.out = .datagram r :: d.out)) ∧
      ((d.goa.keys.any (fun o => decide (o ≠ 0)) = true ∨ bad = true ∨ h.tagOk = false) →
        ends (.keyLoad h slot k bad) (fun n => n.goa = d.goa ∧ n.out = d.out ∧ counts n 1))) ∧
    (∀ (id : Nat) (x : Session) (b : Block), sessionOf d id = some x → x.block = some b → canReach d (b.last + secs 5) = true →
      ends (.blockTimeout id) (fun n => (sessionOf n id) = some { x with block := none } ∧ counts n 5 ∧ n.out = d.out))

/-- R295 to R309, Tables 15.1, 15.3 and 15.4. -/
def Obligations.FaultReports : Prop :=
  ∀ (s : State) (code inst detail : Nat),
    let d := s.sys.dev
    let ends := fun (c : Instr) (f : Dev → Prop) => ∃ u : State, exec c s = .next u ∧ f u.sys.dev
    let free : CompUnit := { state := 0, stream := none }
    (∀ cls, (d.start.resetLow = true ∨ reportable d cls code inst (detail % 2 ^ 32) = false) → exec (.faultReport cls code inst detail) s = .next s) ∧
    (∀ cls, cls < 2 → d.start.resetLow = false → reportable d cls code inst (detail % 2 ^ 32) = true → quenched d = false → d.faults.blocks = [] →
      d.faults.low = [] → ends (.faultReport cls code inst detail) (fun n => n.faults.seq = d.faults.seq + 1 ∧ n.faults.blocks = [] ∧
        n.faults.faultN = d.faults.faultN ∧ oget n Obj.faultDetected 0 cls = oget d Obj.faultDetected 0 cls + 1 ∧
        oget n Obj.faultLogged 0 cls = oget d Obj.faultLogged 0 cls + 1 ∧ n.out = d.out ∧ n.start = d.start ∧
        n.faults.low.map (fun e => (e.seq, e.cls, e.code, e.inst, e.detail, e.conseq)) =
          [(d.faults.seq + 1, cls, code, inst, detail % 2 ^ 32, false)])) ∧
    (d.start.resetLow = false → quenched d = false → inst < 262144 → ends (.faultReport 2 0x0511 inst detail) (fun n =>
      (queueOf n inst).isolated = true ∧ (queueOf n inst).items = (queueOf d inst).items ∧
      n.faults.standing.contains (0x0511, inst, detail % 2 ^ 32) = true ∧ n.faults.blocks = d.faults.blocks)) ∧
    (d.start.resetLow = false → quenched d = false → inst < compressorsOf d → (compUnit d inst).stream = none →
      let x := blockSt d 3 inst
      let recent := x.starts.filter (fun t => decide (now d ≤ t + msec 10000))
      windowOf d (.compressor inst) = none →
      (recent.length < 2 → x.phase ≠ 1 → ends (.faultReport 3 0x0920 inst detail) (fun n => compUnit n inst = { free with state := 4 } ∧
        (blockSt n 3 inst).phase = 1 ∧ (blockSt n 3 inst).opened = now d ∧ (blockSt n 3 inst).starts = now d :: recent ∧
        n.faults.faultN = true ∧ oget n Obj.blockResets (768 + inst) 0 = oget d Obj.blockResets (768 + inst) 0 + 1)) ∧
      (recent.length < 2 → x.phase = 1 → ends (.faultReport 3 0x0920 inst detail) (fun n => blockSt n 3 inst = x ∧ compUnit n inst = compUnit d inst)) ∧
      (2 ≤ recent.length → d.faults.quench = 0 → ends (.faultReport 3 0x0920 inst detail) (fun n => n.start.state = 4 ∧
        n.faults.quench = 0x0F03 ∧ (blockSt n 3 inst).phase = 3 ∧ n.faults.faultN = true))) ∧
    (d.start.resetLow = false → quenched d = false → d.faults.quench = 0 → ends (.faultReport 4 0x0C40 0 detail) (fun n => n.start.state = 4 ∧
      n.start.ready = false ∧ n.faults.quench = 0x0C40 ∧ n.faults.quenchSup = true ∧ n.faults.faultN = true ∧ n.faults.pilot = 0 ∧
      (∀ p ∈ n.fwd.ports, p.2.linkUp = false) ∧ (∀ e ∈ n.engines, e.2.thread = none) ∧ (∀ u ∈ n.ev.units, u.2 = free))) ∧
    (∀ cls, quenched d = true → ends (.faultReport cls code inst detail) (fun n => n.start = d.start ∧ n.ev = d.ev ∧ n.queues = d.queues ∧
      n.faults.blocks = d.faults.blocks)) ∧
    (∀ kind b, let x := blockSt d kind b
      (x.phase = 1 → kind ≠ 8 → ¬ (kind = 7 ∧ d.twin.state = 2) → ends (.blockResetEnd kind b) (fun n =>
        blockSt n kind b = { x with phase := 2, ended := now d } ∧ (kind = 3 → compUnit n b = free))) ∧
      (x.phase ≠ 1 → exec (.blockResetEnd kind b) s = .next s) ∧
      (let due := x.ended + msec (ogetN d Obj.settleTime 0 0)
       x.phase = 2 → canReach d due = true → ends (.settleTimeExpiry kind b) (fun n => blockSt n kind b = { x with phase := 0 } ∧
        (windowStands (setBlock d kind b { x with phase := 0 }) = false → d.faults.quench = 0 → busEnabled d 0 = true → d.faults.emcyLast = none →
          oget n Obj.emcySent 0 0 = oget d Obj.emcySent 0 0 + 1 ∧ n.faults.emcyField.head? = some 0)))) ∧
    (∀ e : LogEntry, d.faults.low = [e] → d.faults.ring.length < 65536 → canReach d (e.since + msec (ogetN d Obj.coalesceWindow 0 0)) = true →
      ends (.coalesceWindowClose e.seq) (fun n => n.faults.low = [] ∧ n.faults.ring = e :: d.faults.ring)) ∧
    (d.faults.faultN = true →
      (windowStands d = false → d.faults.quench = 0 → canReach d (d.faults.faultNAt + msec 100) = true →
        ends .faultNRelease (fun n => n.faults = { d.faults with faultN := false })) ∧
      ((windowStands d = true ∨ d.faults.quench ≠ 0) → exec .faultNRelease s = .next s)) ∧
    (d.start.ready = true → d.faults.hbLost = none → canReach d (heartbeatDue d) = true → ends .heartbeatTimeout (fun n =>
      n.faults.hbLost = some (now n) ∧ heartbeatDue d ≤ now n ∧ n.faults.pilot = 0)) ∧
    (∀ t, d.faults.hbLost = some t → d.start.ready = true → d.start.state = 1 → canReach d (t + msec (ogetN d Obj.watchdogGrace 0 0)) = true →
      (d.faults.hbArmed = true → d.faults.blocks = [] → ends .watchdog (fun n => n.start.state = 2 ∧ n.start.kind = 7 ∧
        n.start.due = some 7 ∧ n.start.ready = false)) ∧
      (d.faults.hbArmed = false → d.start.kind < 6 → d.start.retention.cold < 2 → ends .watchdog (fun n => n.start.state = 0 ∧
        n.start.kind = 5 ∧ n.start.due = some 5 ∧ n.start.retention.failReason = 3 ∧ n.start.retention.failedStep = d.start.step)))

/-- R316 to R325, Tables 16.8 and 16.9. -/
def Obligations.Starts : Prop :=
  ∀ (s : State) (w : StartWorld),
    let d := s.sys.dev
    let x := d.start
    let ends := fun (c : Instr) (f : Dev → Prop) => ∃ u : State, exec c s = .next u ∧ f u.sys.dev
    let refused := fun (c : Instr) => ends c (fun n => n.start = x ∧ n.chans = d.chans ∧ n.dict.abort = 0x08000022)
    let lost := fun (n : Dev) (kind step reason : Nat) => n.start.due = some kind ∧ n.start.kind = kind ∧
      n.start.retention.failedStep = step ∧ n.start.retention.failReason = reason
    (∀ st : Straps, x.resetLow = true → quenched d = false → x.retention.cold < 3 →
      let t : Straps := ⟨st.node % 128, st.tier % 4, st.boot % 4, st.twin % 4, st.line % 4⟩
      let z : Dev := { Dev.reset with start := { Start.reset with straps := t, fused := x.fused } }
      (∃ u, exec (.coldStart st w) s = .next u ∧ u.sys.mem = Mem.reset ∧ u.sys.dev.start.straps = t ∧ u.sys.dev.start.resetLow = false ∧
        u.sys.dev.chans = []) ∧
      (∀ f r, failsIn w 1 3 = some (f, r) → x.retention.cold < 2 → ends (.coldStart st w) (fun n => lost n 5 f r ∧
        n.start.retention.cold = x.retention.cold + 1)) ∧
      (failsIn w 1 3 = none →
        (t.twin = 3 → ends (.coldStart st w) (fun n => n.start.state = 3 ∧ n.start.retention.banked = 3 ∧ n.faults.pilot = 2)) ∧
        (t.twin ≠ 3 → t.boot = 3 → ends (.coldStart st w) (fun n => n.start.state = 3 ∧ n.start.retention.banked = 2)) ∧
        (t.twin ≠ 3 → t.boot ≠ 3 → failsIn w 4 6 = none → trainedGiB z w < 16 → x.retention.cold < 2 →
          ends (.coldStart st w) (fun n => lost n 5 6 1)) ∧
        (t.twin ≠ 3 → t.boot = 2 → failsIn w 4 8 = none → 16 ≤ trainedGiB z w → ends (.coldStart st w) (fun n => n.start.step = 8 ∧ n.start.state = 0 ∧
          awaitsImage n = true ∧ n.start.armed = true)) ∧
        (∀ i, t.twin ≠ 3 → t.boot = 0 → failsIn w 4 8 = none → 16 ≤ trainedGiB z w → failsIn w 9 10 = none → foundImage z w.main = some i →
          imageOk z i = true → ends (.coldStart st w) (fun n => n.start.step = 10 ∧ n.start.image = some i ∧ n.start.imageFrom = 0 ∧ n.start.state = 0)))) ∧
    (∀ st, x.resetLow = false → x.due = none → exec (.coldStart st w) s = .next s) ∧
    (x.state = 0 → x.step = 10 → x.world = some w → failsIn w 11 12 = none →
      let up := fun (n : Dev) => n.start.ready = true ∧ n.start.state = 1 ∧ n.start.step = 12 ∧ n.time.started = true ∧
        n.store.lastTick < n.time.firstTick
      ends .ptpAcquireTimeout up ∧ (Served d Obj.startCommand → ends .proceed up)) ∧
    (¬ (x.state = 0 ∧ x.step = 10) → exec .ptpAcquireTimeout s = .next s ∧ (Served d Obj.startCommand → refused .proceed)) ∧
    (Served d Obj.startCommand →
      (∀ c t, (c = .warm ∧ t = false) ∨ (c = .warmSelftest ∧ t = true) →
        (x.state = 1 → ends c (fun n => n.start.state = 2 ∧ n.start.kind = 6 ∧ n.start.due = some 6 ∧ n.start.selftest = t ∧
          n.start.ready = false ∧ n.start.straps = x.straps ∧ n.start.retention = { x.retention with warms := x.retention.warms + 1 } ∧
          n.chans = [] ∧ n.ev.streams = [])) ∧
        (x.state ≠ 1 → refused c)) ∧
      (x.state = 1 → ends .cold (fun n => n.start.state = 0 ∧ n.start.step = 1 ∧ n.start.kind = 2 ∧ n.start.due = some 2 ∧
        n.start.straps = x.straps ∧ n.start.retention = { x.retention with colds := x.retention.colds + 1, warm := 0 } ∧
        n.dict = Dict.reset ∧ n.chans = [] ∧ n.queues = [])) ∧
      (x.state ≠ 1 → refused .cold) ∧
      (x.state = 3 →
        ends .rekindle (fun n => n.start.state = 0 ∧ n.start.kind = 3 ∧ n.start.due = some 3 ∧ n.start.retention.cold = 0 ∧
          n.start.straps = x.straps ∧ n.start.boot = if x.straps.boot = 3 then 0 else x.straps.boot) ∧
        ends .rekindleRecovery (fun n => n.start.state = 0 ∧ n.start.kind = 3 ∧ n.start.due = some 3 ∧ n.start.retention.cold = 0 ∧
          n.start.straps = x.straps ∧ n.start.boot = 1)) ∧
      (x.state ≠ 3 → refused .rekindle ∧ refused .rekindleRecovery)) ∧
    (∀ k, x.due = some k → 6 ≤ k → x.kind = k → x.state = 2 →
      let last := if x.selftest = true ∨ ogetB d Obj.warmSelfTest 0 0 = true then 7 else 6
      (∀ f r, failsIn w 1 last = some (f, r) →
        (x.retention.warm < 2 → ends (.warmStart w) (fun n => lost n 9 f r ∧ n.start.state = 2)) ∧
        (2 ≤ x.retention.warm → ends (.warmStart w) (fun n => lost n 4 f r ∧ n.start.state = 0))) ∧
      (failsIn w 1 last = none → w.imageOk = true → failsIn w 9 11 = none → ends (.warmStart w) (fun n => n.start.ready = true ∧
        n.start.state = 1 ∧ n.start.step = 11 ∧ n.start.due = none ∧ n.start.straps = x.straps))) ∧
    (x.state ≠ 2 → exec (.warmStart w) s = .next s) ∧
    (∀ step k, x.resetLow = false → quenched d = false → 1 ≤ step → step ≤ 12 → x.due = some k → x.kind < 6 →
      (x.retention.cold < 2 → ends (.startStepTimeout step) (fun n => lost n 5 step 2 ∧ n.start.retention.cold = x.retention.cold + 1)) ∧
      (2 ≤ x.retention.cold → ends (.startStepTimeout step) (fun n => n.start.state = 3 ∧ n.start.retention.banked = 1 ∧ n.faults.pilot = 2)))

/-- R312, R314, R318, R319, R322, R324. -/
def Obligations.FirmwareAndSupplies : Prop :=
  ∀ (s : State) (signed : Bool),
    let d := s.sys.dev
    let x := d.start
    let i := imageOf d (receivedImage d) signed
    let ends := fun (c : Instr) (f : Dev → Prop) => ∃ u : State, exec c s = .next u ∧ f u.sys.dev
    let target := ogetN d Obj.firmwareLoadTarget 0 0
    (∀ b : Bytes, Served d Obj.firmwareLoadData →
      let off := ogetN d Obj.firmwareLoadOffset 0 0
      (1 ≤ b.len → b.len ≤ 262144 → ends (.firmwareLoadData b) (fun n => n.start = { x with load := (off, b) :: x.load, loadStatus := 1 } ∧
        ogetN n Obj.firmwareLoadOffset 0 0 = (off + b.len) % 2 ^ 32 ∧ n.dict.abort = 0)) ∧
      ((b.len = 0 ∨ 262144 < b.len) → ends (.firmwareLoadData b) (fun n => n.start = x ∧ n.dict.abort = 0x06070010))) ∧
    (Served d Obj.firmwareLoadCommand →
      (x.loadStatus = 1 → target ≠ 0 → imageOk d i = true → ends (.verifyAndCommit signed) (fun n =>
        n.start = { x with loadStatus := 3, loadImage := some i } ∧ n.dict.abort = 0)) ∧
      (x.loadStatus = 1 → target ≠ 0 → imageOk d i = false → ends (.verifyAndCommit signed) (fun n => n.start = { x with loadStatus := imageStatus i } ∧
        oget n Obj.signatureFailures 0 0 = oget d Obj.signatureFailures 0 0 + 1 ∧ n.dict.abort = 0)) ∧
      (∀ w, x.loadStatus = 1 → target = 0 → x.world = some w → x.step = 8 → x.kind < 6 → failsIn w 9 10 = none → imageOk d i = true →
        ends (.verifyAndCommit signed) (fun n => n.start.image = some i ∧ n.start.imageFrom = 2 ∧ n.start.step = 10 ∧ n.start.loadStatus = 4)) ∧
      ((x.loadStatus ≠ 1 ∨ (target = 0 ∧ awaitsImage d = false)) → ends (.verifyAndCommit signed) (fun n => n.start = x ∧ n.dict.abort = 0x08000022)) ∧
      ends .discard (fun n => n.start = { x with load := [], loadStatus := 0 } ∧ n.dict.abort = 0) ∧
      (∀ i, x.image = some i → ends .raiseRollbackIndex (fun n => n.start = { x with fused := max (fusedIndex d) i.rollback } ∧ n.dict.abort = 0)) ∧
      (x.image = none → ends .raiseRollbackIndex (fun n => n.start = x ∧ n.dict.abort = 0x08000022))) ∧
    (∀ i, x.loadImage = some i → ends .flashWriteDone (fun n => n.start.loadStatus = 4 ∧ n.start.loadImage = none ∧
      (target = 2 → n.start.recovery = some i ∧ n.start.main = x.main) ∧ (target ≠ 2 → n.start.main = some i ∧ n.start.recovery = x.recovery))) ∧
    (x.loadImage = none → exec .flashWriteDone s = .next s) ∧
    (awaitsImage d = true → canReach d (x.waitFrom + msec (ogetN d Obj.firmwareLoadTimeout 0 0)) = true → x.kind < 6 → x.retention.cold < 2 →
      ends .firmwareLoadTimeout (fun n => n.start.due = some 5 ∧ n.start.kind = 5 ∧ n.start.retention.failedStep = 8 ∧ n.start.retention.failReason = 2)) ∧
    (awaitsImage d = false → exec .firmwareLoadTimeout s = .next s) ∧
    (∀ rail, rail < 10 → quenched d = false →
      (x.armed = true → d.faults.quench = 0 → ends (.railOutOfRange rail) (fun n => n.start.state = 4 ∧ n.faults.quench = 0x0D40 ∧
        n.faults.faultN = true ∧ n.faults.pilot = 0)) ∧
      (x.armed = false → exec (.railOutOfRange rail) s = .next s)) ∧
    (∀ (k : Nat) (t : Int), k < 6 → x.resetLow = false →
      (x.warned = false → oget d Obj.thermalWarning 0 0 ≤ t → ends (.thermalWarning k t) (fun n => n.start.warned = true ∧
        n.start.temps = x.temps.set k t ∧ n.start.state = x.state ∧ oget n Obj.thermalWarnings 0 0 = oget d Obj.thermalWarnings 0 0 + 1)) ∧
      (x.warned = true → ends (.thermalWarning k t) (fun n => n.start.temps = x.temps.set k t ∧ n.start.warned = true ∧ n.faults = d.faults ∧
        n.dict = d.dict)) ∧
      (oget d Obj.overTemperatureLimit 0 0 ≤ t → quenched d = false → d.faults.quench = 0 → ends (.overTemperature k t) (fun n =>
        n.start.state = 4 ∧ n.faults.quench = 0x0D41 ∧ n.faults.faultN = true)) ∧
      (t < oget d Obj.overTemperatureLimit 0 0 → ends (.overTemperature k t) (fun n => n.start.state = x.state ∧ n.faults = d.faults))) ∧
    (∀ l : List Int, l.length = 6 → x.resetLow = false →
      ((∀ t ∈ l, t ≤ oget d Obj.thermalWarning 0 0 - 50) → ends (.thermalWarningRearm l) (fun n => n.start.warned = false ∧ n.start.temps = l)) ∧
      ((∃ t ∈ l, oget d Obj.thermalWarning 0 0 - 50 < t) → ends (.thermalWarningRearm l) (fun n => n.start.warned = x.warned ∧ n.start.temps = l))) ∧
    (x.resetLow = false → ends .resetNLow (fun n => n.start.resetLow = true ∧ n.start.armed = false ∧ n.start.ready = false ∧
      n.start.due = some 1 ∧ n.faults.pilot = 0 ∧ n.time.ppsOut = false ∧ (∀ p ∈ n.fwd.ports, p.2.linkUp = false) ∧
      (∀ e, (engineOf n e).thread = none) ∧ n.out = ((List.range (pcieOf d)).reverse.map Emission.abandon) ++ d.out)) ∧
    (∃ u : State, exec .vddIo18Removed s = .next u ∧ u.sys.mem = Mem.reset ∧ u.sys.dev.start = { Start.reset with fused := x.fused } ∧
      u.sys.dev.start.retention = Retention.reset ∧ u.sys.dev.faults.quench = 0 ∧ u.sys.dev.dict = Dict.reset)
end

