-- ==== Sys2Proof/Laws/State.lean ====
section
/-! SUPPORT. What each named update of the state leaves alone, field by field, and reading back what a numbered item or an
object was given. -/
namespace Sys2Proof.Machine

/-! ### One entry of numbered data -/

theorem sfind_sput_same {α : Type} (m : SMap α) (k : Nat) (v : α) : sfind (sput m k v) k = some v := by
  induction m with
  | nil => simp [sput, sfind]
  | cons p m ih =>
    obtain ⟨i, w⟩ := p
    simp only [sput]
    split
    · simp [sfind]
    · split
      · simp [sfind]
      · rename_i h1 h2
        simp [sfind, ih, Ne.symm h2]

theorem sfind_sput_other {α : Type} (m : SMap α) (k j : Nat) (v : α) (h : j ≠ k) : sfind (sput m k v) j = sfind m j := by
  induction m with
  | nil => simp [sput, sfind, Ne.symm h]
  | cons p m ih =>
    obtain ⟨i, w⟩ := p
    simp only [sput]
    split
    · simp [sfind, Ne.symm h]
    · split
      · rename_i h1 h2
        subst h2
        simp [sfind, Ne.symm h]
      · simp [sfind, ih]

@[simp] theorem sfind_serase_same {α : Type} (m : SMap α) (k : Nat) : sfind (serase m k) k = none := by
  induction m with
  | nil => rfl
  | cons p m ih =>
    obtain ⟨i, w⟩ := p
    by_cases h : i = k
    · subst h; simpa [serase] using ih
    · simpa [serase, sfind, h] using ih

theorem sfind_serase_other {α : Type} (m : SMap α) (k j : Nat) (h : j ≠ k) : sfind (serase m k) j = sfind m j := by
  induction m with
  | nil => rfl
  | cons p m ih =>
    obtain ⟨i, w⟩ := p
    by_cases h1 : i = k
    · subst h1; simpa [serase, sfind, Ne.symm h] using ih
    · by_cases h2 : i = j
      · subst h2; simp [serase, sfind, h1]
      · simpa [serase, sfind, h1, h2] using ih

@[simp] theorem sget_sput_same {α : Type} (m : SMap α) (k : Nat) (v d : α) : sget (sput m k v) k d = v := by
  simp [sget, sfind_sput_same]

theorem sget_sput_other {α : Type} (m : SMap α) (k j : Nat) (v d : α) (h : j ≠ k) : sget (sput m k v) j d = sget m j d := by
  simp [sget, sfind_sput_other m k j v h]

@[simp] theorem sput_sput_same {α : Type} (m : SMap α) (k : Nat) (v w : α) : sput (sput m k v) k w = sput m k w := by
  induction m with
  | nil => simp [sput]
  | cons p m ih =>
    obtain ⟨i, x⟩ := p
    simp only [sput]
    split
    · simp [sput]
    · split
      · simp [sput]
      · rename_i h1 h2
        simp [sput, h1, h2, ih]

/-! ### Fields that an update leaves alone -/

@[simp] theorem oset_time (d : Dev) (r : Row) (i j : Nat) (v : Int) : (oset d r i j v).time = d.time := rfl
@[simp] theorem oset_fwd (d : Dev) (r : Row) (i j : Nat) (v : Int) : (oset d r i j v).fwd = d.fwd := rfl
@[simp] theorem oset_endpoints (d : Dev) (r : Row) (i j : Nat) (v : Int) : (oset d r i j v).endpoints = d.endpoints := rfl
@[simp] theorem oset_chans (d : Dev) (r : Row) (i j : Nat) (v : Int) : (oset d r i j v).chans = d.chans := rfl
@[simp] theorem oset_sends (d : Dev) (r : Row) (i j : Nat) (v : Int) : (oset d r i j v).sends = d.sends := rfl
@[simp] theorem oset_groups (d : Dev) (r : Row) (i j : Nat) (v : Int) : (oset d r i j v).groups = d.groups := rfl
@[simp] theorem oset_setup (d : Dev) (r : Row) (i j : Nat) (v : Int) : (oset d r i j v).setup = d.setup := rfl
@[simp] theorem oset_queues (d : Dev) (r : Row) (i j : Nat) (v : Int) : (oset d r i j v).queues = d.queues := rfl
@[simp] theorem oset_oa (d : Dev) (r : Row) (i j : Nat) (v : Int) : (oset d r i j v).oa = d.oa := rfl
@[simp] theorem oset_banks (d : Dev) (r : Row) (i j : Nat) (v : Int) : (oset d r i j v).banks = d.banks := rfl
@[simp] theorem oset_stk (d : Dev) (r : Row) (i j : Nat) (v : Int) : (oset d r i j v).stk = d.stk := rfl
@[simp] theorem oset_engines (d : Dev) (r : Row) (i j : Nat) (v : Int) : (oset d r i j v).engines = d.engines := rfl
@[simp] theorem oset_twin (d : Dev) (r : Row) (i j : Nat) (v : Int) : (oset d r i j v).twin = d.twin := rfl
@[simp] theorem oset_ev (d : Dev) (r : Row) (i j : Nat) (v : Int) : (oset d r i j v).ev = d.ev := rfl
@[simp] theorem oset_store (d : Dev) (r : Row) (i j : Nat) (v : Int) : (oset d r i j v).store = d.store := rfl
@[simp] theorem oset_line (d : Dev) (r : Row) (i j : Nat) (v : Int) : (oset d r i j v).line = d.line := rfl
@[simp] theorem oset_cans (d : Dev) (r : Row) (i j : Nat) (v : Int) : (oset d r i j v).cans = d.cans := rfl
@[simp] theorem oset_canAt (d : Dev) (r : Row) (i j : Nat) (v : Int) : (oset d r i j v).canAt = d.canAt := rfl
@[simp] theorem oset_goa (d : Dev) (r : Row) (i j : Nat) (v : Int) : (oset d r i j v).goa = d.goa := rfl
@[simp] theorem oset_faults (d : Dev) (r : Row) (i j : Nat) (v : Int) : (oset d r i j v).faults = d.faults := rfl
@[simp] theorem oset_start (d : Dev) (r : Row) (i j : Nat) (v : Int) : (oset d r i j v).start = d.start := rfl
@[simp] theorem oset_out (d : Dev) (r : Row) (i j : Nat) (v : Int) : (oset d r i j v).out = d.out := rfl
@[simp] theorem oset_free (d : Dev) (r : Row) (i j : Nat) (v : Int) : (oset d r i j v).free = d.free := rfl
@[simp] theorem setEngine_time (d : Dev) (e : Nat) (x : EngineSt) : (setEngine d e x).time = d.time := rfl
@[simp] theorem setEngine_fwd (d : Dev) (e : Nat) (x : EngineSt) : (setEngine d e x).fwd = d.fwd := rfl
@[simp] theorem setEngine_dict (d : Dev) (e : Nat) (x : EngineSt) : (setEngine d e x).dict = d.dict := rfl
@[simp] theorem setEngine_endpoints (d : Dev) (e : Nat) (x : EngineSt) : (setEngine d e x).endpoints = d.endpoints := rfl
@[simp] theorem setEngine_chans (d : Dev) (e : Nat) (x : EngineSt) : (setEngine d e x).chans = d.chans := rfl
@[simp] theorem setEngine_sends (d : Dev) (e : Nat) (x : EngineSt) : (setEngine d e x).sends = d.sends := rfl
@[simp] theorem setEngine_groups (d : Dev) (e : Nat) (x : EngineSt) : (setEngine d e x).groups = d.groups := rfl
@[simp] theorem setEngine_setup (d : Dev) (e : Nat) (x : EngineSt) : (setEngine d e x).setup = d.setup := rfl
@[simp] theorem setEngine_queues (d : Dev) (e : Nat) (x : EngineSt) : (setEngine d e x).queues = d.queues := rfl
@[simp] theorem setEngine_oa (d : Dev) (e : Nat) (x : EngineSt) : (setEngine d e x).oa = d.oa := rfl
@[simp] theorem setEngine_banks (d : Dev) (e : Nat) (x : EngineSt) : (setEngine d e x).banks = d.banks := rfl
@[simp] theorem setEngine_stk_tcbs (d : Dev) (e : Nat) (x : EngineSt) : (setEngine d e x).stk.tcbs = d.stk.tcbs := rfl
@[simp] theorem setEngine_stk_ready (d : Dev) (e : Nat) (x : EngineSt) : (setEngine d e x).stk.ready = d.stk.ready := rfl
@[simp] theorem setEngine_stk_order (d : Dev) (e : Nat) (x : EngineSt) : (setEngine d e x).stk.order = d.stk.order := rfl
@[simp] theorem setEngine_stk_latches (d : Dev) (e : Nat) (x : EngineSt) : (setEngine d e x).stk.latches = d.stk.latches := rfl
@[simp] theorem setEngine_stk_owed (d : Dev) (e : Nat) (x : EngineSt) : (setEngine d e x).stk.owed = d.stk.owed := rfl
@[simp] theorem setEngine_stk_waits (d : Dev) (e : Nat) (x : EngineSt) : (setEngine d e x).stk.waits = d.stk.waits := rfl
@[simp] theorem setEngine_stk_gaugeAt (d : Dev) (e : Nat) (x : EngineSt) : (setEngine d e x).stk.gaugeAt = d.stk.gaugeAt := rfl
@[simp] theorem setEngine_stk_deficit (d : Dev) (e : Nat) (x : EngineSt) : (setEngine d e x).stk.deficit = d.stk.deficit := rfl
@[simp] theorem setEngine_stk_trace (d : Dev) (e : Nat) (x : EngineSt) : (setEngine d e x).stk.trace = d.stk.trace := rfl
@[simp] theorem setEngine_stk_result (d : Dev) (e : Nat) (x : EngineSt) : (setEngine d e x).stk.result = d.stk.result := rfl
@[simp] theorem setEngine_stk_resultH (d : Dev) (e : Nat) (x : EngineSt) : (setEngine d e x).stk.resultH = d.stk.resultH := rfl
@[simp] theorem setEngine_stk_port (d : Dev) (e : Nat) (x : EngineSt) : (setEngine d e x).stk.port = d.stk.port := rfl
@[simp] theorem setEngine_stk_avs (d : Dev) (e : Nat) (x : EngineSt) : (setEngine d e x).stk.avs = d.stk.avs := rfl
@[simp] theorem setEngine_twin (d : Dev) (e : Nat) (x : EngineSt) : (setEngine d e x).twin = d.twin := rfl
@[simp] theorem setEngine_ev (d : Dev) (e : Nat) (x : EngineSt) : (setEngine d e x).ev = d.ev := rfl
@[simp] theorem setEngine_store (d : Dev) (e : Nat) (x : EngineSt) : (setEngine d e x).store = d.store := rfl
@[simp] theorem setEngine_line (d : Dev) (e : Nat) (x : EngineSt) : (setEngine d e x).line = d.line := rfl
@[simp] theorem setEngine_cans (d : Dev) (e : Nat) (x : EngineSt) : (setEngine d e x).cans = d.cans := rfl
@[simp] theorem setEngine_canAt (d : Dev) (e : Nat) (x : EngineSt) : (setEngine d e x).canAt = d.canAt := rfl
@[simp] theorem setEngine_goa (d : Dev) (e : Nat) (x : EngineSt) : (setEngine d e x).goa = d.goa := rfl
@[simp] theorem setEngine_faults (d : Dev) (e : Nat) (x : EngineSt) : (setEngine d e x).faults = d.faults := rfl
@[simp] theorem setEngine_start (d : Dev) (e : Nat) (x : EngineSt) : (setEngine d e x).start = d.start := rfl
@[simp] theorem setEngine_out (d : Dev) (e : Nat) (x : EngineSt) : (setEngine d e x).out = d.out := rfl
@[simp] theorem setEngine_free (d : Dev) (e : Nat) (x : EngineSt) : (setEngine d e x).free = d.free := rfl
@[simp] theorem setTcb_time (d : Dev) (t : Nat) (x : Tcb) : (setTcb d t x).time = d.time := rfl
@[simp] theorem setTcb_fwd (d : Dev) (t : Nat) (x : Tcb) : (setTcb d t x).fwd = d.fwd := rfl
@[simp] theorem setTcb_dict (d : Dev) (t : Nat) (x : Tcb) : (setTcb d t x).dict = d.dict := rfl
@[simp] theorem setTcb_endpoints (d : Dev) (t : Nat) (x : Tcb) : (setTcb d t x).endpoints = d.endpoints := rfl
@[simp] theorem setTcb_chans (d : Dev) (t : Nat) (x : Tcb) : (setTcb d t x).chans = d.chans := rfl
@[simp] theorem setTcb_sends (d : Dev) (t : Nat) (x : Tcb) : (setTcb d t x).sends = d.sends := rfl
@[simp] theorem setTcb_groups (d : Dev) (t : Nat) (x : Tcb) : (setTcb d t x).groups = d.groups := rfl
@[simp] theorem setTcb_setup (d : Dev) (t : Nat) (x : Tcb) : (setTcb d t x).setup = d.setup := rfl
@[simp] theorem setTcb_queues (d : Dev) (t : Nat) (x : Tcb) : (setTcb d t x).queues = d.queues := rfl
@[simp] theorem setTcb_oa (d : Dev) (t : Nat) (x : Tcb) : (setTcb d t x).oa = d.oa := rfl
@[simp] theorem setTcb_banks (d : Dev) (t : Nat) (x : Tcb) : (setTcb d t x).banks = d.banks := rfl
@[simp] theorem setTcb_engines (d : Dev) (t : Nat) (x : Tcb) : (setTcb d t x).engines = d.engines := rfl
@[simp] theorem setTcb_twin (d : Dev) (t : Nat) (x : Tcb) : (setTcb d t x).twin = d.twin := rfl
@[simp] theorem setTcb_ev (d : Dev) (t : Nat) (x : Tcb) : (setTcb d t x).ev = d.ev := rfl
@[simp] theorem setTcb_store (d : Dev) (t : Nat) (x : Tcb) : (setTcb d t x).store = d.store := rfl
@[simp] theorem setTcb_line (d : Dev) (t : Nat) (x : Tcb) : (setTcb d t x).line = d.line := rfl
@[simp] theorem setTcb_cans (d : Dev) (t : Nat) (x : Tcb) : (setTcb d t x).cans = d.cans := rfl
@[simp] theorem setTcb_canAt (d : Dev) (t : Nat) (x : Tcb) : (setTcb d t x).canAt = d.canAt := rfl
@[simp] theorem setTcb_goa (d : Dev) (t : Nat) (x : Tcb) : (setTcb d t x).goa = d.goa := rfl
@[simp] theorem setTcb_faults (d : Dev) (t : Nat) (x : Tcb) : (setTcb d t x).faults = d.faults := rfl
@[simp] theorem setTcb_start (d : Dev) (t : Nat) (x : Tcb) : (setTcb d t x).start = d.start := rfl
@[simp] theorem setTcb_out (d : Dev) (t : Nat) (x : Tcb) : (setTcb d t x).out = d.out := rfl
@[simp] theorem setTcb_free (d : Dev) (t : Nat) (x : Tcb) : (setTcb d t x).free = d.free := rfl
@[simp] theorem setQueue_time (d : Dev) (q : Nat) (x : Queue) : (setQueue d q x).time = d.time := rfl
@[simp] theorem setQueue_fwd (d : Dev) (q : Nat) (x : Queue) : (setQueue d q x).fwd = d.fwd := rfl
@[simp] theorem setQueue_dict (d : Dev) (q : Nat) (x : Queue) : (setQueue d q x).dict = d.dict := rfl
@[simp] theorem setQueue_endpoints (d : Dev) (q : Nat) (x : Queue) : (setQueue d q x).endpoints = d.endpoints := rfl
@[simp] theorem setQueue_chans (d : Dev) (q : Nat) (x : Queue) : (setQueue d q x).chans = d.chans := rfl
@[simp] theorem setQueue_sends (d : Dev) (q : Nat) (x : Queue) : (setQueue d q x).sends = d.sends := rfl
@[simp] theorem setQueue_groups (d : Dev) (q : Nat) (x : Queue) : (setQueue d q x).groups = d.groups := rfl
@[simp] theorem setQueue_setup (d : Dev) (q : Nat) (x : Queue) : (setQueue d q x).setup = d.setup := rfl
@[simp] theorem setQueue_oa (d : Dev) (q : Nat) (x : Queue) : (setQueue d q x).oa = d.oa := rfl
@[simp] theorem setQueue_banks (d : Dev) (q : Nat) (x : Queue) : (setQueue d q x).banks = d.banks := rfl
@[simp] theorem setQueue_stk (d : Dev) (q : Nat) (x : Queue) : (setQueue d q x).stk = d.stk := rfl
@[simp] theorem setQueue_engines (d : Dev) (q : Nat) (x : Queue) : (setQueue d q x).engines = d.engines := rfl
@[simp] theorem setQueue_twin (d : Dev) (q : Nat) (x : Queue) : (setQueue d q x).twin = d.twin := rfl
@[simp] theorem setQueue_ev (d : Dev) (q : Nat) (x : Queue) : (setQueue d q x).ev = d.ev := rfl
@[simp] theorem setQueue_store (d : Dev) (q : Nat) (x : Queue) : (setQueue d q x).store = d.store := rfl
@[simp] theorem setQueue_line (d : Dev) (q : Nat) (x : Queue) : (setQueue d q x).line = d.line := rfl
@[simp] theorem setQueue_cans (d : Dev) (q : Nat) (x : Queue) : (setQueue d q x).cans = d.cans := rfl
@[simp] theorem setQueue_canAt (d : Dev) (q : Nat) (x : Queue) : (setQueue d q x).canAt = d.canAt := rfl
@[simp] theorem setQueue_goa (d : Dev) (q : Nat) (x : Queue) : (setQueue d q x).goa = d.goa := rfl
@[simp] theorem setQueue_faults (d : Dev) (q : Nat) (x : Queue) : (setQueue d q x).faults = d.faults := rfl
@[simp] theorem setQueue_start (d : Dev) (q : Nat) (x : Queue) : (setQueue d q x).start = d.start := rfl
@[simp] theorem setQueue_out (d : Dev) (q : Nat) (x : Queue) : (setQueue d q x).out = d.out := rfl
@[simp] theorem setQueue_free (d : Dev) (q : Nat) (x : Queue) : (setQueue d q x).free = d.free := rfl
@[simp] theorem setChan_time (d : Dev) (c : Nat) (x : Channel) : (setChan d c x).time = d.time := rfl
@[simp] theorem setChan_fwd (d : Dev) (c : Nat) (x : Channel) : (setChan d c x).fwd = d.fwd := rfl
@[simp] theorem setChan_dict (d : Dev) (c : Nat) (x : Channel) : (setChan d c x).dict = d.dict := rfl
@[simp] theorem setChan_endpoints (d : Dev) (c : Nat) (x : Channel) : (setChan d c x).endpoints = d.endpoints := rfl
@[simp] theorem setChan_sends (d : Dev) (c : Nat) (x : Channel) : (setChan d c x).sends = d.sends := rfl
@[simp] theorem setChan_groups (d : Dev) (c : Nat) (x : Channel) : (setChan d c x).groups = d.groups := rfl
@[simp] theorem setChan_setup (d : Dev) (c : Nat) (x : Channel) : (setChan d c x).setup = d.setup := rfl
@[simp] theorem setChan_queues (d : Dev) (c : Nat) (x : Channel) : (setChan d c x).queues = d.queues := rfl
@[simp] theorem setChan_oa (d : Dev) (c : Nat) (x : Channel) : (setChan d c x).oa = d.oa := rfl
@[simp] theorem setChan_banks (d : Dev) (c : Nat) (x : Channel) : (setChan d c x).banks = d.banks := rfl
@[simp] theorem setChan_stk (d : Dev) (c : Nat) (x : Channel) : (setChan d c x).stk = d.stk := rfl
@[simp] theorem setChan_engines (d : Dev) (c : Nat) (x : Channel) : (setChan d c x).engines = d.engines := rfl
@[simp] theorem setChan_twin (d : Dev) (c : Nat) (x : Channel) : (setChan d c x).twin = d.twin := rfl
@[simp] theorem setChan_ev (d : Dev) (c : Nat) (x : Channel) : (setChan d c x).ev = d.ev := rfl
@[simp] theorem setChan_store (d : Dev) (c : Nat) (x : Channel) : (setChan d c x).store = d.store := rfl
@[simp] theorem setChan_line (d : Dev) (c : Nat) (x : Channel) : (setChan d c x).line = d.line := rfl
@[simp] theorem setChan_cans (d : Dev) (c : Nat) (x : Channel) : (setChan d c x).cans = d.cans := rfl
@[simp] theorem setChan_canAt (d : Dev) (c : Nat) (x : Channel) : (setChan d c x).canAt = d.canAt := rfl
@[simp] theorem setChan_goa (d : Dev) (c : Nat) (x : Channel) : (setChan d c x).goa = d.goa := rfl
@[simp] theorem setChan_faults (d : Dev) (c : Nat) (x : Channel) : (setChan d c x).faults = d.faults := rfl
@[simp] theorem setChan_start (d : Dev) (c : Nat) (x : Channel) : (setChan d c x).start = d.start := rfl
@[simp] theorem setChan_out (d : Dev) (c : Nat) (x : Channel) : (setChan d c x).out = d.out := rfl
@[simp] theorem setChan_free (d : Dev) (c : Nat) (x : Channel) : (setChan d c x).free = d.free := rfl
@[simp] theorem setPort_time (d : Dev) (p : Nat) (x : Port) : (setPort d p x).time = d.time := rfl
@[simp] theorem setPort_dict (d : Dev) (p : Nat) (x : Port) : (setPort d p x).dict = d.dict := rfl
@[simp] theorem setPort_endpoints (d : Dev) (p : Nat) (x : Port) : (setPort d p x).endpoints = d.endpoints := rfl
@[simp] theorem setPort_chans (d : Dev) (p : Nat) (x : Port) : (setPort d p x).chans = d.chans := rfl
@[simp] theorem setPort_sends (d : Dev) (p : Nat) (x : Port) : (setPort d p x).sends = d.sends := rfl
@[simp] theorem setPort_groups (d : Dev) (p : Nat) (x : Port) : (setPort d p x).groups = d.groups := rfl
@[simp] theorem setPort_setup (d : Dev) (p : Nat) (x : Port) : (setPort d p x).setup = d.setup := rfl
@[simp] theorem setPort_queues (d : Dev) (p : Nat) (x : Port) : (setPort d p x).queues = d.queues := rfl
@[simp] theorem setPort_oa (d : Dev) (p : Nat) (x : Port) : (setPort d p x).oa = d.oa := rfl
@[simp] theorem setPort_banks (d : Dev) (p : Nat) (x : Port) : (setPort d p x).banks = d.banks := rfl
@[simp] theorem setPort_stk (d : Dev) (p : Nat) (x : Port) : (setPort d p x).stk = d.stk := rfl
@[simp] theorem setPort_engines (d : Dev) (p : Nat) (x : Port) : (setPort d p x).engines = d.engines := rfl
@[simp] theorem setPort_twin (d : Dev) (p : Nat) (x : Port) : (setPort d p x).twin = d.twin := rfl
@[simp] theorem setPort_ev (d : Dev) (p : Nat) (x : Port) : (setPort d p x).ev = d.ev := rfl
@[simp] theorem setPort_store (d : Dev) (p : Nat) (x : Port) : (setPort d p x).store = d.store := rfl
@[simp] theorem setPort_line (d : Dev) (p : Nat) (x : Port) : (setPort d p x).line = d.line := rfl
@[simp] theorem setPort_cans (d : Dev) (p : Nat) (x : Port) : (setPort d p x).cans = d.cans := rfl
@[simp] theorem setPort_canAt (d : Dev) (p : Nat) (x : Port) : (setPort d p x).canAt = d.canAt := rfl
@[simp] theorem setPort_goa (d : Dev) (p : Nat) (x : Port) : (setPort d p x).goa = d.goa := rfl
@[simp] theorem setPort_faults (d : Dev) (p : Nat) (x : Port) : (setPort d p x).faults = d.faults := rfl
@[simp] theorem setPort_start (d : Dev) (p : Nat) (x : Port) : (setPort d p x).start = d.start := rfl
@[simp] theorem setPort_out (d : Dev) (p : Nat) (x : Port) : (setPort d p x).out = d.out := rfl
@[simp] theorem setPort_free (d : Dev) (p : Nat) (x : Port) : (setPort d p x).free = d.free := rfl
@[simp] theorem setOa_time (d : Dev) (n : Nat) (c : OaCtx) : (setOa d n c).time = d.time := rfl
@[simp] theorem setOa_fwd (d : Dev) (n : Nat) (c : OaCtx) : (setOa d n c).fwd = d.fwd := rfl
@[simp] theorem setOa_dict (d : Dev) (n : Nat) (c : OaCtx) : (setOa d n c).dict = d.dict := rfl
@[simp] theorem setOa_endpoints (d : Dev) (n : Nat) (c : OaCtx) : (setOa d n c).endpoints = d.endpoints := rfl
@[simp] theorem setOa_chans (d : Dev) (n : Nat) (c : OaCtx) : (setOa d n c).chans = d.chans := rfl
@[simp] theorem setOa_sends (d : Dev) (n : Nat) (c : OaCtx) : (setOa d n c).sends = d.sends := rfl
@[simp] theorem setOa_groups (d : Dev) (n : Nat) (c : OaCtx) : (setOa d n c).groups = d.groups := rfl
@[simp] theorem setOa_setup (d : Dev) (n : Nat) (c : OaCtx) : (setOa d n c).setup = d.setup := rfl
@[simp] theorem setOa_queues (d : Dev) (n : Nat) (c : OaCtx) : (setOa d n c).queues = d.queues := rfl
@[simp] theorem setOa_banks (d : Dev) (n : Nat) (c : OaCtx) : (setOa d n c).banks = d.banks := rfl
@[simp] theorem setOa_stk (d : Dev) (n : Nat) (c : OaCtx) : (setOa d n c).stk = d.stk := rfl
@[simp] theorem setOa_engines (d : Dev) (n : Nat) (c : OaCtx) : (setOa d n c).engines = d.engines := rfl
@[simp] theorem setOa_twin (d : Dev) (n : Nat) (c : OaCtx) : (setOa d n c).twin = d.twin := rfl
@[simp] theorem setOa_ev (d : Dev) (n : Nat) (c : OaCtx) : (setOa d n c).ev = d.ev := rfl
@[simp] theorem setOa_store (d : Dev) (n : Nat) (c : OaCtx) : (setOa d n c).store = d.store := rfl
@[simp] theorem setOa_line (d : Dev) (n : Nat) (c : OaCtx) : (setOa d n c).line = d.line := rfl
@[simp] theorem setOa_cans (d : Dev) (n : Nat) (c : OaCtx) : (setOa d n c).cans = d.cans := rfl
@[simp] theorem setOa_canAt (d : Dev) (n : Nat) (c : OaCtx) : (setOa d n c).canAt = d.canAt := rfl
@[simp] theorem setOa_goa (d : Dev) (n : Nat) (c : OaCtx) : (setOa d n c).goa = d.goa := rfl
@[simp] theorem setOa_faults (d : Dev) (n : Nat) (c : OaCtx) : (setOa d n c).faults = d.faults := rfl
@[simp] theorem setOa_start (d : Dev) (n : Nat) (c : OaCtx) : (setOa d n c).start = d.start := rfl
@[simp] theorem setOa_out (d : Dev) (n : Nat) (c : OaCtx) : (setOa d n c).out = d.out := rfl
@[simp] theorem setOa_free (d : Dev) (n : Nat) (c : OaCtx) : (setOa d n c).free = d.free := rfl
@[simp] theorem setStream_time (d : Dev) (s : Nat) (x : Stream) : (setStream d s x).time = d.time := rfl
@[simp] theorem setStream_fwd (d : Dev) (s : Nat) (x : Stream) : (setStream d s x).fwd = d.fwd := rfl
@[simp] theorem setStream_dict (d : Dev) (s : Nat) (x : Stream) : (setStream d s x).dict = d.dict := rfl
@[simp] theorem setStream_endpoints (d : Dev) (s : Nat) (x : Stream) : (setStream d s x).endpoints = d.endpoints := rfl
@[simp] theorem setStream_chans (d : Dev) (s : Nat) (x : Stream) : (setStream d s x).chans = d.chans := rfl
@[simp] theorem setStream_sends (d : Dev) (s : Nat) (x : Stream) : (setStream d s x).sends = d.sends := rfl
@[simp] theorem setStream_groups (d : Dev) (s : Nat) (x : Stream) : (setStream d s x).groups = d.groups := rfl
@[simp] theorem setStream_setup (d : Dev) (s : Nat) (x : Stream) : (setStream d s x).setup = d.setup := rfl
@[simp] theorem setStream_queues (d : Dev) (s : Nat) (x : Stream) : (setStream d s x).queues = d.queues := rfl
@[simp] theorem setStream_oa (d : Dev) (s : Nat) (x : Stream) : (setStream d s x).oa = d.oa := rfl
@[simp] theorem setStream_banks (d : Dev) (s : Nat) (x : Stream) : (setStream d s x).banks = d.banks := rfl
@[simp] theorem setStream_stk (d : Dev) (s : Nat) (x : Stream) : (setStream d s x).stk = d.stk := rfl
@[simp] theorem setStream_engines (d : Dev) (s : Nat) (x : Stream) : (setStream d s x).engines = d.engines := rfl
@[simp] theorem setStream_twin (d : Dev) (s : Nat) (x : Stream) : (setStream d s x).twin = d.twin := rfl
@[simp] theorem setStream_store (d : Dev) (s : Nat) (x : Stream) : (setStream d s x).store = d.store := rfl
@[simp] theorem setStream_line (d : Dev) (s : Nat) (x : Stream) : (setStream d s x).line = d.line := rfl
@[simp] theorem setStream_cans (d : Dev) (s : Nat) (x : Stream) : (setStream d s x).cans = d.cans := rfl
@[simp] theorem setStream_canAt (d : Dev) (s : Nat) (x : Stream) : (setStream d s x).canAt = d.canAt := rfl
@[simp] theorem setStream_goa (d : Dev) (s : Nat) (x : Stream) : (setStream d s x).goa = d.goa := rfl
@[simp] theorem setStream_faults (d : Dev) (s : Nat) (x : Stream) : (setStream d s x).faults = d.faults := rfl
@[simp] theorem setStream_start (d : Dev) (s : Nat) (x : Stream) : (setStream d s x).start = d.start := rfl
@[simp] theorem setStream_out (d : Dev) (s : Nat) (x : Stream) : (setStream d s x).out = d.out := rfl
@[simp] theorem setStream_free (d : Dev) (s : Nat) (x : Stream) : (setStream d s x).free = d.free := rfl
@[simp] theorem setLine_time (d : Dev) (p : Nat) (x : LinePort) : (setLine d p x).time = d.time := rfl
@[simp] theorem setLine_fwd (d : Dev) (p : Nat) (x : LinePort) : (setLine d p x).fwd = d.fwd := rfl
@[simp] theorem setLine_dict (d : Dev) (p : Nat) (x : LinePort) : (setLine d p x).dict = d.dict := rfl
@[simp] theorem setLine_endpoints (d : Dev) (p : Nat) (x : LinePort) : (setLine d p x).endpoints = d.endpoints := rfl
@[simp] theorem setLine_chans (d : Dev) (p : Nat) (x : LinePort) : (setLine d p x).chans = d.chans := rfl
@[simp] theorem setLine_sends (d : Dev) (p : Nat) (x : LinePort) : (setLine d p x).sends = d.sends := rfl
@[simp] theorem setLine_groups (d : Dev) (p : Nat) (x : LinePort) : (setLine d p x).groups = d.groups := rfl
@[simp] theorem setLine_setup (d : Dev) (p : Nat) (x : LinePort) : (setLine d p x).setup = d.setup := rfl
@[simp] theorem setLine_queues (d : Dev) (p : Nat) (x : LinePort) : (setLine d p x).queues = d.queues := rfl
@[simp] theorem setLine_oa (d : Dev) (p : Nat) (x : LinePort) : (setLine d p x).oa = d.oa := rfl
@[simp] theorem setLine_banks (d : Dev) (p : Nat) (x : LinePort) : (setLine d p x).banks = d.banks := rfl
@[simp] theorem setLine_stk (d : Dev) (p : Nat) (x : LinePort) : (setLine d p x).stk = d.stk := rfl
@[simp] theorem setLine_engines (d : Dev) (p : Nat) (x : LinePort) : (setLine d p x).engines = d.engines := rfl
@[simp] theorem setLine_twin (d : Dev) (p : Nat) (x : LinePort) : (setLine d p x).twin = d.twin := rfl
@[simp] theorem setLine_ev (d : Dev) (p : Nat) (x : LinePort) : (setLine d p x).ev = d.ev := rfl
@[simp] theorem setLine_store (d : Dev) (p : Nat) (x : LinePort) : (setLine d p x).store = d.store := rfl
@[simp] theorem setLine_cans (d : Dev) (p : Nat) (x : LinePort) : (setLine d p x).cans = d.cans := rfl
@[simp] theorem setLine_canAt (d : Dev) (p : Nat) (x : LinePort) : (setLine d p x).canAt = d.canAt := rfl
@[simp] theorem setLine_goa (d : Dev) (p : Nat) (x : LinePort) : (setLine d p x).goa = d.goa := rfl
@[simp] theorem setLine_faults (d : Dev) (p : Nat) (x : LinePort) : (setLine d p x).faults = d.faults := rfl
@[simp] theorem setLine_start (d : Dev) (p : Nat) (x : LinePort) : (setLine d p x).start = d.start := rfl
@[simp] theorem setLine_out (d : Dev) (p : Nat) (x : LinePort) : (setLine d p x).out = d.out := rfl
@[simp] theorem setLine_free (d : Dev) (p : Nat) (x : LinePort) : (setLine d p x).free = d.free := rfl
@[simp] theorem setBlock_time (d : Dev) (k i : Nat) (x : BlockSt) : (setBlock d k i x).time = d.time := rfl
@[simp] theorem setBlock_fwd (d : Dev) (k i : Nat) (x : BlockSt) : (setBlock d k i x).fwd = d.fwd := rfl
@[simp] theorem setBlock_dict (d : Dev) (k i : Nat) (x : BlockSt) : (setBlock d k i x).dict = d.dict := rfl
@[simp] theorem setBlock_endpoints (d : Dev) (k i : Nat) (x : BlockSt) : (setBlock d k i x).endpoints = d.endpoints := rfl
@[simp] theorem setBlock_chans (d : Dev) (k i : Nat) (x : BlockSt) : (setBlock d k i x).chans = d.chans := rfl
@[simp] theorem setBlock_sends (d : Dev) (k i : Nat) (x : BlockSt) : (setBlock d k i x).sends = d.sends := rfl
@[simp] theorem setBlock_groups (d : Dev) (k i : Nat) (x : BlockSt) : (setBlock d k i x).groups = d.groups := rfl
@[simp] theorem setBlock_setup (d : Dev) (k i : Nat) (x : BlockSt) : (setBlock d k i x).setup = d.setup := rfl
@[simp] theorem setBlock_queues (d : Dev) (k i : Nat) (x : BlockSt) : (setBlock d k i x).queues = d.queues := rfl
@[simp] theorem setBlock_oa (d : Dev) (k i : Nat) (x : BlockSt) : (setBlock d k i x).oa = d.oa := rfl
@[simp] theorem setBlock_banks (d : Dev) (k i : Nat) (x : BlockSt) : (setBlock d k i x).banks = d.banks := rfl
@[simp] theorem setBlock_stk (d : Dev) (k i : Nat) (x : BlockSt) : (setBlock d k i x).stk = d.stk := rfl
@[simp] theorem setBlock_engines (d : Dev) (k i : Nat) (x : BlockSt) : (setBlock d k i x).engines = d.engines := rfl
@[simp] theorem setBlock_twin (d : Dev) (k i : Nat) (x : BlockSt) : (setBlock d k i x).twin = d.twin := rfl
@[simp] theorem setBlock_ev (d : Dev) (k i : Nat) (x : BlockSt) : (setBlock d k i x).ev = d.ev := rfl
@[simp] theorem setBlock_store (d : Dev) (k i : Nat) (x : BlockSt) : (setBlock d k i x).store = d.store := rfl
@[simp] theorem setBlock_line (d : Dev) (k i : Nat) (x : BlockSt) : (setBlock d k i x).line = d.line := rfl
@[simp] theorem setBlock_cans (d : Dev) (k i : Nat) (x : BlockSt) : (setBlock d k i x).cans = d.cans := rfl
@[simp] theorem setBlock_canAt (d : Dev) (k i : Nat) (x : BlockSt) : (setBlock d k i x).canAt = d.canAt := rfl
@[simp] theorem setBlock_goa (d : Dev) (k i : Nat) (x : BlockSt) : (setBlock d k i x).goa = d.goa := rfl
@[simp] theorem setBlock_start (d : Dev) (k i : Nat) (x : BlockSt) : (setBlock d k i x).start = d.start := rfl
@[simp] theorem setBlock_out (d : Dev) (k i : Nat) (x : BlockSt) : (setBlock d k i x).out = d.out := rfl
@[simp] theorem setBlock_free (d : Dev) (k i : Nat) (x : BlockSt) : (setBlock d k i x).free = d.free := rfl
@[simp] theorem onTime_fwd (d : Dev) (f : TimeUnit → TimeUnit) : (onTime d f).fwd = d.fwd := rfl
@[simp] theorem onTime_dict (d : Dev) (f : TimeUnit → TimeUnit) : (onTime d f).dict = d.dict := rfl
@[simp] theorem onTime_endpoints (d : Dev) (f : TimeUnit → TimeUnit) : (onTime d f).endpoints = d.endpoints := rfl
@[simp] theorem onTime_chans (d : Dev) (f : TimeUnit → TimeUnit) : (onTime d f).chans = d.chans := rfl
@[simp] theorem onTime_sends (d : Dev) (f : TimeUnit → TimeUnit) : (onTime d f).sends = d.sends := rfl
@[simp] theorem onTime_groups (d : Dev) (f : TimeUnit → TimeUnit) : (onTime d f).groups = d.groups := rfl
@[simp] theorem onTime_setup (d : Dev) (f : TimeUnit → TimeUnit) : (onTime d f).setup = d.setup := rfl
@[simp] theorem onTime_queues (d : Dev) (f : TimeUnit → TimeUnit) : (onTime d f).queues = d.queues := rfl
@[simp] theorem onTime_oa (d : Dev) (f : TimeUnit → TimeUnit) : (onTime d f).oa = d.oa := rfl
@[simp] theorem onTime_banks (d : Dev) (f : TimeUnit → TimeUnit) : (onTime d f).banks = d.banks := rfl
@[simp] theorem onTime_stk (d : Dev) (f : TimeUnit → TimeUnit) : (onTime d f).stk = d.stk := rfl
@[simp] theorem onTime_engines (d : Dev) (f : TimeUnit → TimeUnit) : (onTime d f).engines = d.engines := rfl
@[simp] theorem onTime_twin (d : Dev) (f : TimeUnit → TimeUnit) : (onTime d f).twin = d.twin := rfl
@[simp] theorem onTime_ev (d : Dev) (f : TimeUnit → TimeUnit) : (onTime d f).ev = d.ev := rfl
@[simp] theorem onTime_store (d : Dev) (f : TimeUnit → TimeUnit) : (onTime d f).store = d.store := rfl
@[simp] theorem onTime_line (d : Dev) (f : TimeUnit → TimeUnit) : (onTime d f).line = d.line := rfl
@[simp] theorem onTime_cans (d : Dev) (f : TimeUnit → TimeUnit) : (onTime d f).cans = d.cans := rfl
@[simp] theorem onTime_canAt (d : Dev) (f : TimeUnit → TimeUnit) : (onTime d f).canAt = d.canAt := rfl
@[simp] theorem onTime_goa (d : Dev) (f : TimeUnit → TimeUnit) : (onTime d f).goa = d.goa := rfl
@[simp] theorem onTime_faults (d : Dev) (f : TimeUnit → TimeUnit) : (onTime d f).faults = d.faults := rfl
@[simp] theorem onTime_start (d : Dev) (f : TimeUnit → TimeUnit) : (onTime d f).start = d.start := rfl
@[simp] theorem onTime_out (d : Dev) (f : TimeUnit → TimeUnit) : (onTime d f).out = d.out := rfl
@[simp] theorem onTime_free (d : Dev) (f : TimeUnit → TimeUnit) : (onTime d f).free = d.free := rfl
@[simp] theorem answer_time (d : Dev) (a : Nat) (x : Bytes) : (answer d a x).time = d.time := rfl
@[simp] theorem answer_fwd (d : Dev) (a : Nat) (x : Bytes) : (answer d a x).fwd = d.fwd := rfl
@[simp] theorem answer_endpoints (d : Dev) (a : Nat) (x : Bytes) : (answer d a x).endpoints = d.endpoints := rfl
@[simp] theorem answer_chans (d : Dev) (a : Nat) (x : Bytes) : (answer d a x).chans = d.chans := rfl
@[simp] theorem answer_sends (d : Dev) (a : Nat) (x : Bytes) : (answer d a x).sends = d.sends := rfl
@[simp] theorem answer_groups (d : Dev) (a : Nat) (x : Bytes) : (answer d a x).groups = d.groups := rfl
@[simp] theorem answer_setup (d : Dev) (a : Nat) (x : Bytes) : (answer d a x).setup = d.setup := rfl
@[simp] theorem answer_queues (d : Dev) (a : Nat) (x : Bytes) : (answer d a x).queues = d.queues := rfl
@[simp] theorem answer_oa (d : Dev) (a : Nat) (x : Bytes) : (answer d a x).oa = d.oa := rfl
@[simp] theorem answer_banks (d : Dev) (a : Nat) (x : Bytes) : (answer d a x).banks = d.banks := rfl
@[simp] theorem answer_stk (d : Dev) (a : Nat) (x : Bytes) : (answer d a x).stk = d.stk := rfl
@[simp] theorem answer_engines (d : Dev) (a : Nat) (x : Bytes) : (answer d a x).engines = d.engines := rfl
@[simp] theorem answer_twin (d : Dev) (a : Nat) (x : Bytes) : (answer d a x).twin = d.twin := rfl
@[simp] theorem answer_ev (d : Dev) (a : Nat) (x : Bytes) : (answer d a x).ev = d.ev := rfl
@[simp] theorem answer_store (d : Dev) (a : Nat) (x : Bytes) : (answer d a x).store = d.store := rfl
@[simp] theorem answer_line (d : Dev) (a : Nat) (x : Bytes) : (answer d a x).line = d.line := rfl
@[simp] theorem answer_cans (d : Dev) (a : Nat) (x : Bytes) : (answer d a x).cans = d.cans := rfl
@[simp] theorem answer_canAt (d : Dev) (a : Nat) (x : Bytes) : (answer d a x).canAt = d.canAt := rfl
@[simp] theorem answer_goa (d : Dev) (a : Nat) (x : Bytes) : (answer d a x).goa = d.goa := rfl
@[simp] theorem answer_faults (d : Dev) (a : Nat) (x : Bytes) : (answer d a x).faults = d.faults := rfl
@[simp] theorem answer_start (d : Dev) (a : Nat) (x : Bytes) : (answer d a x).start = d.start := rfl
@[simp] theorem answer_free (d : Dev) (a : Nat) (x : Bytes) : (answer d a x).free = d.free := rfl
@[simp] theorem emit_time (d : Dev) (x : Emission) : (emit d x).time = d.time := rfl
@[simp] theorem emit_fwd (d : Dev) (x : Emission) : (emit d x).fwd = d.fwd := rfl
@[simp] theorem emit_dict (d : Dev) (x : Emission) : (emit d x).dict = d.dict := rfl
@[simp] theorem emit_endpoints (d : Dev) (x : Emission) : (emit d x).endpoints = d.endpoints := rfl
@[simp] theorem emit_chans (d : Dev) (x : Emission) : (emit d x).chans = d.chans := rfl
@[simp] theorem emit_sends (d : Dev) (x : Emission) : (emit d x).sends = d.sends := rfl
@[simp] theorem emit_groups (d : Dev) (x : Emission) : (emit d x).groups = d.groups := rfl
@[simp] theorem emit_setup (d : Dev) (x : Emission) : (emit d x).setup = d.setup := rfl
@[simp] theorem emit_queues (d : Dev) (x : Emission) : (emit d x).queues = d.queues := rfl
@[simp] theorem emit_oa (d : Dev) (x : Emission) : (emit d x).oa = d.oa := rfl
@[simp] theorem emit_banks (d : Dev) (x : Emission) : (emit d x).banks = d.banks := rfl
@[simp] theorem emit_stk (d : Dev) (x : Emission) : (emit d x).stk = d.stk := rfl
@[simp] theorem emit_engines (d : Dev) (x : Emission) : (emit d x).engines = d.engines := rfl
@[simp] theorem emit_twin (d : Dev) (x : Emission) : (emit d x).twin = d.twin := rfl
@[simp] theorem emit_ev (d : Dev) (x : Emission) : (emit d x).ev = d.ev := rfl
@[simp] theorem emit_store (d : Dev) (x : Emission) : (emit d x).store = d.store := rfl
@[simp] theorem emit_line (d : Dev) (x : Emission) : (emit d x).line = d.line := rfl
@[simp] theorem emit_cans (d : Dev) (x : Emission) : (emit d x).cans = d.cans := rfl
@[simp] theorem emit_canAt (d : Dev) (x : Emission) : (emit d x).canAt = d.canAt := rfl
@[simp] theorem emit_goa (d : Dev) (x : Emission) : (emit d x).goa = d.goa := rfl
@[simp] theorem emit_faults (d : Dev) (x : Emission) : (emit d x).faults = d.faults := rfl
@[simp] theorem emit_start (d : Dev) (x : Emission) : (emit d x).start = d.start := rfl
@[simp] theorem emit_free (d : Dev) (x : Emission) : (emit d x).free = d.free := rfl
@[simp] theorem setUnit_time (d : Dev) (c : Nat) (x : CompUnit) : (setUnit d c x).time = d.time := rfl
@[simp] theorem setUnit_fwd (d : Dev) (c : Nat) (x : CompUnit) : (setUnit d c x).fwd = d.fwd := rfl
@[simp] theorem setUnit_dict (d : Dev) (c : Nat) (x : CompUnit) : (setUnit d c x).dict = d.dict := rfl
@[simp] theorem setUnit_endpoints (d : Dev) (c : Nat) (x : CompUnit) : (setUnit d c x).endpoints = d.endpoints := rfl
@[simp] theorem setUnit_chans (d : Dev) (c : Nat) (x : CompUnit) : (setUnit d c x).chans = d.chans := rfl
@[simp] theorem setUnit_sends (d : Dev) (c : Nat) (x : CompUnit) : (setUnit d c x).sends = d.sends := rfl
@[simp] theorem setUnit_groups (d : Dev) (c : Nat) (x : CompUnit) : (setUnit d c x).groups = d.groups := rfl
@[simp] theorem setUnit_setup (d : Dev) (c : Nat) (x : CompUnit) : (setUnit d c x).setup = d.setup := rfl
@[simp] theorem setUnit_queues (d : Dev) (c : Nat) (x : CompUnit) : (setUnit d c x).queues = d.queues := rfl
@[simp] theorem setUnit_oa (d : Dev) (c : Nat) (x : CompUnit) : (setUnit d c x).oa = d.oa := rfl
@[simp] theorem setUnit_banks (d : Dev) (c : Nat) (x : CompUnit) : (setUnit d c x).banks = d.banks := rfl
@[simp] theorem setUnit_stk (d : Dev) (c : Nat) (x : CompUnit) : (setUnit d c x).stk = d.stk := rfl
@[simp] theorem setUnit_engines (d : Dev) (c : Nat) (x : CompUnit) : (setUnit d c x).engines = d.engines := rfl
@[simp] theorem setUnit_twin (d : Dev) (c : Nat) (x : CompUnit) : (setUnit d c x).twin = d.twin := rfl
@[simp] theorem setUnit_store (d : Dev) (c : Nat) (x : CompUnit) : (setUnit d c x).store = d.store := rfl
@[simp] theorem setUnit_line (d : Dev) (c : Nat) (x : CompUnit) : (setUnit d c x).line = d.line := rfl
@[simp] theorem setUnit_cans (d : Dev) (c : Nat) (x : CompUnit) : (setUnit d c x).cans = d.cans := rfl
@[simp] theorem setUnit_canAt (d : Dev) (c : Nat) (x : CompUnit) : (setUnit d c x).canAt = d.canAt := rfl
@[simp] theorem setUnit_goa (d : Dev) (c : Nat) (x : CompUnit) : (setUnit d c x).goa = d.goa := rfl
@[simp] theorem setUnit_faults (d : Dev) (c : Nat) (x : CompUnit) : (setUnit d c x).faults = d.faults := rfl
@[simp] theorem setUnit_start (d : Dev) (c : Nat) (x : CompUnit) : (setUnit d c x).start = d.start := rfl
@[simp] theorem setUnit_out (d : Dev) (c : Nat) (x : CompUnit) : (setUnit d c x).out = d.out := rfl
@[simp] theorem setUnit_free (d : Dev) (c : Nat) (x : CompUnit) : (setUnit d c x).free = d.free := rfl
@[simp] theorem setCheck_time (d : Dev) (k : Nat) (x : CheckCh) : (setCheck d k x).time = d.time := rfl
@[simp] theorem setCheck_fwd (d : Dev) (k : Nat) (x : CheckCh) : (setCheck d k x).fwd = d.fwd := rfl
@[simp] theorem setCheck_dict (d : Dev) (k : Nat) (x : CheckCh) : (setCheck d k x).dict = d.dict := rfl
@[simp] theorem setCheck_endpoints (d : Dev) (k : Nat) (x : CheckCh) : (setCheck d k x).endpoints = d.endpoints := rfl
@[simp] theorem setCheck_chans (d : Dev) (k : Nat) (x : CheckCh) : (setCheck d k x).chans = d.chans := rfl
@[simp] theorem setCheck_sends (d : Dev) (k : Nat) (x : CheckCh) : (setCheck d k x).sends = d.sends := rfl
@[simp] theorem setCheck_groups (d : Dev) (k : Nat) (x : CheckCh) : (setCheck d k x).groups = d.groups := rfl
@[simp] theorem setCheck_setup (d : Dev) (k : Nat) (x : CheckCh) : (setCheck d k x).setup = d.setup := rfl
@[simp] theorem setCheck_queues (d : Dev) (k : Nat) (x : CheckCh) : (setCheck d k x).queues = d.queues := rfl
@[simp] theorem setCheck_oa (d : Dev) (k : Nat) (x : CheckCh) : (setCheck d k x).oa = d.oa := rfl
@[simp] theorem setCheck_banks (d : Dev) (k : Nat) (x : CheckCh) : (setCheck d k x).banks = d.banks := rfl
@[simp] theorem setCheck_stk (d : Dev) (k : Nat) (x : CheckCh) : (setCheck d k x).stk = d.stk := rfl
@[simp] theorem setCheck_engines (d : Dev) (k : Nat) (x : CheckCh) : (setCheck d k x).engines = d.engines := rfl
@[simp] theorem setCheck_twin (d : Dev) (k : Nat) (x : CheckCh) : (setCheck d k x).twin = d.twin := rfl
@[simp] theorem setCheck_ev (d : Dev) (k : Nat) (x : CheckCh) : (setCheck d k x).ev = d.ev := rfl
@[simp] theorem setCheck_line (d : Dev) (k : Nat) (x : CheckCh) : (setCheck d k x).line = d.line := rfl
@[simp] theorem setCheck_cans (d : Dev) (k : Nat) (x : CheckCh) : (setCheck d k x).cans = d.cans := rfl
@[simp] theorem setCheck_canAt (d : Dev) (k : Nat) (x : CheckCh) : (setCheck d k x).canAt = d.canAt := rfl
@[simp] theorem setCheck_goa (d : Dev) (k : Nat) (x : CheckCh) : (setCheck d k x).goa = d.goa := rfl
@[simp] theorem setCheck_faults (d : Dev) (k : Nat) (x : CheckCh) : (setCheck d k x).faults = d.faults := rfl
@[simp] theorem setCheck_start (d : Dev) (k : Nat) (x : CheckCh) : (setCheck d k x).start = d.start := rfl
@[simp] theorem setCheck_out (d : Dev) (k : Nat) (x : CheckCh) : (setCheck d k x).out = d.out := rfl
@[simp] theorem setCheck_free (d : Dev) (k : Nat) (x : CheckCh) : (setCheck d k x).free = d.free := rfl

@[simp] theorem Sys.onDev_mem (f : Dev → Dev) (s : Sys) : (Sys.onDev f s).mem = s.mem := rfl
@[simp] theorem Sys.onDev_dev (f : Dev → Dev) (s : Sys) : (Sys.onDev f s).dev = f s.dev := rfl
@[simp] theorem State.ends_pending (s : State) (u : Sys) (e : Nat) (c : Ctx) : (s.ends u e c).pending = s.pending := rfl
@[simp] theorem State.ends_mem (s : State) (u : Sys) (e : Nat) (c : Ctx) : (s.ends u e c).sys.mem = u.mem := rfl

/-! ### Reading back -/

theorem ofind_oset_same (d : Dev) (r : Row) (i j : Nat) (v : Int) : ofind (oset d r i j v) r i j = some v := by
  simp [ofind, oset, sfind_sput_same]

theorem ofind_oset_other (d : Dev) (r q : Row) (i j k l : Nat) (v : Int) (h : q.key k l ≠ r.key i j) :
    ofind (oset d r i j v) q k l = ofind d q k l := by
  simp [ofind, oset, sfind_sput_other _ _ _ _ h]

@[simp] theorem oget_oset_same (d : Dev) (r : Row) (i j : Nat) (v : Int) : oget (oset d r i j v) r i j = v := by
  simp [oget, ofind_oset_same]

@[simp] theorem engineOf_setEngine_same (d : Dev) (e : Nat) (x : EngineSt) : engineOf (setEngine d e x) e = x := by
  simp [engineOf, setEngine]

theorem engineOf_setEngine_other (d : Dev) (e f : Nat) (x : EngineSt) (h : f ≠ e) :
    engineOf (setEngine d e x) f = engineOf d f := by
  simp [engineOf, setEngine, sget_sput_other _ _ _ _ _ h]

/-- Load accounts for an engine only where it takes a thread or loses one. -/
theorem setEngine_same (d : Dev) (e : Nat) (x : EngineSt) (h : x.thread = (engineOf d e).thread) :
    setEngine d e x = { d with engines := sput d.engines e x } := by
  simp [setEngine, h]

theorem setEngine_setEngine (d : Dev) (e : Nat) (x y : EngineSt) (h : x.thread = (engineOf d e).thread) :
    setEngine (setEngine d e x) e y = setEngine d e y := by
  have h1 : engineOf { d with engines := sput d.engines e x } e = x := by simp [engineOf]
  rw [setEngine_same d e x h]
  unfold setEngine
  rw [h1, h]
  simp [loadOf, now]

/-- The account of a unit is brought up only where it takes a job or ends one. -/
theorem setUnit_busy_same (d : Dev) (c : Nat) (u : CompUnit) (h : (compUnit d c).stream.isSome = u.stream.isSome) :
    (setUnit d c u).ev = { d.ev with units := sput d.ev.units c u } := by
  simp [setUnit, h]

@[simp] theorem compUnit_setUnit_same (d : Dev) (c : Nat) (u : CompUnit) : compUnit (setUnit d c u) c = u := by
  simp [compUnit, setUnit]

@[simp] theorem checkOf_setCheck_same (d : Dev) (k : Nat) (x : CheckCh) : checkOf (setCheck d k x) k = x := by
  simp [checkOf, setCheck]

@[simp] theorem queueOf_setQueue_same (d : Dev) (q : Nat) (x : Queue) : queueOf (setQueue d q x) q = x := by
  simp [queueOf, setQueue]

@[simp] theorem ctxAt_putCtx (s : Sys) (e : Nat) (c : Ctx) : ctxAt (putCtx s e c) e = c := by
  simp [ctxAt, putCtx, setCtx]

@[simp] theorem putCtx_putCtx (s : Sys) (e : Nat) (c k : Ctx) : putCtx (putCtx s e c) e k = putCtx s e k := by
  simp [putCtx, setCtx, setEngine_setEngine]

@[simp] theorem putCtx_mem (s : Sys) (e : Nat) (c : Ctx) : (putCtx s e c).mem = s.mem := rfl

end Sys2Proof.Machine
end

