-- ==== Sys2Proof/Laws/Engine.lean ====
section
/-! SUPPORT. What the shared operations of the engines come to: the wait for outstanding operations, the end of an
instruction, and the forms that act on the context alone. -/
namespace Sys2Proof.Machine

/-- An engine that holds nothing in flight has nothing to wait for (R115). -/
theorem performAll_idle (w : XOp → Bool) (e : Nat) (s : Sys) (h : (engineOf s.dev e).ops = []) : performAll w e s = some s := by
  simp [performAll, performWhile, h]

/-- With nothing in flight the system that an instruction finds is the state's own. -/
theorem runs_idle (s : State) (e t : Nat) (needs : XOp → Bool) (ht : threadAt s.sys.dev e = some t)
    (h : (engineOf s.sys.dev e).ops = []) : Runs s e t needs s.sys :=
  ⟨ht, performAll_idle _ _ _ h⟩

/-- An instruction of a running engine is its act, then its end. -/
theorem engineRun_runs {s : State} {e t : Nat} {needs : XOp → Bool} {u : Sys} (h : Runs s e t needs u) (word : Nat)
    (act : Sys → Nat → Act) : engineRun s.sys e word needs act = finish u e t word (act u t) := by
  simp [engineRun, h.1, h.2]

/-- An instruction that acts on the context alone ends with the new context. -/
theorem ctxRun_ok {s : State} {e t : Nat} {needs : XOp → Bool} {u : Sys} (h : Runs s e t needs u) (word : Nat)
    (f : Ctx → Except Nat Ctx) (c : Ctx) (hf : f (ctxAt u e) = .ok c) :
    ctxRun s.sys e word needs f = putCtx u e c.advance := by
  simp [ctxRun, engineRun_runs h, hf, finish]

/-- The same where it raises an exception. -/
theorem ctxRun_error {s : State} {e t : Nat} {needs : XOp → Bool} {u : Sys} (h : Runs s e t needs u) (word : Nat)
    (f : Ctx → Except Nat Ctx) (x : Nat) (hf : f (ctxAt u e) = .error x) :
    ctxRun s.sys e word needs f = { u with dev := takeException u.dev e t word x none } := by
  simp [ctxRun, engineRun_runs h, hf, finish, Act.ex]

theorem scalarRun_runs {s : State} {e t : Nat} {u : Sys} (word : Nat) (rd : BitVec 5) (srcs : List (BitVec 5)) (f : Ctx → Word)
    (h : Runs s e t (needRegs (rd :: srcs)) u) :
    scalarRun s.sys e word rd srcs f
      = putCtx u e ((ctxAt u e).setReg rd (f (ctxAt u e)) (srcs.any (ctxAt u e).psn)).advance :=
  ctxRun_ok h word _ _ rfl

theorem satRun_runs {s : State} {e t : Nat} {u : Sys} (word : Nat) (rd ra rb : BitVec 5) (f : Word → Word → Word × Bool)
    (h : Runs s e t (needRegs [rd, ra, rb]) u) :
    satRun s.sys e word rd ra rb f
      = putCtx u e (((ctxAt u e).setReg rd (f ((ctxAt u e).reg ra) ((ctxAt u e).reg rb)).1
          ((ctxAt u e).psn ra || (ctxAt u e).psn rb)).stick St.sat (f ((ctxAt u e).reg ra) ((ctxAt u e).reg rb)).2).advance :=
  ctxRun_ok h word _ _ rfl

/-- The context of an engine is not touched by the end of an instruction on another. -/
theorem ctxAt_putCtx_other (u : Sys) (e f : Nat) (c : Ctx) (h : f ≠ e) : ctxAt (putCtx u e c) f = ctxAt u f := by
  simp [ctxAt, putCtx, setCtx, engineOf_setEngine_other _ _ _ _ h]

/-! ### Registers -/

@[simp] theorem reg_zero (c : Ctx) : c.reg 0 = 0 := by simp [Ctx.reg]

theorem stick_g (c : Ctx) (f : Fld) (b : Bool) : (c.stick f b).g = c.g := by
  unfold Ctx.stick Ctx.setSt; split <;> rfl

@[simp] theorem reg_stick (c : Ctx) (f : Fld) (b : Bool) (r : BitVec 5) : (c.stick f b).reg r = c.reg r := by
  simp [Ctx.reg, stick_g]

/-- A write of a general register reads back, but of G0. -/
theorem reg_setReg_same (c : Ctx) (r : BitVec 5) (v : Word) (p : Bool) (h : r ≠ 0) : (c.setReg r v p).reg r = v := by
  unfold Ctx.setReg
  rw [if_neg h, reg_stick]
  unfold Ctx.reg
  rw [if_neg h]
  simp

/-- A write of a general register leaves the others. -/
theorem reg_setReg_other (c : Ctx) (r q : BitVec 5) (v : Word) (p : Bool) (h : q ≠ r) : (c.setReg r v p).reg q = c.reg q := by
  unfold Ctx.setReg
  split
  · rfl
  · rw [reg_stick]
    have hn : r.toNat ≠ q.toNat := fun hh => h (BitVec.eq_of_toNat_eq hh.symm)
    simp [Ctx.reg, hn]

theorem setSt_g (c : Ctx) (f : Fld) (v : Nat) : (c.setSt f v).g = c.g := by cases c; rfl

theorem setLooping_g (c : Ctx) (j : Nat) (b : Bool) : (c.setLooping j b).g = c.g := by
  unfold Ctx.setLooping
  split
  · rw [setSt_g]
  · rw [setSt_g]

theorem endInner_g (c : Ctx) : c.endInner.g = c.g := by
  unfold Ctx.endInner
  dsimp only
  rw [setLooping_g]

theorem endOuter_g (c : Ctx) : c.endOuter.g = c.g := by
  unfold Ctx.endOuter
  dsimp only
  rw [setLooping_g]

theorem advanceOuter_g (c : Ctx) : c.advanceOuter.g = c.g := by
  unfold Ctx.advanceOuter
  rw [apply_ite Ctx.g, apply_ite Ctx.g, endOuter_g]
  simp only [ite_self]

theorem advance_g (c : Ctx) : c.advance.g = c.g := by
  unfold Ctx.advance
  rw [apply_ite Ctx.g, advanceOuter_g, apply_ite Ctx.g, endInner_g]
  simp only [ite_self]

@[simp] theorem reg_setSt (c : Ctx) (f : Fld) (v : Nat) (r : BitVec 5) : (c.setSt f v).reg r = c.reg r := by
  simp only [Ctx.reg, setSt_g]

/-- Moving PC on leaves the general registers. -/
@[simp] theorem reg_advance (c : Ctx) (r : BitVec 5) : c.advance.reg r = c.reg r := by
  simp only [Ctx.reg, advance_g]

end Sys2Proof.Machine
end

