-- ==== Sys2Proof/Laws/Memory.lean ====
section
/-! SUPPORT. Laws of addressed memory: a byte written reads back and leaves the others, and every operation keeps the
canonical form. -/
namespace Sys2Proof.Machine

/-! ### Bytes -/

theorem cellsWf_cons (k : Nat) (v : Byte) (r : List Host.Cell) :
    cellsWf ((k, v) :: r) = true ↔ v ≠ blankByte ∧ (∀ p ∈ r, k < p.1) ∧ cellsWf r = true := by
  simp [cellsWf, and_assoc]

theorem cellRead_above (m : List Host.Cell) (a : Nat) (h : ∀ p ∈ m, a < p.1) : cellRead m a = blankByte := by
  induction m with
  | nil => rfl
  | cons p m ih =>
    obtain ⟨k, v⟩ := p
    have hk : a < k := h (k, v) (by simp)
    simp only [cellRead]
    rw [if_neg (by omega)]
    exact ih (fun q hq => h q (by simp [hq]))

theorem cellRead_cellWrite_same (m : List Host.Cell) (a : Nat) (b : Byte) (h : cellsWf m = true) :
    cellRead (cellWrite m a b) a = b := by
  induction m with
  | nil =>
    simp only [cellWrite]
    split
    · rename_i hb; simp [cellRead, hb]
    · simp [cellRead]
  | cons p m ih =>
    obtain ⟨k, v⟩ := p
    rw [cellsWf_cons] at h
    obtain ⟨hv, hk, hm⟩ := h
    simp only [cellWrite]
    split
    · rename_i hak
      split
      · rename_i hb
        simp only [cellRead]
        rw [if_neg (by omega), hb]
        exact cellRead_above m a (fun q hq => by have := hk q hq; omega)
      · simp [cellRead]
    · split
      · rename_i hak
        split
        · rename_i hb
          subst hak
          rw [hb]
          exact cellRead_above m a hk
        · simp [cellRead]
      · rename_i h1 h2
        simp only [cellRead]
        rw [if_neg (Ne.symm h2)]
        exact ih hm

theorem cellRead_cellWrite_other (m : List Host.Cell) (a x : Nat) (b : Byte) (hx : x ≠ a) :
    cellRead (cellWrite m a b) x = cellRead m x := by
  induction m with
  | nil =>
    simp only [cellWrite]
    split
    · rfl
    · simp [cellRead, Ne.symm hx]
  | cons p m ih =>
    obtain ⟨k, v⟩ := p
    simp only [cellWrite]
    split
    · split
      · rfl
      · simp [cellRead, Ne.symm hx]
    · split
      · rename_i hak
        subst hak
        split
        · simp [cellRead, Ne.symm hx]
        · simp [cellRead, Ne.symm hx]
      · simp [cellRead, ih]

theorem mem_cellWrite (m : List Host.Cell) (a : Nat) (b : Byte) (p : Host.Cell) (h : p ∈ cellWrite m a b) : p ∈ m ∨ p.1 = a := by
  induction m with
  | nil =>
    simp only [cellWrite] at h
    split at h
    · simp at h
    · simp at h; right; rw [h]
  | cons q m ih =>
    obtain ⟨k, v⟩ := q
    simp only [cellWrite] at h
    split at h
    · split at h
      · exact Or.inl h
      · rcases List.mem_cons.mp h with h | h
        · right; rw [h]
        · exact Or.inl h
    · split at h
      · split at h
        · exact Or.inl (List.mem_cons_of_mem _ h)
        · rcases List.mem_cons.mp h with h | h
          · right; rw [h]
          · exact Or.inl (List.mem_cons_of_mem _ h)
      · rcases List.mem_cons.mp h with h | h
        · left; rw [h]; simp
        · rcases ih h with h | h
          · exact Or.inl (List.mem_cons_of_mem _ h)
          · exact Or.inr h

theorem cellWrite_wf (m : List Host.Cell) (a : Nat) (b : Byte) (h : cellsWf m = true) : cellsWf (cellWrite m a b) = true := by
  induction m with
  | nil =>
    simp only [cellWrite]
    split
    · rfl
    · rename_i hb; simp [cellsWf, hb]
  | cons p m ih =>
    obtain ⟨k, v⟩ := p
    have hh := h
    rw [cellsWf_cons] at h
    obtain ⟨hv, hk, hm⟩ := h
    simp only [cellWrite]
    split
    · rename_i hak
      split
      · exact hh
      · rename_i hb
        rw [cellsWf_cons]
        refine ⟨hb, ?_, hh⟩
        intro q hq
        rcases List.mem_cons.mp hq with hq | hq
        · rw [hq]; exact hak
        · have := hk q hq; omega
    · split
      · rename_i hak
        split
        · exact hm
        · rename_i hb
          rw [cellsWf_cons]
          exact ⟨hb, fun q hq => by rw [hak]; exact hk q hq, hm⟩
      · rename_i h1 h2
        rw [cellsWf_cons]
        refine ⟨hv, ?_, ih hm⟩
        intro q hq
        rcases mem_cellWrite m a b q hq with hq | hq
        · exact hk q hq
        · omega

theorem cellsWrite_wf (m : List Host.Cell) (a n v : Nat) (h : cellsWf m = true) : cellsWf (cellsWrite m a n v) = true := by
  induction n generalizing m a v with
  | zero => exact h
  | succ n ih => exact ih _ _ _ (cellWrite_wf _ _ _ h)

/-- Bytes outside a run that is written read as before. -/
theorem cellRead_cellsWrite_other (m : List Host.Cell) (a n v x : Nat) (h : x < a ∨ a + n ≤ x) :
    cellRead (cellsWrite m a n v) x = cellRead m x := by
  induction n generalizing m a v with
  | zero => rfl
  | succ n ih =>
    simp only [cellsWrite]
    rw [ih _ _ _ (by omega), cellRead_cellWrite_other _ _ _ _ (by omega)]

theorem locWrite_wf (m : List Host.Cell) (e : Nat) (l : List Nat) (v : Nat) (h : cellsWf m = true) :
    cellsWf (locWrite m e l v) = true := by
  induction l generalizing m v with
  | nil => exact h
  | cons a l ih => exact ih _ _ (cellWrite_wf _ _ _ h)

/-- Local bytes that a write does not name read as before. -/
theorem cellRead_locWrite_other (m : List Host.Cell) (e : Nat) (l : List Nat) (v x : Nat) (h : ∀ a ∈ l, localAt e a ≠ x) :
    cellRead (locWrite m e l v) x = cellRead m x := by
  induction l generalizing m v with
  | nil => rfl
  | cons a l ih =>
    simp only [locWrite]
    rw [ih _ _ (fun b hb => h b (by simp [hb])), cellRead_cellWrite_other _ _ _ _ (Ne.symm (h a (by simp)))]

/-! ### Sets of words -/

theorem setWf_cons (k : Nat) (r : List Nat) : setWf (k :: r) = true ↔ (∀ x ∈ r, k < x) ∧ setWf r = true := by
  simp [setWf]

theorem mem_setInsert (l : List Nat) (a x : Nat) (h : x ∈ setInsert l a) : x ∈ l ∨ x = a := by
  induction l with
  | nil => simp [setInsert] at h; exact Or.inr h
  | cons k l ih =>
    simp only [setInsert] at h
    split at h
    · rcases List.mem_cons.mp h with h | h
      · exact Or.inr h
      · exact Or.inl h
    · split at h
      · exact Or.inl h
      · rcases List.mem_cons.mp h with h | h
        · left; rw [h]; simp
        · rcases ih h with h | h
          · exact Or.inl (List.mem_cons_of_mem _ h)
          · exact Or.inr h

theorem setInsert_wf (l : List Nat) (a : Nat) (h : setWf l = true) : setWf (setInsert l a) = true := by
  induction l with
  | nil => rfl
  | cons k l ih =>
    have hh := h
    rw [setWf_cons] at h
    simp only [setInsert]
    split
    · rename_i hak
      rw [setWf_cons]
      refine ⟨?_, hh⟩
      intro x hx
      rcases List.mem_cons.mp hx with hx | hx
      · rw [hx]; exact hak
      · have := h.1 x hx; omega
    · split
      · exact hh
      · rename_i h1 h2
        rw [setWf_cons]
        refine ⟨?_, ih h.2⟩
        intro x hx
        rcases mem_setInsert l a x hx with hx | hx
        · exact h.1 x hx
        · omega

theorem mem_setErase (l : List Nat) (a x : Nat) (h : x ∈ setErase l a) : x ∈ l := by
  induction l with
  | nil => exact h
  | cons k l ih =>
    simp only [setErase] at h
    split at h
    · exact List.mem_cons_of_mem _ h
    · rcases List.mem_cons.mp h with h | h
      · rw [h]; simp
      · exact List.mem_cons_of_mem _ (ih h)

theorem setErase_wf (l : List Nat) (a : Nat) (h : setWf l = true) : setWf (setErase l a) = true := by
  induction l with
  | nil => rfl
  | cons k l ih =>
    rw [setWf_cons] at h
    simp only [setErase]
    split
    · exact h.2
    · rw [setWf_cons]
      exact ⟨fun x hx => h.1 x (mem_setErase l a x hx), ih h.2⟩

/-! ### The memories -/

theorem wf_iff (m : Mem) : Memory.wf m = true ↔
    cellsWf m.ext = true ∧ cellsWf m.loc = true ∧ setWf m.extPsn = true ∧ setWf m.locPsn = true ∧ setWf m.lmBad = true := by
  simp [Memory.wf, and_assoc]

theorem extMarks_wf (l : List Nat) (x n p : Nat) (h : setWf l = true) : setWf (extMarks l x n p) = true := by
  have step : ∀ (l : List Nat) (c : Bool) (a : Nat), setWf l = true → setWf (if c then setInsert l a else setErase l a) = true := by
    intro l c a hl
    cases c
    · exact setErase_wf l a hl
    · exact setInsert_wf l a hl
  unfold extMarks
  dsimp only
  split
  · exact step _ _ _ (step _ _ _ h)
  · exact step _ _ _ h

theorem lmMarks_wf (m : Mem) (e : Nat) (l : List Nat) (psn : List Bool) (h1 : setWf m.locPsn = true) (h2 : setWf m.lmBad = true) :
    setWf (lmMarks m e l psn).1 = true ∧ setWf (lmMarks m e l psn).2 = true := by
  unfold lmMarks
  dsimp only
  generalize (l.map (fun a => localAt e a / 8)).foldl setInsert [] = hs
  generalize m.locPsn = p at h1
  generalize m.lmBad = b at h2
  induction hs generalizing p b with
  | nil => exact ⟨h1, h2⟩
  | cons k hs ih =>
    simp only [List.foldl_cons]
    split
    · exact ih _ (setInsert_wf _ _ h1) _ h2
    · split
      · exact ih _ (setErase_wf _ _ h1) _ (setErase_wf _ _ h2)
      · exact ih _ h1 _ h2

/-- A write of local memory keeps the canonical form. -/
theorem lmWrite_wf (s : Sys) (e : Nat) (l : List Nat) (v : Nat) (psn : List Bool) (h : Memory.wf s.mem = true) :
    Memory.wf (lmWrite s e l v psn).mem = true := by
  rw [wf_iff] at h ⊢
  have hm := lmMarks_wf s.mem e l psn h.2.2.2.1 h.2.2.2.2
  exact ⟨h.1, locWrite_wf _ _ _ _ h.2.1, h.2.2.1, hm.1, hm.2⟩

@[simp] theorem lmRead_mem (s : Sys) (e : Nat) (l : List Nat) : (lmRead s e l).2.2.mem = s.mem := rfl

/-- A write at an external address keeps the canonical form. -/
theorem extWrite_wf (s : Sys) (e t a n v p : Nat) (h : Memory.wf s.mem = true) : Memory.wf (extWrite s e t a n v p).mem = true := by
  unfold extWrite
  split
  · rw [wf_iff] at h ⊢
    exact ⟨cellsWrite_wf _ _ _ _ h.1, h.2.1, extMarks_wf _ _ _ _ h.2.2.1, h.2.2.2.1, h.2.2.2.2⟩
  · split <;> exact h
  · exact h

theorem reset_wf : Memory.wf Mem.reset = true := rfl

end Sys2Proof.Machine
end

