-- ==== Sys2Proof/Laws/External.lean ====
section
/-! SUPPORT. The operations and copies that engines hold in flight, and the end of an instruction, keep the canonical form of
the addressed memories. -/
namespace Sys2Proof.Machine

/-- Nothing but the device changes where an address is read. -/
theorem extRead_mem {s : Sys} {e a n v p : Nat} {u : Sys} (h : extRead s e a n = some (v, p, u)) : u.mem = s.mem := by
  unfold extRead at h
  split at h
  · injection h with h; injection h with h1 h2; injection h2 with h2 h3; rw [← h3]
  · injection h with h; injection h with h1 h2; injection h2 with h2 h3; rw [← h3]
  · injection h with h; injection h with h1 h2; injection h2 with h2 h3; rw [← h3]
  · injection h with h; injection h with h1 h2; injection h2 with h2 h3; rw [← h3]
  · split at h
    · exact absurd h (by simp)
    · injection h with h; injection h with h1 h2; injection h2 with h2 h3; rw [← h3]
  · split at h
    · injection h with h; injection h with h1 h2; injection h2 with h2 h3; rw [← h3]
    · injection h with h; injection h with h1 h2; injection h2 with h2 h3; rw [← h3]
  · injection h with h; injection h with h1 h2; injection h2 with h2 h3; rw [← h3]

/-- An operation performed keeps the canonical form. -/
theorem applyOp_wf {s u : Sys} {e : Nat} {o : XOp} {before : List XOp} (h : applyOp s e o before = some u)
    (hs : Memory.wf s.mem = true) : Memory.wf u.mem = true := by
  unfold applyOp at h
  split at h
  · split at h
    · exact absurd h (by simp)
    · rename_i hr
      injection h with h
      rw [← h]
      show Memory.wf _ = true
      rw [extRead_mem hr]; exact hs
  · injection h with h
    rw [← h]
    exact extWrite_wf _ _ _ _ _ _ _ hs
  · injection h with h; rw [← h]; exact hs
  · injection h with h; rw [← h]; exact hs
  · split at h
    · exact absurd h (by simp)
    · rename_i hr
      injection h with h
      have hm := extRead_mem hr
      rw [← h]
      show Memory.wf (Sys.mem _) = true
      split
      · exact extWrite_wf _ _ _ _ _ _ _ (by rw [hm]; exact hs)
      · rw [hm]; exact hs

theorem performMarked_wf (e : Nat) (l : List (XOp × Bool)) : ∀ (s : Sys) (kept : List XOp) (r : Sys × List XOp),
    performMarked s e l kept = some r → Memory.wf s.mem = true → Memory.wf r.1.mem = true := by
  induction l with
  | nil => intro s kept r h hs; simp only [performMarked, Option.some.injEq] at h; rw [← h]; exact hs
  | cons p l ih =>
    obtain ⟨o, b⟩ := p
    intro s kept r h hs
    cases b with
    | false => exact ih _ _ _ h hs
    | true =>
      simp only [performMarked] at h
      split at h
      · exact absurd h (by simp)
      · rename_i ho
        exact ih _ _ _ h (applyOp_wf ho hs)

theorem performAt_wf {s u : Sys} {e i : Nat} (h : performAt s e i = some u) (hs : Memory.wf s.mem = true) : Memory.wf u.mem = true := by
  unfold performAt at h
  dsimp only at h
  split at h
  · injection h with h; rw [← h]; exact hs
  · split at h
    · exact absurd h (by simp)
    · rename_i hp
      injection h with h
      rw [← h]
      exact performMarked_wf _ _ _ _ _ hp hs

theorem performWhile_wf (w : XOp → Bool) (e n : Nat) : ∀ (s u : Sys), performWhile w e n s = some u → Memory.wf s.mem = true →
    Memory.wf u.mem = true := by
  induction n with
  | zero => intro s u h hs; simp only [performWhile, Option.some.injEq] at h; rw [← h]; exact hs
  | succ n ih =>
    intro s u h hs
    simp only [performWhile] at h
    split at h
    · injection h with h; rw [← h]; exact hs
    · split at h
      · exact absurd h (by simp)
      · rename_i hp
        exact ih _ _ h (performAt_wf hp hs)

theorem performAll_wf {w : XOp → Bool} {e : Nat} {s u : Sys} (h : performAll w e s = some u) (hs : Memory.wf s.mem = true) :
    Memory.wf u.mem = true := performWhile_wf _ _ _ _ _ h hs

theorem copyInWord_wf {e i : Nat} {c : XCopy} {s u : Sys} (h : copyInWord e c i s = some u) (hs : Memory.wf s.mem = true) :
    Memory.wf u.mem = true := by
  unfold copyInWord at h
  split at h
  · exact absurd h (by simp)
  · rename_i hr
    injection h with h
    rw [← h]
    exact lmWrite_wf _ _ _ _ _ (by rw [extRead_mem hr]; exact hs)

theorem copyOutWord_wf (e : Nat) (c : XCopy) (i : Nat) (s : Sys) (hs : Memory.wf s.mem = true) :
    Memory.wf (copyOutWord e c i s).mem = true := extWrite_wf _ _ _ _ _ _ _ hs

/-- Words of a copy moved keep the canonical form. -/
theorem moveWords_wf (e : Nat) (c : XCopy) (l : List Nat) : ∀ (s u : Sys), moveWords e c l s = some u → Memory.wf s.mem = true →
    Memory.wf u.mem = true := by
  induction l with
  | nil => intro s u h hs; simp only [moveWords, Option.some.injEq] at h; rw [← h]; exact hs
  | cons i l ih =>
    intro s u h hs
    simp only [moveWords] at h
    split at h
    · exact absurd h (by simp)
    · rename_i v hv
      refine ih _ _ h ?_
      split at hv
      · exact copyInWord_wf hv hs
      · injection hv with hv; rw [← hv]; exact copyOutWord_wf _ _ _ _ hs

/-- A copy carried out keeps the canonical form. -/
theorem copyDone_wf {s u : Sys} {e : Nat} {c : XCopy} (h : copyDone s e c = some u) (hs : Memory.wf s.mem = true) :
    Memory.wf u.mem = true := by
  unfold copyDone at h
  dsimp only at h
  split at h
  · exact absurd h (by simp)
  · rename_i v hm
    injection h with h
    rw [← h]
    show Memory.wf v.mem = true
    split at hm
    · exact moveWords_wf _ _ _ _ _ hm hs
    · injection hm with hm; rw [← hm]; exact hs

/-- So does one word moved in a stolen cycle. -/
theorem moveOneWord_wf (e : Nat) (s : Sys) (hs : Memory.wf s.mem = true) : Memory.wf (moveOneWord e s).mem = true := by
  unfold moveOneWord
  dsimp only
  split
  · exact hs
  · split
    · exact hs
    · rename_i hm
      have h : Memory.wf (Sys.mem _) = true := moveWords_wf _ _ _ _ _ hm hs
      exact h

theorem copiesWhile_wf (w : XCopy → Bool) (e n : Nat) : ∀ (s u : Sys), copiesWhile w e n s = some u → Memory.wf s.mem = true →
    Memory.wf u.mem = true := by
  induction n with
  | zero => intro s u h hs; simp only [copiesWhile, Option.some.injEq] at h; rw [← h]; exact hs
  | succ n ih =>
    intro s u h hs
    simp only [copiesWhile] at h
    split at h
    · injection h with h; rw [← h]; exact hs
    · split at h
      · exact absurd h (by simp)
      · rename_i hc
        exact ih _ _ h (copyDone_wf hc hs)

theorem copiesAll_wf {w : XCopy → Bool} {e : Nat} {s u : Sys} (h : copiesAll w e s = some u) (hs : Memory.wf s.mem = true) :
    Memory.wf u.mem = true := copiesWhile_wf _ _ _ _ _ h hs

theorem releaseAll_wf {e : Nat} {s u : Sys} (h : releaseAll e s = some u) (hs : Memory.wf s.mem = true) : Memory.wf u.mem = true := by
  unfold releaseAll at h
  split at h
  · exact absurd h (by simp)
  · rename_i hp
    exact copiesAll_wf h (performAll_wf hp hs)

/-- What an act leaves in memory, where it leaves a system. -/
def Act.memWf : Act → Prop
  | .fault _ _ => True
  | .wait s => Memory.wf s.mem = true
  | .next s => Memory.wf s.mem = true
  | .go s _ => Memory.wf s.mem = true
  | .left s => Memory.wf s.mem = true

theorem finish_wf (s : Sys) (e t word : Nat) (a : Act) (hs : Memory.wf s.mem = true) (ha : a.memWf) :
    Memory.wf (finish s e t word a).mem = true := by
  cases a with
  | fault c d => exact hs
  | wait s => exact ha
  | next s => exact ha
  | go s t => exact ha
  | left s => exact ha

/-- An instruction keeps the canonical form where its act does. -/
theorem engineRun_wf (s : Sys) (e word : Nat) (needs : XOp → Bool) (act : Sys → Nat → Act) (hs : Memory.wf s.mem = true)
    (ha : ∀ u t, Memory.wf u.mem = true → (act u t).memWf) : Memory.wf (engineRun s e word needs act).mem = true := by
  unfold engineRun
  split
  · exact hs
  · split
    · exact hs
    · rename_i hp
      have hu := performAll_wf hp hs
      exact finish_wf _ _ _ _ _ hu (ha _ _ hu)

/-- An instruction that acts on the context alone keeps it. -/
theorem ctxRun_wf (s : Sys) (e word : Nat) (needs : XOp → Bool) (f : Ctx → Except Nat Ctx) (hs : Memory.wf s.mem = true) :
    Memory.wf (ctxRun s e word needs f).mem = true := by
  unfold ctxRun
  refine engineRun_wf _ _ _ _ _ hs ?_
  intro u t hu
  split
  · exact hu
  · trivial

end Sys2Proof.Machine
end

