-- ==== Sys2Proof/Laws/Fields.lean ====
section
/-! SUPPORT. Bit fields: a field written reads back, and a field apart from it reads as before; the same for ST. -/
namespace Sys2Proof.Machine

/-- Two fields that share no bit. -/
def Fld.apart (f g : Fld) : Prop := g.lo + g.w ≤ f.lo ∨ f.lo + f.w ≤ g.lo

theorem testBit_getF (r : Nat) (f : Fld) (i : Nat) : (getF r f).testBit i = (decide (i < f.w) && r.testBit (f.lo + i)) := by
  simp [getF, Nat.testBit_mod_two_pow, Nat.testBit_shiftRight]

theorem testBit_setF (r : Nat) (f : Fld) (v i : Nat) : (setF r f v).testBit i
    = if i < f.lo then r.testBit i else if i < f.lo + f.w then v.testBit (i - f.lo) else r.testBit i := by
  have e : setF r f v = 2 ^ f.lo * (2 ^ f.w * (r >>> (f.lo + f.w)) + v % 2 ^ f.w) + r % 2 ^ f.lo := by
    unfold setF
    rw [Nat.pow_add, Nat.mul_add]
    ac_rfl
  have h1 : r % 2 ^ f.lo < 2 ^ f.lo := Nat.mod_lt _ (Nat.two_pow_pos _)
  have h2 : v % 2 ^ f.w < 2 ^ f.w := Nat.mod_lt _ (Nat.two_pow_pos _)
  rw [e, Nat.testBit_two_pow_mul_add _ h1]
  split
  · rename_i hi
    simp [Nat.testBit_mod_two_pow, hi]
  · rename_i hi
    rw [Nat.testBit_two_pow_mul_add _ h2]
    by_cases hw : i - f.lo < f.w
    · rw [if_pos hw, if_pos (by omega)]
      simp [Nat.testBit_mod_two_pow, hw]
    · rw [if_neg hw, if_neg (by omega), Nat.testBit_shiftRight]
      congr 1
      omega

theorem getF_setF_same (r : Nat) (f : Fld) (v : Nat) : getF (setF r f v) f = v % 2 ^ f.w := by
  apply Nat.eq_of_testBit_eq
  intro i
  rw [testBit_getF, testBit_setF, Nat.testBit_mod_two_pow]
  by_cases h : i < f.w
  · rw [if_neg (by omega), if_pos (by omega)]
    simp [h]
  · simp [h]

theorem getF_setF_other (r : Nat) (f g : Fld) (v : Nat) (h : Fld.apart f g) : getF (setF r f v) g = getF r g := by
  apply Nat.eq_of_testBit_eq
  intro i
  rw [testBit_getF, testBit_getF, testBit_setF]
  by_cases hi : i < g.w
  · rcases h with h | h
    · rw [if_pos (by omega)]
    · rw [if_neg (by omega), if_neg (by omega)]
  · simp [hi]

theorem getF_mod (r n : Nat) (g : Fld) (h : g.lo + g.w ≤ n) : getF (r % 2 ^ n) g = getF r g := by
  apply Nat.eq_of_testBit_eq
  intro i
  rw [testBit_getF, testBit_getF, Nat.testBit_mod_two_pow]
  by_cases hi : i < g.w
  · have : g.lo + i < n := by omega
    simp [this]
  · simp [hi]

theorem stF_setSt_same (c : Ctx) (f : Fld) (v : Nat) (h : f.lo + f.w ≤ 64) : (c.setSt f v).stF f = v % 2 ^ f.w := by
  unfold Ctx.stF Ctx.setSt
  rw [BitVec.toNat_ofNat, getF_mod _ _ _ h, getF_setF_same]

theorem stF_setSt_other (c : Ctx) (f g : Fld) (v : Nat) (h : Fld.apart f g) (hg : g.lo + g.w ≤ 64) :
    (c.setSt f v).stF g = c.stF g := by
  unfold Ctx.stF Ctx.setSt
  rw [BitVec.toNat_ofNat, getF_mod _ _ _ hg, getF_setF_other _ _ _ _ h]

theorem stF_stick_other (c : Ctx) (f g : Fld) (b : Bool) (h : Fld.apart f g) (hg : g.lo + g.w ≤ 64) :
    (c.stick f b).stF g = c.stF g := by
  unfold Ctx.stick
  split
  · exact stF_setSt_other c f g 1 h hg
  · rfl

end Sys2Proof.Machine
end

