-- ==== Sys2Proof/Laws/MemoryKept.lean ====
section
/-! SUPPORT. The forms of engine instruction, a dispatch, the completions and the losses of supplies keep the canonical form of
the addressed memories; a check job's scan changes none. -/
namespace Sys2Proof.Machine

theorem checkJobComplete_mem (k : Nat) (s : Sys) : (checkJobComplete k s).mem = s.mem := by
  unfold checkJobComplete; dsimp only; (repeat' split) <;> rfl

theorem makeRoom_wf (s e st u) (hm : makeRoom s e st = some u) (hv : Memory.wf s.mem = true) : Memory.wf u.mem = true := by
  unfold makeRoom at hm
  dsimp only at hm
  split at hm
  · split at hm
    · exact performAt_wf hm hv
    · injection hm with hm; rw [← hm]; exact hv
  · injection hm with hm; rw [← hm]; exact hv

theorem extRun_wf (s e word needs pair ra bytes u op) (hs : Memory.wf s.mem = true) : Memory.wf (extRun s e word needs pair ra bytes u op).mem = true := by
  unfold extRun
  refine engineRun_wf _ _ _ _ _ hs ?_
  intro v t hv
  try dsimp only
  split
  · trivial
  · split
    · exact hv
    · rename_i x hm
      have : Memory.wf x.mem = true := makeRoom_wf _ _ _ _ hm hv
      show Memory.wf (Sys.mem (issue _ _ _)) = true
      dsimp only [issue]
      repeat' split
      all_goals exact this

theorem copyRun_wf (s e func into rd ra rb) (hs : Memory.wf s.mem = true) : Memory.wf (copyRun s e func into rd ra rb).mem = true := by
  unfold copyRun
  refine engineRun_wf _ _ _ _ _ hs ?_
  intro v t hv
  try dsimp only
  split
  · trivial
  · split
    · exact hv
    · rename_i x hm
      have h : Memory.wf x.mem = true := copiesAll_wf hm hv
      exact h

theorem execXwait_wf (s e tag) (hs : Memory.wf s.mem = true) : Memory.wf (execXwait e tag s).mem = true := by
  unfold execXwait
  refine engineRun_wf _ _ _ _ _ hs ?_
  intro v t hv
  try dsimp only
  split
  · exact hv
  · rename_i hm
    split
    · trivial
    · exact copiesAll_wf hm hv

theorem fenceRun_wf (s e func o c) (hs : Memory.wf s.mem = true) : Memory.wf (fenceRun s e func o c).mem = true := by
  unfold fenceRun
  refine engineRun_wf _ _ _ _ _ hs ?_
  intro v t hv
  try dsimp only
  split
  · exact hv
  · rename_i h1
    split
    · exact performAll_wf h1 hv
    · rename_i h2
      exact copiesAll_wf h2 (performAll_wf h1 hv)

theorem queueRun_wf (s e word needs ra more rel op) (hs : Memory.wf s.mem = true)
    (ho : ∀ u t c q v, op u t c q = some v → Memory.wf u.mem = true → Memory.wf v.mem = true) :
    Memory.wf (queueRun s e word needs ra more rel op).mem = true := by
  unfold queueRun
  refine engineRun_wf _ _ _ _ _ hs ?_
  intro v t hv
  try dsimp only
  split
  · trivial
  · split
    · exact hv
    · rename_i w hm
      have hw : Memory.wf w.mem = true := by
        split at hm
        · exact releaseAll_wf hm hv
        · injection hm with hm; rw [← hm]; exact hv
      split
      · exact hw
      · rename_i hq
        exact ho _ _ _ _ _ hq hw

theorem sendOp_mem {e t q k p s u} (h : sendOp e t q k p s = some u) : u.mem = s.mem := by
  unfold sendOp at h; injection h with h; rw [← h]; rfl

theorem askOp_wf {e q f s u} (h : askOp e q f s = some u) (hs : Memory.wf s.mem = true)
    (hf : ∀ v c, Memory.wf v.mem = true → Memory.wf (f v c).mem = true) : Memory.wf u.mem = true := by
  unfold askOp at h
  split at h
  · exact absurd h (by simp)
  · rename_i hp
    injection h with h
    rw [← h]
    exact hf _ _ (performAll_wf hp hs)

theorem pushPair_wf {e rb rel s t c q u} (h : pushPair e rb rel s t c q = some u) (hs : Memory.wf s.mem = true) :
    Memory.wf u.mem = true := by
  rw [sendOp_mem h]; exact hs

theorem pushBlk_wf {e rd rb rel s t c q u} (h : pushBlk e rd rb rel s t c q = some u) (hs : Memory.wf s.mem = true) :
    Memory.wf u.mem = true := by
  unfold pushBlk at h
  dsimp only at h
  split at h
  · rw [sendOp_mem h]; exact hs
  · rw [sendOp_mem h]; exact hs

theorem popPair_wf {e rd s t c q u} (h : popPair e rd s t c q = some u) (hs : Memory.wf s.mem = true) : Memory.wf u.mem = true := by
  rw [sendOp_mem h]; exact hs

theorem popPairAcq_wf {e rd s t c q u} (h : popPairAcq e rd s t c q = some u) (hs : Memory.wf s.mem = true) :
    Memory.wf u.mem = true := by
  unfold popPairAcq at h
  split at h
  · exact absurd h (by simp)
  · rename_i hp
    exact askOp_wf h (popPair_wf hp hs) (fun _ _ hv => hv)

theorem popBlock_wf (e rd rb q s c) (hs : Memory.wf s.mem = true) : Memory.wf (popBlock e rd rb q s c).mem = true := by
  unfold popBlock; dsimp only; split
  · exact hs
  · exact lmWrite_wf _ _ _ _ _ hs

theorem popBlk_wf {e rd rb s t c q u} (h : popBlk e rd rb s t c q = some u) (hs : Memory.wf s.mem = true) : Memory.wf u.mem = true :=
  askOp_wf h hs (fun _ _ hv => popBlock_wf _ _ _ _ _ _ hv)

theorem markOp_wf {e f s t c q u} (h : markOp e f s t c q = some u) (hs : Memory.wf s.mem = true) : Memory.wf u.mem = true :=
  askOp_wf h hs (fun v c hv => by try dsimp only; split <;> exact hv)

theorem statOp_wf {e rd s t c q u} (h : statOp e rd s t c q = some u) (hs : Memory.wf s.mem = true) : Memory.wf u.mem = true :=
  askOp_wf h hs (fun v c hv => by try dsimp only; split <;> exact hv)

theorem vecReads_mem (s e aa ab sa sb r) (h : vecReads s e aa ab sa sb = .ok r) : r.sys.mem = s.mem := by
  unfold vecReads at h
  dsimp only at h
  split at h
  · cases h
  · cases h
  · cases h
  · injection h with h; rw [← h]; rfl

theorem macRun_wf (s e op aa ab sa sb v bad wide lanes) (hs : Memory.wf s.mem = true) : Memory.wf (macRun s e op aa ab sa sb v bad wide lanes).mem = true := by
  unfold macRun
  refine engineRun_wf _ _ _ _ _ hs ?_
  intro u t hu
  try dsimp only
  split
  · trivial
  · split
    · trivial
    · rename_i hr
      show Memory.wf (Sys.mem _) = true
      rw [putCtx_mem, vecReads_mem _ _ _ _ _ _ _ hr]; exact hu

theorem execBflyS16_wf (s e aa ab sa sb v) (hs : Memory.wf s.mem = true) : Memory.wf (execBflyS16 e aa ab sa sb v s).mem = true := by
  unfold execBflyS16
  refine engineRun_wf _ _ _ _ _ hs ?_
  intro u t hu
  try dsimp only
  split
  · trivial
  · split
    · trivial
    · rename_i hr
      show Memory.wf (Sys.mem _) = true
      rw [putCtx_mem]
      exact lmWrite_wf _ _ _ _ _ (lmWrite_wf _ _ _ _ _ (by rw [vecReads_mem _ _ _ _ _ _ _ hr]; exact hu))

theorem execAcst_wf (s e an acc shift round sat width vec step) (hs : Memory.wf s.mem = true) : Memory.wf (execAcst e an acc shift round sat width vec step s).mem = true := by
  unfold execAcst
  refine engineRun_wf _ _ _ _ _ hs ?_
  intro u t hu
  try dsimp only
  split
  · trivial
  · split
    · trivial
    · exact lmWrite_wf _ _ _ _ _ hu

theorem execLd_wf (s e rd an w m st) (hs : Memory.wf s.mem = true) : Memory.wf (execLd e rd an w m st s).mem = true := by
  unfold execLd
  refine engineRun_wf _ _ _ _ _ hs ?_
  intro u t hu
  try dsimp only
  split
  · trivial
  · exact hu

theorem execSt_wf (s e rd an w m st) (hs : Memory.wf s.mem = true) : Memory.wf (execSt e rd an w m st s).mem = true := by
  unfold execSt
  refine engineRun_wf _ _ _ _ _ hs ?_
  intro u t hu
  try dsimp only
  split
  · trivial
  · exact lmWrite_wf _ _ _ _ _ hu

theorem execB_wf (s e c off) (hs : Memory.wf s.mem = true) : Memory.wf (execB e c off s).mem = true := by
  unfold execB
  refine engineRun_wf _ _ _ _ _ hs ?_
  intro u t hu
  try dsimp only
  split
  · trivial
  · split
    · trivial
    · split <;> exact hu

theorem execCall_wf (s e off) (hs : Memory.wf s.mem = true) : Memory.wf (execCall e off s).mem = true := by
  unfold execCall
  exact engineRun_wf _ _ _ _ _ hs (fun u t hu => hu)

theorem execJr_wf (s e off) (hs : Memory.wf s.mem = true) : Memory.wf (execJr e off s).mem = true := by
  unfold execJr
  refine engineRun_wf _ _ _ _ _ hs ?_
  intro u t hu
  try dsimp only
  split
  · trivial
  · exact hu

theorem execLoop_wf (s e r off) (hs : Memory.wf s.mem = true) : Memory.wf (execLoop e r off s).mem = true := by
  unfold execLoop
  refine engineRun_wf _ _ _ _ _ hs ?_
  intro u t hu
  try dsimp only
  split
  · trivial
  · split
    · trivial
    · split <;> exact hu

theorem execFenceTick_wf (s e r) (hs : Memory.wf s.mem = true) : Memory.wf (execFenceTick e r s).mem = true := by
  unfold execFenceTick
  refine engineRun_wf _ _ _ _ _ hs ?_
  intro u t hu
  try dsimp only
  split
  · trivial
  · split <;> exact hu

theorem execFenceEpoch_wf (s e) (hs : Memory.wf s.mem = true) : Memory.wf (execFenceEpoch e s).mem = true := by
  unfold execFenceEpoch
  refine engineRun_wf _ _ _ _ _ hs ?_
  intro u t hu
  try dsimp only
  split <;> exact hu

theorem illegalInstruction_wf (s e w) (hs : Memory.wf s.mem = true) : Memory.wf (illegalInstruction e w s).mem = true := by
  unfold illegalInstruction
  split
  · exact hs
  · exact engineRun_wf _ _ _ _ _ hs (fun _ _ _ => trivial)

theorem settleElsewhere_wf (t e : Nat) (l : List Nat) : ∀ (s u : Sys), settleElsewhere t e l s = some u → Memory.wf s.mem = true → Memory.wf u.mem = true := by
  induction l with
  | nil => intro s u h hs; simp only [settleElsewhere, Option.some.injEq] at h; rw [← h]; exact hs
  | cons x l ih =>
    intro s u h hs
    simp only [settleElsewhere] at h
    split at h
    · exact ih _ _ h hs
    · split at h
      · exact absurd h (by simp)
      · rename_i h1
        split at h
        · exact absurd h (by simp)
        · rename_i h2
          exact ih _ _ h (copiesAll_wf h2 (performAll_wf h1 hs))

theorem dispatch_wf (h s) (hs : Memory.wf s.mem = true) : Memory.wf (dispatch h s).mem = true := by
  unfold dispatch
  split
  · exact hs
  · split
    · exact hs
    · dsimp only
      split
      · exact hs
      · rename_i h1
        have := settleElsewhere_wf _ _ _ _ _ h1 (by split <;> exact hs)
        exact this

theorem coldStart_wf (x w s) (hs : Memory.wf s.mem = true) : Memory.wf (coldStart x w s).mem = true := by
  unfold coldStart
  try dsimp only
  split
  · exact hs
  · split
    · rfl
    · split
      · split
        · rfl
        · exact hs
      · exact hs

theorem externalComplete_wf (e i s) (hs : Memory.wf s.mem = true) : Memory.wf (externalComplete e i s).mem = true := by
  unfold externalComplete
  split
  · rename_i h; exact performAt_wf h hs
  · exact hs

theorem stolenCycle_wf (e s) (hs : Memory.wf s.mem = true) : Memory.wf (stolenCycle e s).mem = true := by
  unfold stolenCycle
  split
  · exact hs
  · exact moveOneWord_wf _ _ (moveOneWord_wf _ _ hs)

theorem xcopyComplete_wf (e i s) (hs : Memory.wf s.mem = true) : Memory.wf (xcopyComplete e i s).mem = true := by
  unfold xcopyComplete
  split
  · exact hs
  · split
    · rename_i h; exact copyDone_wf h hs
    · exact hs

end Sys2Proof.Machine
end

