-- ==== Sys2Proof/Laws/Report.lean ====
section
/-! SUPPORT. What a fault report, an emergency message and the passing of time leave alone, said once for each (R25, R277,
R295, R303 to R305, R308). -/
namespace Sys2Proof.Machine

/-- `n` is `d` but for values of objects, the fault collector's log, FAULT_N and emergency messages, and what was sent. -/
structure Dev.Reported (d n : Dev) : Prop where
  time : n.time = d.time
  fwd : n.fwd = d.fwd
  endpoints : n.endpoints = d.endpoints
  chans : n.chans = d.chans
  groups : n.groups = d.groups
  setup : n.setup = d.setup
  queues : n.queues = d.queues
  oa : n.oa = d.oa
  banks : n.banks = d.banks
  stk : n.stk = d.stk
  engines : n.engines = d.engines
  twin : n.twin = d.twin
  ev : n.ev = d.ev
  store : n.store = d.store
  line : n.line = d.line
  cans : n.cans = d.cans
  canAt : n.canAt = d.canAt
  goa : n.goa = d.goa
  start : n.start = d.start
  free : n.free = d.free
  staged : n.dict.staged = d.dict.staged
  commit : n.dict.commit = d.dict.commit
  epoch : n.dict.epoch = d.dict.epoch
  units : n.dict.units = d.dict.units
  sel : n.dict.sel = d.dict.sel
  abort : n.dict.abort = d.dict.abort
  blocks : n.faults.blocks = d.faults.blocks
  quench : n.faults.quench = d.faults.quench
  quenchSup : n.faults.quenchSup = d.faults.quenchSup
  pilot : n.faults.pilot = d.faults.pilot
  hbArmed : n.faults.hbArmed = d.faults.hbArmed
  hbLast : n.faults.hbLast = d.faults.hbLast
  hbLost : n.faults.hbLost = d.faults.hbLost

theorem Dev.Reported.refl (d : Dev) : Dev.Reported d d := by constructor <;> rfl

theorem Dev.Reported.trans {a b c : Dev} (h : Dev.Reported a b) (k : Dev.Reported b c) : Dev.Reported a c :=
  ⟨k.time.trans h.time, k.fwd.trans h.fwd, k.endpoints.trans h.endpoints, k.chans.trans h.chans,
   k.groups.trans h.groups, k.setup.trans h.setup, k.queues.trans h.queues, k.oa.trans h.oa,
   k.banks.trans h.banks, k.stk.trans h.stk, k.engines.trans h.engines, k.twin.trans h.twin,
   k.ev.trans h.ev, k.store.trans h.store, k.line.trans h.line, k.cans.trans h.cans,
   k.canAt.trans h.canAt, k.goa.trans h.goa, k.start.trans h.start, k.free.trans h.free,
   k.staged.trans h.staged, k.commit.trans h.commit, k.epoch.trans h.epoch, k.units.trans h.units,
   k.sel.trans h.sel, k.abort.trans h.abort, k.blocks.trans h.blocks, k.quench.trans h.quench,
   k.quenchSup.trans h.quenchSup, k.pilot.trans h.pilot, k.hbArmed.trans h.hbArmed, k.hbLast.trans h.hbLast,
   k.hbLost.trans h.hbLost⟩

theorem Dev.Reported.ite {c : Prop} [Decidable c] {d a b : Dev} (h : Dev.Reported d a) (k : Dev.Reported d b) :
    Dev.Reported d (if c then a else b) := by split <;> assumption

theorem bump_reported (d : Dev) (r : Row) (i j : Nat) : Dev.Reported d (bump d r i j) := by constructor <;> rfl

theorem bumpIf_reported (c : Bool) (d : Dev) (r : Row) (i j : Nat) : Dev.Reported d (bumpIf c d r i j) := by
  cases c
  · exact Dev.Reported.refl d
  · exact bump_reported d r i j

theorem toRing_reported (d : Dev) (e : LogEntry) : Dev.Reported d (toRing d e) := by
  unfold toRing
  exact Dev.Reported.trans (by constructor <;> rfl) (bumpIf_reported _ _ _ _ _)

theorem emit_reported (d : Dev) (e : Emission) : Dev.Reported d (emit d e) := by constructor <;> rfl

theorem assertFaultN_reported (d : Dev) : Dev.Reported d (assertFaultN d) := by constructor <;> rfl

theorem sendEmcy_go_reported (d : Dev) (err code inst : Nat) : Dev.Reported d (sendEmcy.go d err code inst) := by
  unfold sendEmcy.go
  extract_lets body id d1 d2 f
  have h1 : Dev.Reported d d1 := Dev.Reported.ite (emit_reported _ _) (Dev.Reported.refl d)
  have h2 : Dev.Reported d1 d2 := Dev.Reported.ite (emit_reported _ _) (Dev.Reported.refl d1)
  exact (h1.trans h2).trans (Dev.Reported.trans (by constructor <;> rfl) (bump_reported _ _ _ _))

theorem sendEmcy_reported (d : Dev) (err code inst : Nat) : Dev.Reported d (sendEmcy d err code inst) := by
  unfold sendEmcy
  extract_lets wait
  refine Dev.Reported.ite (Dev.Reported.refl d) ?_
  split
  · exact Dev.Reported.ite (bump_reported _ _ _ _) (sendEmcy_go_reported _ _ _ _)
  · exact sendEmcy_go_reported _ _ _ _

theorem logReport_reported (d : Dev) (cls code inst detail : Nat) (escal : Bool) :
    Dev.Reported d (logReport d cls code inst detail escal).dev := by
  unfold logReport
  extract_lets win cause d1 d2 d3 merges low f0 seq e f d4 f1 d5
  have h1 : Dev.Reported d d1 := bump_reported _ _ _ _
  have h2 : Dev.Reported d1 d2 := bumpIf_reported _ _ _ _ _
  have h3 : ∀ w : Option (Nat × Nat), Dev.Reported d2 (match w with
      | some w => bump d2 Obj.consequentialReports w.1 0
      | none => d2) := by
    intro w
    cases w
    · exact Dev.Reported.refl d2
    · exact bump_reported _ _ _ _
  have h3 : Dev.Reported d2 d3 := h3 win
  have h := (h1.trans h2).trans h3
  have h4 : Dev.Reported d3 d4 := Dev.Reported.trans (by constructor <;> rfl) (bump_reported _ _ _ _)
  have h5 : Dev.Reported d4 d5 := Dev.Reported.ite (by constructor <;> rfl) (toRing_reported _ _)
  split
  · exact h.trans (Dev.Reported.trans (by constructor <;> rfl) (bump_reported _ _ _ _))
  · split
    · exact h.trans (Dev.Reported.trans (by constructor <;> rfl) (bump_reported _ _ _ _))
    · exact (h.trans h4).trans h5

theorem reportL_reported (d : Dev) (cls code inst detail : Nat) (escal : Bool) :
    Dev.Reported d (reportL d cls code inst detail escal).dev := by
  unfold reportL
  extract_lets l conseq d1 stand f0 d2 d3
  have h := logReport_reported d cls code inst detail escal
  have h1 : Dev.Reported l.dev d1 := Dev.Reported.ite (assertFaultN_reported _) (Dev.Reported.refl _)
  have h2 : Dev.Reported d1 d2 := Dev.Reported.ite (by constructor <;> rfl) (Dev.Reported.refl _)
  have h3 : Dev.Reported d2 d3 := Dev.Reported.ite (sendEmcy_reported _ _ _ _) (Dev.Reported.refl _)
  exact ((h.trans h1).trans h2).trans h3

/-- Everything that a report does lies in the objects' values, the log, FAULT_N, what stands, and what is sent. -/
theorem report_reported (d : Dev) (cls code inst detail : Nat) : Dev.Reported d (report d cls code inst detail) :=
  reportL_reported d cls code inst detail false

@[simp] theorem report_time (d : Dev) (cls code inst detail : Nat) : (report d cls code inst detail).time = d.time :=
  (report_reported d cls code inst detail).time
@[simp] theorem report_fwd (d : Dev) (cls code inst detail : Nat) : (report d cls code inst detail).fwd = d.fwd :=
  (report_reported d cls code inst detail).fwd
@[simp] theorem report_endpoints (d : Dev) (cls code inst detail : Nat) : (report d cls code inst detail).endpoints = d.endpoints :=
  (report_reported d cls code inst detail).endpoints
@[simp] theorem report_chans (d : Dev) (cls code inst detail : Nat) : (report d cls code inst detail).chans = d.chans :=
  (report_reported d cls code inst detail).chans
@[simp] theorem report_groups (d : Dev) (cls code inst detail : Nat) : (report d cls code inst detail).groups = d.groups :=
  (report_reported d cls code inst detail).groups
@[simp] theorem report_setup (d : Dev) (cls code inst detail : Nat) : (report d cls code inst detail).setup = d.setup :=
  (report_reported d cls code inst detail).setup
@[simp] theorem report_queues (d : Dev) (cls code inst detail : Nat) : (report d cls code inst detail).queues = d.queues :=
  (report_reported d cls code inst detail).queues
@[simp] theorem report_oa (d : Dev) (cls code inst detail : Nat) : (report d cls code inst detail).oa = d.oa :=
  (report_reported d cls code inst detail).oa
@[simp] theorem report_banks (d : Dev) (cls code inst detail : Nat) : (report d cls code inst detail).banks = d.banks :=
  (report_reported d cls code inst detail).banks
@[simp] theorem report_stk (d : Dev) (cls code inst detail : Nat) : (report d cls code inst detail).stk = d.stk :=
  (report_reported d cls code inst detail).stk
@[simp] theorem report_engines (d : Dev) (cls code inst detail : Nat) : (report d cls code inst detail).engines = d.engines :=
  (report_reported d cls code inst detail).engines
@[simp] theorem report_twin (d : Dev) (cls code inst detail : Nat) : (report d cls code inst detail).twin = d.twin :=
  (report_reported d cls code inst detail).twin
@[simp] theorem report_ev (d : Dev) (cls code inst detail : Nat) : (report d cls code inst detail).ev = d.ev :=
  (report_reported d cls code inst detail).ev
@[simp] theorem report_store (d : Dev) (cls code inst detail : Nat) : (report d cls code inst detail).store = d.store :=
  (report_reported d cls code inst detail).store
@[simp] theorem report_line (d : Dev) (cls code inst detail : Nat) : (report d cls code inst detail).line = d.line :=
  (report_reported d cls code inst detail).line
@[simp] theorem report_cans (d : Dev) (cls code inst detail : Nat) : (report d cls code inst detail).cans = d.cans :=
  (report_reported d cls code inst detail).cans
@[simp] theorem report_canAt (d : Dev) (cls code inst detail : Nat) : (report d cls code inst detail).canAt = d.canAt :=
  (report_reported d cls code inst detail).canAt
@[simp] theorem report_goa (d : Dev) (cls code inst detail : Nat) : (report d cls code inst detail).goa = d.goa :=
  (report_reported d cls code inst detail).goa
@[simp] theorem report_start (d : Dev) (cls code inst detail : Nat) : (report d cls code inst detail).start = d.start :=
  (report_reported d cls code inst detail).start
@[simp] theorem report_free (d : Dev) (cls code inst detail : Nat) : (report d cls code inst detail).free = d.free :=
  (report_reported d cls code inst detail).free
@[simp] theorem report_dict_staged (d : Dev) (cls code inst detail : Nat) :
    (report d cls code inst detail).dict.staged = d.dict.staged := (report_reported d cls code inst detail).staged
@[simp] theorem report_dict_commit (d : Dev) (cls code inst detail : Nat) :
    (report d cls code inst detail).dict.commit = d.dict.commit := (report_reported d cls code inst detail).commit
@[simp] theorem report_dict_epoch (d : Dev) (cls code inst detail : Nat) :
    (report d cls code inst detail).dict.epoch = d.dict.epoch := (report_reported d cls code inst detail).epoch
@[simp] theorem report_dict_units (d : Dev) (cls code inst detail : Nat) :
    (report d cls code inst detail).dict.units = d.dict.units := (report_reported d cls code inst detail).units
@[simp] theorem report_dict_sel (d : Dev) (cls code inst detail : Nat) :
    (report d cls code inst detail).dict.sel = d.dict.sel := (report_reported d cls code inst detail).sel
@[simp] theorem report_dict_abort (d : Dev) (cls code inst detail : Nat) :
    (report d cls code inst detail).dict.abort = d.dict.abort := (report_reported d cls code inst detail).abort
@[simp] theorem report_faults_blocks (d : Dev) (cls code inst detail : Nat) :
    (report d cls code inst detail).faults.blocks = d.faults.blocks := (report_reported d cls code inst detail).blocks
@[simp] theorem report_faults_quench (d : Dev) (cls code inst detail : Nat) :
    (report d cls code inst detail).faults.quench = d.faults.quench := (report_reported d cls code inst detail).quench
@[simp] theorem report_faults_quenchSup (d : Dev) (cls code inst detail : Nat) :
    (report d cls code inst detail).faults.quenchSup = d.faults.quenchSup := (report_reported d cls code inst detail).quenchSup
@[simp] theorem report_faults_pilot (d : Dev) (cls code inst detail : Nat) :
    (report d cls code inst detail).faults.pilot = d.faults.pilot := (report_reported d cls code inst detail).pilot
@[simp] theorem report_faults_hbArmed (d : Dev) (cls code inst detail : Nat) :
    (report d cls code inst detail).faults.hbArmed = d.faults.hbArmed := (report_reported d cls code inst detail).hbArmed
@[simp] theorem report_faults_hbLast (d : Dev) (cls code inst detail : Nat) :
    (report d cls code inst detail).faults.hbLast = d.faults.hbLast := (report_reported d cls code inst detail).hbLast
@[simp] theorem report_faults_hbLost (d : Dev) (cls code inst detail : Nat) :
    (report d cls code inst detail).faults.hbLost = d.faults.hbLost := (report_reported d cls code inst detail).hbLost

/-! ### Time passes -/

/-- Time that passes changes the clocks alone. -/
theorem passTime_time_only (d : Dev) (dt : Nat) : passTime d dt = { d with time := (passTime d dt).time } := by
  unfold passTime
  extract_lets t
  split <;> rfl

theorem passUntil_time_only (d : Dev) (due : Nat) : passUntil d due = { d with time := (passUntil d due).time } :=
  passTime_time_only d _

@[simp] theorem passTime_fwd (d : Dev) (dt : Nat) : (passTime d dt).fwd = d.fwd := by rw [passTime_time_only]
@[simp] theorem passUntil_fwd (d : Dev) (due : Nat) : (passUntil d due).fwd = d.fwd := by rw [passUntil_time_only]
@[simp] theorem passTime_endpoints (d : Dev) (dt : Nat) : (passTime d dt).endpoints = d.endpoints := by rw [passTime_time_only]
@[simp] theorem passUntil_endpoints (d : Dev) (due : Nat) : (passUntil d due).endpoints = d.endpoints := by rw [passUntil_time_only]
@[simp] theorem passTime_chans (d : Dev) (dt : Nat) : (passTime d dt).chans = d.chans := by rw [passTime_time_only]
@[simp] theorem passUntil_chans (d : Dev) (due : Nat) : (passUntil d due).chans = d.chans := by rw [passUntil_time_only]
@[simp] theorem passTime_groups (d : Dev) (dt : Nat) : (passTime d dt).groups = d.groups := by rw [passTime_time_only]
@[simp] theorem passUntil_groups (d : Dev) (due : Nat) : (passUntil d due).groups = d.groups := by rw [passUntil_time_only]
@[simp] theorem passTime_setup (d : Dev) (dt : Nat) : (passTime d dt).setup = d.setup := by rw [passTime_time_only]
@[simp] theorem passUntil_setup (d : Dev) (due : Nat) : (passUntil d due).setup = d.setup := by rw [passUntil_time_only]
@[simp] theorem passTime_queues (d : Dev) (dt : Nat) : (passTime d dt).queues = d.queues := by rw [passTime_time_only]
@[simp] theorem passUntil_queues (d : Dev) (due : Nat) : (passUntil d due).queues = d.queues := by rw [passUntil_time_only]
@[simp] theorem passTime_oa (d : Dev) (dt : Nat) : (passTime d dt).oa = d.oa := by rw [passTime_time_only]
@[simp] theorem passUntil_oa (d : Dev) (due : Nat) : (passUntil d due).oa = d.oa := by rw [passUntil_time_only]
@[simp] theorem passTime_banks (d : Dev) (dt : Nat) : (passTime d dt).banks = d.banks := by rw [passTime_time_only]
@[simp] theorem passUntil_banks (d : Dev) (due : Nat) : (passUntil d due).banks = d.banks := by rw [passUntil_time_only]
@[simp] theorem passTime_stk (d : Dev) (dt : Nat) : (passTime d dt).stk = d.stk := by rw [passTime_time_only]
@[simp] theorem passUntil_stk (d : Dev) (due : Nat) : (passUntil d due).stk = d.stk := by rw [passUntil_time_only]
@[simp] theorem passTime_engines (d : Dev) (dt : Nat) : (passTime d dt).engines = d.engines := by rw [passTime_time_only]
@[simp] theorem passUntil_engines (d : Dev) (due : Nat) : (passUntil d due).engines = d.engines := by rw [passUntil_time_only]
@[simp] theorem passTime_twin (d : Dev) (dt : Nat) : (passTime d dt).twin = d.twin := by rw [passTime_time_only]
@[simp] theorem passUntil_twin (d : Dev) (due : Nat) : (passUntil d due).twin = d.twin := by rw [passUntil_time_only]
@[simp] theorem passTime_ev (d : Dev) (dt : Nat) : (passTime d dt).ev = d.ev := by rw [passTime_time_only]
@[simp] theorem passUntil_ev (d : Dev) (due : Nat) : (passUntil d due).ev = d.ev := by rw [passUntil_time_only]
@[simp] theorem passTime_store (d : Dev) (dt : Nat) : (passTime d dt).store = d.store := by rw [passTime_time_only]
@[simp] theorem passUntil_store (d : Dev) (due : Nat) : (passUntil d due).store = d.store := by rw [passUntil_time_only]
@[simp] theorem passTime_line (d : Dev) (dt : Nat) : (passTime d dt).line = d.line := by rw [passTime_time_only]
@[simp] theorem passUntil_line (d : Dev) (due : Nat) : (passUntil d due).line = d.line := by rw [passUntil_time_only]
@[simp] theorem passTime_cans (d : Dev) (dt : Nat) : (passTime d dt).cans = d.cans := by rw [passTime_time_only]
@[simp] theorem passUntil_cans (d : Dev) (due : Nat) : (passUntil d due).cans = d.cans := by rw [passUntil_time_only]
@[simp] theorem passTime_canAt (d : Dev) (dt : Nat) : (passTime d dt).canAt = d.canAt := by rw [passTime_time_only]
@[simp] theorem passUntil_canAt (d : Dev) (due : Nat) : (passUntil d due).canAt = d.canAt := by rw [passUntil_time_only]
@[simp] theorem passTime_goa (d : Dev) (dt : Nat) : (passTime d dt).goa = d.goa := by rw [passTime_time_only]
@[simp] theorem passUntil_goa (d : Dev) (due : Nat) : (passUntil d due).goa = d.goa := by rw [passUntil_time_only]
@[simp] theorem passTime_start (d : Dev) (dt : Nat) : (passTime d dt).start = d.start := by rw [passTime_time_only]
@[simp] theorem passUntil_start (d : Dev) (due : Nat) : (passUntil d due).start = d.start := by rw [passUntil_time_only]
@[simp] theorem passTime_free (d : Dev) (dt : Nat) : (passTime d dt).free = d.free := by rw [passTime_time_only]
@[simp] theorem passUntil_free (d : Dev) (due : Nat) : (passUntil d due).free = d.free := by rw [passUntil_time_only]
@[simp] theorem passTime_dict (d : Dev) (dt : Nat) : (passTime d dt).dict = d.dict := by rw [passTime_time_only]
@[simp] theorem passUntil_dict (d : Dev) (due : Nat) : (passUntil d due).dict = d.dict := by rw [passUntil_time_only]
@[simp] theorem passTime_faults (d : Dev) (dt : Nat) : (passTime d dt).faults = d.faults := by rw [passTime_time_only]
@[simp] theorem passUntil_faults (d : Dev) (due : Nat) : (passUntil d due).faults = d.faults := by rw [passUntil_time_only]
@[simp] theorem passTime_out (d : Dev) (dt : Nat) : (passTime d dt).out = d.out := by rw [passTime_time_only]
@[simp] theorem passUntil_out (d : Dev) (due : Nat) : (passUntil d due).out = d.out := by rw [passUntil_time_only]

end Sys2Proof.Machine
end

