-- ==== Sys2Proof/Laws/Time.lean ====
section
/-! SUPPORT. What the operations of the time unit leave alone: slots, selection and times under a change of NetworkTimeState, a
selection, a lock, a step of network time, and the passing of time (R24 to R36). -/
namespace Sys2Proof.Machine

/-- NetworkTimeState changes (Table 2.5): times, slots and the selection stay. -/
@[simp] theorem setNetState_shape (d : Dev) (st : Nat) : (setNetState d st).time.state = st ∧ (setNetState d st).time.slots = d.time.slots ∧
    (setNetState d st).time.selected = d.time.selected ∧ (setNetState d st).time.slew = d.time.slew ∧ (setNetState d st).time.awaits = d.time.awaits
    ∧ (setNetState d st).time.net = d.time.net ∧ (setNetState d st).time.gen = d.time.gen ∧ (setNetState d st).time.media = d.time.media
    ∧ (setNetState d st).time.mediaLocked = d.time.mediaLocked ∧ (setNetState d st).dict.abort = d.dict.abort := by
  unfold setNetState
  split
  · simp_all
  · extract_lets d1 d2
    have : d2 = d1 ∨ ∃ c x, d2 = onTime x (fun t => { t with dacCode := c }) ∧ x = { d1 with free := d1.free + 1 } := by
      simp only [d2]; split
      · right; exact ⟨_, _, rfl, rfl⟩
      · left; rfl
    rcases this with h | ⟨c, x, h, hx⟩
    · rw [h]; simp [steerHold, onTime, d1]
    · rw [h, hx]; simp [steerHold, onTime, d1]

/-- A slot after one is written. -/
theorem slotAt_set (d : Dev) (i j : Nat) (x : TimeSlot) (h : i < d.time.slots.length) : slotAt (setSlot d i x) j = if j = i then x else slotAt d j := by
  simp only [slotAt, setSlot, onTime]
  split
  · subst j; simp [List.getD, h]
  · rename_i g; simp [List.getD, show ¬ i = j by omega]

/-- A slot is read from the list of slots alone. -/
theorem slotAt_congr (d e : Dev) (i : Nat) (h : d.time.slots = e.time.slots) : slotAt d i = slotAt e i := by simp [slotAt, h]

/-- Entering HOLDOVER (R34). -/
@[simp] theorem enterHoldover_shape (d : Dev) (a : Bool) : (enterHoldover d a).time.state = 4 ∧ (enterHoldover d a).time.slots = d.time.slots ∧
   (enterHoldover d a).time.selected = d.time.selected ∧ (enterHoldover d a).time.slew = 0 ∧ (enterHoldover d a).time.awaits = a ∧ (enterHoldover d a).dict.abort = d.dict.abort := by
  simp [enterHoldover, onTime]

/-- A slot selected by a slew (R24, R25). -/
@[simp] theorem selectSlew_shape (d : Dev) (i : Nat) : (selectSlew d i).time.state = 2 ∧ (selectSlew d i).time.slots = d.time.slots.set i { slotAt d i with base := (slotAt d i).offset } ∧
   (selectSlew d i).time.selected = i ∧ (selectSlew d i).time.slew = (slotAt d i).offset ∧ (selectSlew d i).time.awaits = false
   ∧ (selectSlew d i).time.net = d.time.net ∧ (selectSlew d i).time.gen = d.time.gen ∧ (selectSlew d i).dict.abort = d.dict.abort := by
  simp [selectSlew, onTime, setSlot]

/-- Re-selection answers no dictionary access. -/
@[simp] theorem reselect_abort (d : Dev) : (reselect d).dict.abort = d.dict.abort := by
  unfold reselect; dsimp only; split
  · split <;> simp
  · rfl

/-- Re-selection leaves the state of every slot. -/
theorem reselect_slots (d : Dev) (j : Nat) : (slotAt (reselect d) j).state = (slotAt d j).state ∧ (slotAt (reselect d) j).agree = (slotAt d j).agree := by
  unfold reselect; dsimp only; split
  · split
    · rw [slotAt, selectSlew_shape .. |>.2.1]
      rw [List.getD, List.getElem?_set]
      split
      · rename_i h; split
        · subst h; simp 
        · subst h; simp [slotAt, List.getD]; 
          rename_i g; rw [List.getElem?_eq_none (by omega)]; simp
      · exact ⟨rfl, rfl⟩
    · simp [slotAt]
  · exact ⟨rfl, rfl⟩

/-- Locking a slot answers no dictionary access. -/
@[simp] theorem lockSlot_abort (d : Dev) (i : Nat) : (lockSlot d i).dict.abort = d.dict.abort := by
  unfold lockSlot; rw [reselect_abort]; rfl

/-- A slot that is locked is LOCKED (Table 2.4). -/
theorem lockSlot_state (d : Dev) (i : Nat) (h : i < d.time.slots.length) : (slotAt (lockSlot d i) i).state = 2 ∧ (slotAt (lockSlot d i) i).agree = none := by
  unfold lockSlot; rw [(reselect_slots _ _).1, (reselect_slots _ _).2, slotAt_set _ _ _ _ h]; simp

/-- Time that passes leaves the slots. -/
@[simp] theorem advance_slots (t : TimeUnit) (a b : Nat) : (t.advance a b).slots.length = t.slots.length := by
  simp only [TimeUnit.advance, moveTime]; split <;> simp

/-- Media time that passes leaves the slots. -/
@[simp] theorem advanceMedia_slots (t : TimeUnit) (a b : Nat) : (t.advanceMedia a b).slots.length = t.slots.length := by
  simp only [TimeUnit.advanceMedia, moveTime]; split <;> simp

/-- The device's slots after time has passed. -/
@[simp] theorem passTime_slots (d : Dev) (b : Nat) : (passTime d b).time.slots.length = d.time.slots.length := by
  unfold passTime; dsimp only; split
  · exact advanceMedia_slots ..
  · exact advance_slots ..

/-- What a step of network time does to one trigger unit leaves times and slots (R36). -/
theorem stepTrigger_slots (a : Nat) (d : Dev) (k : Nat) : (stepTrigger a d k).time.slots = d.time.slots ∧ (stepTrigger a d k).time.net = d.time.net
   ∧ (stepTrigger a d k).time.gen = d.time.gen ∧ (stepTrigger a d k).time.slew = d.time.slew ∧ (stepTrigger a d k).time.media = d.time.media
   ∧ (stepTrigger a d k).time.mediaLocked = d.time.mediaLocked ∧ (stepTrigger a d k).dict.abort = d.dict.abort := by
  unfold stepTrigger; dsimp only; repeat' split
  all_goals (refine ⟨rfl, rfl, rfl, rfl, rfl, rfl, rfl⟩)

/-- The same for every unit. -/
theorem stepTriggers_slots (a : Nat) (l : List Nat) (d : Dev) : (l.foldl (stepTrigger a) d).time.slots = d.time.slots ∧ (l.foldl (stepTrigger a) d).time.net = d.time.net
   ∧ (l.foldl (stepTrigger a) d).time.gen = d.time.gen ∧ (l.foldl (stepTrigger a) d).time.slew = d.time.slew ∧ (l.foldl (stepTrigger a) d).time.media = d.time.media
   ∧ (l.foldl (stepTrigger a) d).time.mediaLocked = d.time.mediaLocked ∧ (l.foldl (stepTrigger a) d).dict.abort = d.dict.abort := by
  induction l generalizing d with
  | nil => simp
  | cons k l ih => simp only [List.foldl_cons]; have := ih (stepTrigger a d k); have h2 := stepTrigger_slots a d k; simp_all

end Sys2Proof.Machine
end

