-- ==== Sys2Proof/Machine/Cells.lean ====
section
/-! DEFINITION. The overhead of a cell (Table 9.1), as the queue that holds it makes it. -/
namespace Sys2Proof.Machine

/-- Even parity of `n` bits of a number from bit `off` on. -/
def evenParity (v off n : Nat) : Nat := popCount n (bitsAt v off n) % 2

/-- WordParity of 128 bytes, 64-bit word by word, with the words whose parity has gone bad. -/
def wordParity (data bad : Nat) : Nat :=
  (List.range 16).foldr (fun w acc => ((evenParity data (64 * w) 64 + b2n (bad.testBit w)) % 2) * 2 ^ w + acc) 0

/-- HeaderParity over bits 123:93, 92:62, 61:31 and 30:0, in that order from bit 127. -/
def headerParity (v : Nat) : Nat :=
  evenParity v 93 31 * 8 + evenParity v 62 31 * 4 + evenParity v 31 31 * 2 + evenParity v 0 31

/-- The overhead of cell k of a BLOCK item (Table 9.1), `next` being the cell that follows it in its queue. A header whose parity fails
differs from what is made here in a way that the spec leaves open. -/
def cellOverhead (i : QItem) (k next : Nat) : Nat :=
  let last := decide (k + 1 = i.cells)
  let v := setF (setF (setF 0 CellHdr.itemLength (if k = 0 then i.data.len else 0)) CellHdr.cellLength
    (if last then i.data.len - 128 * k else 128)) CellHdr.start (b2n (decide (k = 0)))
  let v := setF (setF (setF v CellHdr.end_ (b2n last)) CellHdr.next next) CellHdr.wordPoison (bitsAt i.poison (16 * k) 16)
  let v := setF v CellHdr.wordParity (wordParity (sliceBytes i.data.val (128 * k) 128) (bitsAt i.badPar (16 * k) 16))
  setF v CellHdr.headerParity (headerParity v)

/-- The cells of queue q from its head to its tail, by number (R190). -/
def queueCells (d : Dev) (q : Nat) : List Nat := (cellChain (queueOf d q)).map (fun c => Config.cellNumber c.1)

/-- Next of the n-th cell of queue q: the number of the cell after it, undefined in the tail cell. -/
def nextCell (d : Dev) (q n : Nat) : Nat :=
  match (queueCells d q)[n + 1]? with
  | some c => c
  | none => Config.tailNext ((queueCells d q).getD n 0)

end Sys2Proof.Machine
end

