-- ==== Sys2Proof/Machine/Pins.lean ====
section
/-! DEFINITION. The ball assignment of the package (R328 to R332): what stands on the ball at a row index and a column. -/
namespace Sys2Proof.Machine

/-- The row letters, from row index 1 (Table 17.2). -/
def rowLetters : List String :=
  ["A", "B", "C", "D", "E", "F", "G", "H", "J", "K", "L", "M", "N", "P", "T", "U", "V", "W", "Y",
   "AA", "AB", "AC", "AD", "AE", "AF", "AG", "AH", "AJ", "AK", "AL", "AM", "AN", "AP", "AT", "AU", "AV", "AW", "AY",
   "BA", "BB", "BC", "BD", "BE", "BF", "BG", "BH", "BJ", "BK", "BL", "BM", "BN", "BP", "BT", "BU"]

/-- What a ball carries. A rail has its number of Table 16.1. -/
inductive Pad where
  | lane (n : Nat) (transmit positive : Bool)
  | ddr (c k : Nat)
  | pcieClock (r : Nat) (positive : Bool)
  | pcieLane (r j : Nat) (transmit positive : Bool)
  | perst (r : Nat) | clkreq (r : Nat)
  | line (i : Nat) (transmit positive : Bool)
  | signal (name : String)
  | rail (n : Nat) | vss | vssa
  deriving DecidableEq, Repr

/-- The singular signals of one row, from column 14 (Table 17.5). -/
def singularRow : Nat → List String
  | 8 => ["STRAP_NODE_0", "STRAP_NODE_1", "STRAP_NODE_2", "STRAP_NODE_3", "STRAP_NODE_4", "STRAP_NODE_5", "STRAP_NODE_6",
          "STRAP_TIER_0", "STRAP_TIER_1", "STRAP_BOOT_0", "STRAP_BOOT_1", "STRAP_TWIN_0", "STRAP_TWIN_1", "STRAP_LINE_0", "STRAP_LINE_1",
          "RESET_N", "PILOT", "FAULT_N", "TCK", "TMS", "TDI", "TDO", "TRST_N", "AVS_CLK", "AVS_MDATA", "AVS_SDATA", "CAN_0_TX", "CAN_0_RX"]
  | 9 => ["CAN_1_TX", "CAN_1_RX", "QSPI_CLK", "QSPI_CS_N", "QSPI_IO_0", "QSPI_IO_1", "QSPI_IO_2", "QSPI_IO_3", "MGMT_MDC", "MGMT_MDIO",
          "MGMT_TXC", "MGMT_TX_CTL", "MGMT_TXD_0", "MGMT_TXD_1", "MGMT_TXD_2", "MGMT_TXD_3", "MGMT_RXC", "MGMT_RX_CTL",
          "MGMT_RXD_0", "MGMT_RXD_1", "MGMT_RXD_2", "MGMT_RXD_3"]
  | 10 => ["TIME_OUT_0", "TIME_OUT_1", "TIME_OUT_2", "TIME_OUT_3", "TIME_OUT_4", "TIME_OUT_5", "TIME_OUT_6", "TIME_OUT_7",
           "TIME_IN_0", "TIME_IN_1", "TIME_IN_2", "TIME_IN_3", "PPS_IN", "PPS_OUT", "REF10M_IN", "OSC_IN", "SYNC_CONV"]
  | _ => []

/-- The other singular signals (Table 17.5). -/
def singularOther (r c : Nat) : Option String :=
  match r, c with
  | 3, 1 => some "SD_REFCLK_0P"
  | 3, 2 => some "SD_REFCLK_0N"
  | 52, 1 => some "SD_REFCLK_1P"
  | 52, 2 => some "SD_REFCLK_1N"
  | 38, 26 => some "LINE_VREF_C"
  | 38, 28 => some "HOLD_DAC_OUT"
  | _, _ => none

/-- A singular signal, by row index and column. -/
def singular (r c : Nat) : Option Pad :=
  (if 14 ≤ c then (singularRow r)[c - 14]?.or (singularOther r c) else singularOther r c).map Pad.signal

/-- A SerDes ball of row r: `base` the first lane of its rows (Table 17.3). -/
def lanePad (base c : Nat) (transmit : Bool) : Option Pad :=
  if c < 4 ∨ 51 < c then none
  else
    match (c - 4) % 3 with
    | 0 => some (.lane (base + (c - 4) / 3) transmit true)
    | 1 => some (.lane (base + (c - 4) / 3) transmit false)
    | _ => some .vss

/-- A ball of a DDR5 channel: its row from the block's first row, its column counted from the package's edge (Table 17.3). -/
def ddrPad (ch row col : Nat) : Option Pad :=
  let k := 9 * row + col
  if 17 ≤ row ∨ 9 ≤ col then none else if k < 147 then some (.ddr ch k) else some .vss

/-- A ball of PCIe port p, its column counted from the package's edge (Table 17.3). -/
def pciePad (p r e : Nat) : Option Pad :=
  if e = 2 ∨ e = 3 then
    if r = 25 then some (.pcieClock p (decide (e = 2)))
    else if 26 ≤ r ∧ r < 30 then some (.pcieLane p (r - 26) true (decide (e = 2)))
    else if r = 30 then some (if e = 2 then .perst p else .clkreq p)
    else none
  else if (e = 5 ∨ e = 6) ∧ 26 ≤ r ∧ r < 30 then some (.pcieLane p (r - 26) false (decide (e = 5)))
  else none

/-- A ball of a line port (Table 17.3). -/
def linePad (r c : Nat) : Option Pad :=
  if 39 ≤ r ∧ r < 47 ∧ 12 ≤ c ∧ c < 44 then
    some (.line ((r - 39) / 2 * 16 + (c - 12) / 2) (decide ((r - 39) % 2 = 1)) (decide (c % 2 = 0)))
  else none

/-- A ball of the signal groups (R329 to R331), or none. -/
def signalPad (r c : Nat) : Option Pad :=
  let lanes :=
    match r with
    | 1 => lanePad 0 c true
    | 4 => lanePad 0 c false
    | 54 => lanePad 16 c true
    | 51 => lanePad 16 c false
    | _ => none
  let ddr :=
    if 8 ≤ r ∧ r < 25 then (ddrPad 0 (r - 8) (c - 1)).or (ddrPad 1 (r - 8) (54 - c))
    else if 31 ≤ r ∧ r < 48 then (ddrPad 2 (r - 31) (c - 1)).or (ddrPad 3 (r - 31) (54 - c))
    else none
  lanes.or (ddr.or ((pciePad 0 r c).or ((pciePad 1 r (55 - c)).or ((linePad r c).or (singular r c)))))

/-- Whether a number lies in a range, both ends included. -/
def within (lo hi n : Nat) : Bool := decide (lo ≤ n) && decide (n ≤ hi)

/-- A supply or ground ball (R332, Table 17.6). -/
def supplyPad (r c : Nat) : Pad :=
  let core := within 11 44 c && decide ((r + c) % 2 = 0)
  let edge := decide (c = 10) || decide (c = 45)
  if within 13 35 r && core then .rail 0
  else if (within 11 12 r || within 36 37 r) && core then .rail 1
  else if (decide (r = 6) || decide (r = 49)) && within 4 51 c && decide (c % 4 < 2) then .rail 2
  else if (decide (r = 6) || decide (r = 49)) && within 4 51 c && decide (c % 4 = 2) then .rail 3
  else if edge && within 25 30 r then .rail 4
  else if edge && (within 8 24 r || within 31 47 r) then .rail 5
  else if within 8 10 r && within 11 13 c then .rail 6
  else if within 8 10 r && within 42 44 c then .rail 7
  else if decide (r = 48) && within 12 27 c then .rail 8
  else if decide (r = 48) && within 28 43 c then .rail 9
  else if ((decide (r = 38) || decide (r = 47)) && within 11 44 c) || (within 39 46 r && (decide (c = 11) || decide (c = 44))) then .vssa
  else .vss

/-- The ball at a row index and a column, each 1 to 54. -/
def padAt (r c : Nat) : Pad := (signalPad r c).getD (supplyPad r c)

/-- Balls of one row that carry what `p` tells. -/
def rowBalls (p : Pad → Bool) (r : Nat) : Nat := ((List.range 54).filter (fun i => p (padAt r (i + 1)))).length

/-- Balls of the package that carry what `p` tells. -/
def balls (p : Pad → Bool) : Nat := ((List.range 54).map (fun i => rowBalls p (i + 1))).foldl (· + ·) 0

/-- Whether a ball carries a signal. -/
def Pad.isSignal : Pad → Bool
  | .rail _ => false
  | .vss => false
  | .vssa => false
  | _ => true

end Sys2Proof.Machine
end

