-- ==== Sys2Proof/Tests/Slice0.lean ====
section
/-! SUPPORT. The model's own tests: an ill-formed command for each check of WellFormed, values worked out in the spec, single
steps, and for each statement that has hypotheses a theorem that shows a state and operands which meet them. -/
namespace Sys2Proof.Tests
-- One proof after another: side by side they would hold too many threads at once.
set_option Elab.async false
open Sys2Proof Sys2Proof.Machine

/-! ### Small states -/

/-- A context whose register n holds v. -/
def withReg (c : Ctx) (n : BitVec 5) (v : Word) : Ctx := c.setReg n v false
/-- Straps of a FULL, solo device with node 5. -/
def straps : Straps := ⟨5, 0, 0, 0, 0⟩
/-- A device that runs: RESET_N high, Ready, monitors armed. -/
def dev : Dev :=
  { Dev.reset with start := { Start.reset with straps := straps, state := 1, step := 12, kind := 1, ready := true, due := none,
                                               resetLow := false, armed := true, dramGiB := 32 } }
/-- A state around a device. -/
def st (d : Dev) : State := { pending := [], sys := { mem := Mem.reset, dev := d } }
/-- A thread at level 3 on engine 0, running from 0x100, with all of local memory as its window. -/
def tcb : Tcb :=
  { state := 3, entryPc := 0x100, channel := 0xFFFFFFFF, cost := 10, lmWindow := 0x4000, mask := 3, home := 0, prio := 3, releases := 0,
    waitMask := 16, flags := 0, relDl := 0, misses := 0, dispatches := 0, preempts := 0, dlTick := 0, dlOff := 0, ctx := Ctx.reset,
    release := none, missed := false, hold := none, move := none, via := none, behind := false }
/-- A device on whose engine 0 thread 5 runs with context c. -/
def running (c : Ctx) : Dev :=
  { dev with engines := [(0, { EngineSt.reset with thread := some 5, ctx := c })], stk := { dev.stk with tcbs := [(5, tcb)] } }
/-- The context of most tests: local memory wholly in its window. -/
def ctx : Ctx := { Ctx.reset with lmwin := 0x4000 }
/-- What the engine tests start from. -/
def eng (c : Ctx) : State := st (running c)
/-- What a command answers, where it answers a next state. -/
def after (i : Instr) (s : State) : Option Dev := match exec i s with
  | .next t => some t.sys.dev
  | _ => none
/-- A Stoker record, an access header, a byte too many, and other operands. -/
def rec0 : StokerRec :=
  { cost := 10, entryPc := 0x200, lmWindow := 0x4000, mask := 1, flags := 0, prio := 4, target := 0, relDl := 0, waitMask := 16, thread := 9,
    reserved := false }
/-- A setup record with a one-byte body. -/
def setup0 : SetupRec := ⟨1, 1, 3, 10, 7, ⟨1, 5⟩⟩
/-- A datagram head of session 9. -/
def head0 : GoaHead := { seq := 4, session := 9, keyId := 0, tagOk := true, good := true }
/-- What a write meets outside where all unwraps. -/
def out0 : Outside := ⟨0, false, false⟩
/-- A start that meets nothing wrong and finds no store. -/
def world0 : StartWorld :=
  { fail := none, lanes := 0, temps := [400, 400, 400, 400, 400, 400], main := ⟨⟨0, 0⟩, false⟩, recovery := ⟨⟨0, 0⟩, false⟩, flash := 0,
    drams := [8, 8, 8, 8], imageOk := true, indexOk := true, ddrOk := true, ms := 0,
    scan := { names := [], held := [], partial_ := [], linear := false, breaks := 0, ms := 0 } }

/-! ### WellFormed: a command that each check refuses -/

theorem test_wellFormed_numbers :
    (Instr.acsum 192).wellFormed = false ∧ (Instr.dispatch 12).wellFormed = false ∧ (Instr.egressFrameTx 32).wellFormed = false ∧
    (Instr.pauseExpiry 0 8).wellFormed = false ∧ (Instr.slotLost 2).wellFormed = false ∧ (Instr.captureRecordsRead 5).wellFormed = false ∧
    (Instr.laneGroupModeWrite 8 0).wellFormed = false ∧ (Instr.lifeCheckTx 16).wellFormed = false ∧
    (Instr.flowKeyWrite 262144 0).wellFormed = false ∧ (Instr.flueCreditMismatch 24).wellFormed = false ∧
    (Instr.deadlineMiss 131072).wellFormed = false ∧ (Instr.evidenceBlockClose 65536).wellFormed = false ∧
    (Instr.compressorJobStart 4).wellFormed = false ∧ (Instr.queueReset 262144).wellFormed = false ∧
    (Instr.oaRoundClose 8704 0).wellFormed = false ∧ (Instr.previousKeyExpiry 1048576).wellFormed = false ∧
    (Instr.overTemperature 6 0).wellFormed = false ∧ (Instr.railOutOfRange 10).wellFormed = false ∧
    (Instr.recalibrateNow 64).wellFormed = false ∧ (Instr.sealJob 16).wellFormed = false ∧ (Instr.tpdoEventTimer 4).wellFormed = false ∧
    (Instr.faultReport 5 0 0 0).wellFormed = false ∧ (Instr.faultReport 0 0 16777216 0).wellFormed = false ∧
    (Instr.blockTimeout 0).wellFormed = false ∧ (Instr.blockTimeout 4294967296).wellFormed = false ∧
    (Instr.create (some 12) rec0).wellFormed = false ∧ (Instr.blockResetEnd 1 32).wellFormed = false ∧
    (Instr.blockResetEnd 9 0).wellFormed = false := by decide

theorem test_wellFormed_records :
    (Instr.firmwareLoadData ⟨1, 256⟩).wellFormed = false ∧ (Instr.create none { rec0 with prio := 256 }).wellFormed = false ∧
    (Instr.channelOpen { setup0 with kind := 256 }).wellFormed = false ∧
    (Instr.channelOpen { setup0 with body := ⟨0, 1⟩ }).wellFormed = false ∧
    (Instr.blockEnd { head0 with keyId := 4294967296 } out0).wellFormed = false ∧
    (Instr.coldStart { straps with tier := 4 } world0).wellFormed = false ∧
    (Instr.coldStart straps { world0 with drams := [65, 8, 8, 8] }).wellFormed = false ∧
    (Instr.objectWrite 0 65536 0 0 ⟨1, 0⟩ out0).wellFormed = false ∧
    (Instr.objectWrite 0 0 256 0 ⟨1, 0⟩ out0).wellFormed = false := by decide

theorem test_wellFormed_accepts :
    (Instr.create (some 11) rec0).wellFormed = true ∧ (Instr.channelOpen setup0).wellFormed = true ∧
    (Instr.blockEnd head0 out0).wellFormed = true ∧ (Instr.coldStart straps world0).wellFormed = true ∧
    (Instr.blockResetEnd 1 31).wellFormed = true := by decide

/-! ### Values that the spec works out -/

/-- The nine ASCII bytes "123456789". -/
def nine : Bytes := ⟨9, 0x393837363534333231⟩

/-- Table 12.1, column Check. -/
theorem test_checkValues : crcOf 0 nine = 0xE3069283 ∧ crcOf 1 nine = 0xCBF43926 ∧ crcOf 2 nine = 0x6C40DF5F0B497347 ∧
    crcOf 3 nine = 0x906E := by decide +kernel

/-- Table 13.2: settling counts and group delays (ns) of the four presets. -/
theorem test_presets :
    (List.range 4).map (fun k => settlingOf (presetL k) (presetK k) (presetM k)) = [34, 34, 34, 33] ∧
    (List.range 4).map (fun k => rateOfLM (presetL k) (presetM k)) = [8000, 16000, 48000, 96000] ∧
    (List.range 4).map (fun k => (groupDelayOf (presetL k) (presetK k) (presetM k) + 5) / 10) = [203292, 101730, 34030, 16850] := by
  decide

/-- Table 9.2: the ranges of the queues, at their ends. -/
theorem test_queueKinds : [0, 65535, 65536, 131071, 131072, 196607, 196608, 196863, 196864, 197631, 197632, 253439, 253440, 261631,
    261632].map queueKind = [0, 0, 1, 1, 2, 2, 3, 3, 4, 4, 5, 5, 6, 6, 7] := by decide

/-- R97: a cross-fade gain, R204: a sample of −1 divided by 2 and truncated toward zero is 0, one of −3 is −1. -/
theorem test_fade : fadeSample 1 (-1) = 0 ∧ fadeSample 1 (-3) = -1 ∧ fadeSample 2 1000 = 250 ∧ fadeSample 16 32767 = 0 := by decide

/-- R228: residual of a ramp is zero after its first two samples, and wraps at 16 bits. -/
theorem test_residuals : residuals 0 0 [5, 10, 15, 20] = [5, 0, 0, 0] ∧ residuals 32767 0 [-32768] = [-32766] := by decide

/-- R164: member sums saturate one at a time. -/
theorem test_addSat : (addSat 32 [2147483647, -2147483648] [1, -1]).1 = [2147483647, -2147483648] ∧
    (addSat 64 [2147483647] [1]).1 = [2147483648] := by decide

/-- R124, R125: a circular step back, and a bit-reversed step over a table of 8. -/
theorem test_nextOffset : nextOffset 8 false 0 (-2) = 6 ∧ nextOffset 0 false 0 (-2) = 262142 ∧
    nextOffset 8 true 0 4 = 4 ∧ nextOffset 8 true 4 4 = 2 := by decide

/-- Table 16.4: the strap word. -/
theorem test_strapWord : strapWordOf ⟨5, 2, 1, 2, 3⟩ = 5 + 2 * 128 + 512 + 2 * 2048 + 3 * 8192 := by decide

/-- Table 17.6 and the line after it: the balls of each supply, of the grounds and of the signals. -/
theorem test_balls :
    (List.range 10).map (fun n => balls (fun p => decide (p = .rail n))) = [391, 68, 48, 24, 12, 68, 9, 9, 16, 16] ∧
    balls (fun p => decide (p = .vssa)) = 82 ∧ balls (fun p => decide (p = .vss)) = 1088 ∧ balls Pad.isSignal = 1085 := by
  decide +kernel

/-- R99: the generator's first steps from 1, bit 0 being fed from bits 31, 21, 1 and 0. -/
theorem test_lfsr : [1, 2, 4, 0x80000000, 0x200000].map lfsrStep = [3, 5, 8, 1, 0x400001] := by decide

/-- RFC 1071's worked example: the words 0001, f203, f4f5, f6f7 sum to ddf2. -/
theorem test_checksum : 65535 - checksumOf (wordSum [0, 1, 0xF2, 3, 0xF4, 0xF5, 0xF6, 0xF7]) = 0xDDF2 := by decide

/-- R190, R192: eight items of a WORD queue share a cell; a block of 1,024 bytes takes eight. -/
theorem test_cells : (plainItem ⟨1024, 0⟩).cells = 8 ∧ (plainItem ⟨1, 0⟩).cells = 1 ∧ (plainItem ⟨129, 0⟩).cells = 2 := by decide

/-! ### Single steps -/

/-- R130: ADD wraps at 64 bits and ADD.S saturates (Table 6.9). -/
theorem test_add_wraps :
    ((after (.add 0 3 1 2) (eng (withReg (withReg ctx 1 0x7FFFFFFFFFFFFFFF) 2 1))).map (fun d => (engineOf d 0).ctx.reg 3)) =
      some 0x8000000000000000 ∧
    ((after (.addS 0 3 1 2) (eng (withReg (withReg ctx 1 0x7FFFFFFFFFFFFFFF) 2 1))).map (fun d => ((engineOf d 0).ctx.reg 3, (engineOf d 0).ctx.stF St.sat))) =
      some (0x7FFFFFFFFFFFFFFF, 1) := by decide +kernel

/-- R130: division by zero and of the most negative value by −1 saturate. -/
theorem test_div_corners :
    ((after (.div 0 3 1 2) (eng (withReg ctx 1 5))).map (fun d => (engineOf d 0).ctx.reg 3)) = some 0x7FFFFFFFFFFFFFFF ∧
    ((after (.div 0 3 1 2) (eng (withReg (withReg ctx 1 0x8000000000000000) 2 (-1)))).map (fun d => (engineOf d 0).ctx.reg 3)) =
      some 0x7FFFFFFFFFFFFFFF := by decide +kernel

/-- Table 6.1: G0 ignores writes. -/
theorem test_zero_register : ((after (.addi 0 0 0 7) (eng ctx)).map (fun d => ((engineOf d 0).ctx.reg 0, (engineOf d 0).ctx.pc))) = some (0, 4) := by
  decide +kernel

/-- An empty queue idles, and the command in front is the one that runs. -/
theorem test_step_front : step (st dev) = .next (st dev) ∧
    step { st dev with pending := [.mgmtLinkChange 3, .discard] } = exec (.mgmtLinkChange 3) { st dev with pending := [.discard] } :=
  ⟨rfl, rfl⟩

/-- The table gives no row bits, so no word spells a command. -/
theorem test_no_words : decodeTableWord 32 0 = none ∧ (State.withFetchWord (st dev) 32 0) = st dev := ⟨rfl, rfl⟩

/-- R325: REKINDLE outside the banked state is refused 0x0800_0022. -/
theorem test_rekindle_refused : (after .rekindle (st dev)).map (fun d => d.dict.abort) = some 0x08000022 := by decide +kernel

/-- R298: a report on a compressor that is powered resets it, and asserts FAULT_N. -/
theorem test_compressor_reset : (after (.faultReport 3 0x0920 1 0) (st dev)).map (fun d =>
    ((compUnit d 1).state, (blockSt d 3 1).phase, d.faults.faultN)) = some (4, 1, true) := by decide +kernel


/-! ### Witnesses: states and operands that meet what the statements assume, clause by clause -/

/-- Engine 0 with operations and copies in flight. -/
def flying (c : Ctx) (ops : List XOp) (copies : List XCopy) : State :=
  st { running c with engines := [(0, { EngineSt.reset with thread := some 5, ctx := c, ops := ops, copies := copies })] }
/-- A device on whose engine 0 thread 5 runs, queue q holding x, with every engine's hearth granted. -/
def queued (c : Ctx) (q : Nat) (x : Queue) (word : Bool) : State :=
  st (oset (oset { running c with queues := [(q, x)] } Obj.queueGrantMask q 0 0xFFF) Obj.itemMode q 0 (if word then 0 else 1))
/-- A load of plain DRAM, and a store to it. -/
def load0 : XOp := { kind := .load false 3, addr := 0x10020000000, thread := 5, poison := 0 }
def store0 : XOp := { kind := .store false 77, addr := 0x10020000000, thread := 5, poison := 0 }
/-- A load of the result slot of a round that has not closed. -/
def blocked : XOp := { kind := .load false 3, addr := 0x4C000000, thread := 5, poison := 0 }
/-- Engine 0 waits for such a load, of a round of context 8192 that takes part. -/
def waiting (o : XOp) : State :=
  st { (flying ctx [o] []).sys.dev with oa := [(8192, { OaCtx.empty with params := [(0, ⟨true, 1, 1, 1, 0⟩)] })] }
/-- A copy of one word out of plain DRAM. -/
def copy0 : XCopy := { tag := 7, into := true, ext := 0x10020000000, loc := 16, words := 1, thread := 5, left := [0] }
/-- An item of 16 bytes. -/
def item0 : QItem := plainItem ⟨16, 9⟩
/-- A push of item i to queue q and a pop of it, on their way to the queue manager. -/
def push0 (q : Nat) (word : Bool) (i : QItem) : XOp :=
  { kind := .push q word false i true, addr := queuePlace q, thread := 5, poison := 0 }
def pop0 (q : Nat) (rd : BitVec 5) : XOp := { kind := .pop q rd true, addr := queuePlace q, thread := 5, poison := 0 }
/-- The state with operations in flight on engine 0. -/
def onQueue (s : State) (ops : List XOp) : State := s.onDev (fun d => setEngine d 0 { engineOf d 0 with ops := ops })

/-- Nothing outstanding: what ScalarResults, ImmediateResults, SaturatingArithmetic, CountInstructions, ComparisonFlags,
StatusInstructions, AccumulatorConversions and every other statement about engine instructions start from. -/
theorem witness_Runs (c : Ctx) (needs : XOp → Bool) : Runs (eng c) 0 5 needs (eng c).sys := ⟨rfl, rfl⟩

theorem witness_ScalarResults : Runs (eng ctx) 0 5 (needRegs [3, 1, 2]) (eng ctx).sys := ⟨rfl, rfl⟩
theorem witness_ImmediateResults : Runs (eng ctx) 0 5 (needRegs [31, 0]) (eng ctx).sys := ⟨rfl, rfl⟩
theorem witness_SaturatingArithmetic : Runs (eng ctx) 0 5 (needRegs [0, 31, 0]) (eng ctx).sys := ⟨rfl, rfl⟩
theorem witness_CountInstructions : Runs (eng ctx) 0 5 (needRegs [3, 1]) (eng ctx).sys := ⟨rfl, rfl⟩
theorem witness_RegisterShifts :
    Runs (eng { ctx with gp := 4 }) 0 5 (needRegs [3, 1, 2]) (eng { ctx with gp := 4 }).sys ∧
    (ctxAt (eng { ctx with gp := 4 }).sys 0).psn 2 = true ∧ (ctxAt (eng ctx).sys 0).psn 2 = false := ⟨⟨rfl, rfl⟩, by decide⟩
theorem witness_ComparisonFlags : Runs (eng ctx) 0 5 (fun o => needRegs [1, 2] o || needFlags o) (eng ctx).sys ∧
    Runs (eng ctx) 0 5 (fun o => needRegs [1] o || needFlags o) (eng ctx).sys := ⟨⟨rfl, rfl⟩, rfl, rfl⟩
theorem witness_StatusInstructions : Runs (eng ctx) 0 5 needStatus (eng ctx).sys ∧ Runs (eng ctx) 0 5 (fun _ => false) (eng ctx).sys ∧
    (1 : BitVec 5).toNat < 2 := ⟨⟨rfl, rfl⟩, ⟨rfl, rfl⟩, by decide⟩
theorem witness_ScalarFrame : threadAt (eng ctx).sys.dev 0 = some 5 ∧ (engineOf (eng ctx).sys.dev 0).ops = [] ∧ (1 : Nat) ≠ 0 ∧
    (4 : BitVec 5) ≠ 3 := by decide
theorem witness_ZeroRegister : threadAt (eng ctx).sys.dev 0 = some 5 ∧ (engineOf (eng ctx).sys.dev 0).ops = [] := by decide
theorem witness_WaitForOperand :
    (performAll (fun o => decide (o.thread = 5) && needRegs [3, 1, 2] o) 0 (waiting blocked).sys).isNone = true ∧
    (performAll (fun o => decide (o.thread = 5) && (needRegs [1, 2] o || needFlags o)) 0
      (waiting { blocked with kind := .load false 1 }).sys).isNone = true ∧
    threadAt (waiting blocked).sys.dev 0 = some 5 := by decide +kernel
theorem witness_AddressRegisters :
    Runs (eng (withReg ctx 2 8)) 0 5 (needRegs [1, 2]) (eng (withReg ctx 2 8)).sys ∧
    ((withReg ctx 2 8).reg 2).toNat % 2 ^ 19 = 2 ^ 3 ∧ ctx.psn 1 = false ∧ { ctx with gp := 2 }.psn 1 = true ∧
    (∀ m < 20, ((withReg ctx 2 2).reg 2).toNat % 2 ^ 19 = 2 ^ m → m = 1) := ⟨⟨rfl, rfl⟩, by decide +kernel⟩
theorem witness_LocalLoad : localCheck ctx 3 0 2 1 = none ∧ localCheck ctx 30 7 3 1 = none ∧
    localCheck { ctx with a := ctx.a.set 0 262142 } 0 0 0 0 = none := by decide +kernel
theorem witness_LocalStore : localCheck ctx 3 0 1 0 = none ∧ (ctx.addrs 0 2).Nodup ∧ (ctx.addrs 0 (widthBytes 3)).Nodup := by
  decide +kernel
theorem witness_LocalTraps :
    (let c := { ctx with a := ctx.a.set 0 1 }; (c.base (c.cdsel 0) + c.offset 0) % 8 ≠ 0) ∧
    (let c := Ctx.reset; ∃ a ∈ c.addrs 0 8, ¬ (a < 0 + c.lmwin.toNat / 256 % 128 * 4096)) := by decide +kernel
theorem witness_PostModifyRules : (2 : Nat) ≤ 4 ∧ (4 : Nat) = 2 ^ 2 ∧ (3 : Nat) < 4 := by decide
theorem witness_MacResults : threadAt (eng ctx).sys.dev 0 = some 5 ∧ (vecReads (eng ctx).sys 0 0 1 8 8).isOk = true ∧
    (0x38 : BitVec 6).toNat % 8 = 0 ∧ (∀ p < 4, ctx.wide p = false) ∧
    (∀ p < 4, (ctx.setSt St.wmode 15).wide p = true) := by decide +kernel
theorem witness_ComplexAndButterfly : (vecReads (eng ctx).sys 0 0 1 8 8).isOk = true ∧ (0x3C : BitVec 6).toNat % 4 = 0 ∧
    (0x20 : BitVec 6).toNat % 32 = 0 ∧ (0 : BitVec 6).getLsbD 5 = false ∧
    (match vecReads (eng { ctx with a := ctx.a.set 1 32 }).sys 0 0 1 8 8 with
      | .ok r => decide (r.addrA ++ r.addrB).Nodup
      | .error _ => false) = true := by decide +kernel
theorem witness_AccumulatorSum : ctx.wide 0 = false ∧ (ctx.setSt St.wmode 15).wide 0 = true := by
  decide +kernel
theorem witness_AccumulatorConversions : ctx.localFault 0 8 = none ∧ (2 : BitVec 2) ≠ 3 := by decide +kernel
theorem witness_ExternalIssue : (let s := eng (withReg ctx 1 0x10020000000)
    ((ctxAt s.sys 0).reg 1).toNat % 16 = 0 ∧ mapped s.sys.dev 0 0x10020000000 16 .load = true ∧
    mapped s.sys.dev 0 0x10020000000 16 .store = true ∧ mapped s.sys.dev 0 0x10020000000 8 .atomic = true) := by decide +kernel
theorem witness_ExternalTraps : mapped (eng ctx).sys.dev 0 0 8 .load = false ∧ (0x100FFFF8 : Nat) % 8 = 0 ∧
    { ctx with gp := 2 }.psn 1 = true ∧ (31 : BitVec 5).toNat % 2 = 1 := by decide +kernel
theorem witness_ExternalPerformed : homeOf (flying ctx [load0] []).sys.dev 0 load0.addr = .mem 0x10020000000 ∧
    (engineOf (flying ctx [load0] []).sys.dev 0).ops = [load0] ∧ load0.queue = none ∧ Memory.wf (flying ctx [load0] []).sys.mem = true := by
  decide +kernel
theorem witness_StoreForwarding : homeOf (flying ctx [store0, load0] []).sys.dev 0 store0.addr = .mem 0x10020000000 ∧
    (engineOf (flying ctx [store0, load0] []).sys.dev 0).ops = [store0, load0] := by decide +kernel
theorem witness_Copies :
    (let s := flying ctx [] [copy0]
     mapped s.sys.dev 0 copy0.ext 16 .copyIn = true ∧ homeOf s.sys.dev 0 copy0.ext = .mem 0x10020000000 ∧ s.sys.mem.lmBad = [] ∧
     (engineOf s.sys.dev 0).copies = [copy0] ∧ (∀ i ∈ copy0.left, i < copy0.words) ∧ copy0.left.Nodup ∧ Memory.wf s.sys.mem = true) ∧
    (let c := withReg (withReg (withReg ctx 3 0x70001) 1 0x10020000000) 2 0x3FFF0
     (c.reg 3).toNat % 2 ^ 16 = 1 ∧ (c.reg 1).toNat % 16 = 0 ∧ c.inWindow (c.reg 2).toNat = true ∧
     c.inWindow ((c.reg 2).toNat + 16 - 1) = true) := by decide +kernel
theorem witness_Fences :
    (let s := st { running ctx with dict := { dev.dict with commit := some ⟨1, 9, []⟩ } }
     s.sys.dev.dict.commit = some ⟨1, 9, []⟩ ∧ (tcbOf s.sys.dev 5).map (·.move) = some none) ∧
    (performAll (fun o => o.queue.isNone) 0 (flying ctx [load0, store0] []).sys).isSome = true ∧
    (performAll XOp.isPush 0 (flying ctx [push0 197632 true item0] []).sys).isSome = true ∧ curTick (eng ctx).sys.dev < 1 ∧
    (0 : Nat) ≤ curTick (eng ctx).sys.dev := by decide +kernel
theorem witness_QueuePush :
    (let s := queued (withReg ctx 1 197632) 197632 Queue.empty true
     Runs s 0 5 (needRegs [1, 2, 3]) s.sys ∧ (ctxAt s.sys 0).psn 1 = false ∧
     bitSet (ogetN s.sys.dev Obj.queueGrantMask 197632 0) 0 = true ∧ (releaseAll 0 s.sys).isSome = true) ∧
    (let s := queued (withReg (withReg ctx 1 253439) 3 1024) 253439 Queue.empty false
     blockMore 3 0 s.sys (ctxAt s.sys 0) = none ∧ ((ctxAt s.sys 0).reg 3).toNat = 1024 ∧
     blockMore 3 0 s.sys (withReg (ctxAt s.sys 0) 3 1025) = none ∧ bitSet (ogetN s.sys.dev Obj.queueGrantMask 253439 0) 0 = true) ∧
    (let q := fun (word : Bool) (o : XOp) => onQueue (queued ctx 197632 Queue.empty word) [o]
     let d := (q true (push0 197632 true item0)).sys.dev
     threadAt d 0 = some 5 ∧ (engineOf d 0).ops = [push0 197632 true item0] ∧ (queueOf d 197632).isolated = false ∧
     ogetN d Obj.thresholdDepth 197632 0 = 0 ∧ isWord d 197632 = true ∧
     cellsHeld d 197632 + cellsNeeded d 197632 item0 ≤ ogetN d Obj.queueDepthLimit 197632 0 ∧
     cellsNeeded d 197632 item0 + ogetN d Obj.classAReserve 0 0 ≤ freeCells d ∧
     isWord (q false (push0 197632 true item0)).sys.dev 197632 ≠ true) := by
  refine ⟨⟨⟨rfl, rfl⟩, ?_⟩, ?_, ?_⟩ <;> decide +kernel
theorem witness_QueuePop :
    (let s := queued (withReg ctx 1 197632) 197632 { Queue.empty with items := [item0] } true
     let x := queueOf s.sys.dev 197632
     Runs s 0 5 (needRegs [2, 3, 1]) s.sys ∧ (engineOf s.sys.dev 0).ops = [] ∧
     x.items[x.read]? = some item0 ∧ item0.data.len = 16 ∧ x.off = 0 ∧ item0.badHeads = 0 ∧ item0.badPar = 0 ∧ x.isolated = false ∧
     isWord s.sys.dev 197632 = true ∧ (queueOf (queued ctx 197632 Queue.empty true).sys.dev 197632).items[0]? = none) ∧
    (engineOf (onQueue (queued ctx 197632 Queue.empty true) [pop0 197632 0]).sys.dev 0).ops = [pop0 197632 0] ∧
    (let s := queued (withReg (withReg ctx 1 253439) 2 1) 253439 { Queue.empty with items := [item0], off := 15 } false
     blockMore 2 7 s.sys (ctxAt s.sys 0) = none ∧ isWord s.sys.dev 253439 = false ∧ (queueOf s.sys.dev 253439).off < item0.data.len ∧
     (engineOf s.sys.dev 0).ops = []) := by
  refine ⟨⟨⟨rfl, rfl⟩, ?_⟩, ?_, ?_⟩ <;> decide +kernel
theorem witness_QueueReadPoint :
    (let s := queued (withReg ctx 1 197632) 197632 { Queue.empty with items := [item0], mark := some (0, 0) } true
     bitSet (ogetN s.sys.dev Obj.queueGrantMask 197632 0) 0 = true ∧ ogetN s.sys.dev Obj.thresholdDepth 197632 0 = 0 ∧
     (queueOf s.sys.dev 197632).mark = some (0, 0) ∧ (queueOf s.sys.dev 197632).isolated = false) ∧
    (queueOf (queued ctx 197632 { Queue.empty with isolated := true } true).sys.dev 197632).isolated = true ∧
    bitSet (ogetN (eng ctx).sys.dev Obj.queueGrantMask 262143 0) 0 = false := by decide +kernel
theorem witness_ControlFlow : Runs (eng ctx) 0 5 needFlags (eng ctx).sys ∧ Runs (eng ctx) 0 5 (needRegs [31]) (eng ctx).sys ∧
    ctx.stF St.fpsn = 0 ∧ (ctx.setSt St.fpsn 1).stF St.fpsn = 1 ∧ (11 : BitVec 5).toNat < 12 := ⟨⟨rfl, rfl⟩, ⟨rfl, rfl⟩, by decide +kernel⟩
/-- A context in which both loops run, and end where it stands. -/
def looped : Ctx := { (ctx.setSt St.loop0 1).setSt St.loop1 1 with lc1 := { count := 2, start := 0, stop := 0 } }
theorem witness_HardwareLoops : looped.looping 0 = true ∧ looped.looping 1 = true ∧ looped.pc = looped.lc1.stop ∧
    1 < looped.lc1.count.toNat ∧ ctx.looping 0 = false ∧ ctx.looping 1 = false ∧ { ctx with gp := 2 }.psn 1 = true := by decide +kernel
theorem witness_IllegalEncodings : threadAt (eng ctx).sys.dev 0 = some 5 ∧ (engineOf (eng ctx).sys.dev 0).ops = [] ∧
    legalWord 0xFFFFFFFF = false := by decide +kernel
theorem witness_ExceptionEntry :
    (let d := (oset (eng ctx).sys.dev Obj.exceptionQueue 0 0 197632)
     let d := oset d Obj.itemMode 197632 0 0
     ogetN d Obj.exceptionQueue 0 0 = 197632 ∧ isWord d 197632 = true ∧ (queueOf d 197632).isolated = false ∧
     cellsHeld d 197632 + 1 ≤ ogetN d Obj.queueDepthLimit 197632 0 ∧ 1 + ogetN d Obj.classAReserve 0 0 ≤ freeCells d ∧
     tcbOf d 5 = some tcb ∧ tcb.channel = 0xFFFFFFFF) := by decide +kernel


/-! Scheduler, gauges, ticks. -/

/-- A ready entry of thread 5. -/
def entry0 (kind : Nat) : Ready :=
  { thread := 5, kind := kind, value := 0, time := ⟨0, 0⟩, key := 0, order := 3, dlTick := 0, dlOff := 0, missed := false }
/-- A running device whose thread 5 has the TCB k, with the entries l at hearth 0. -/
def threads (k : Tcb) (l : List Ready) : Dev := { dev with stk := { dev.stk with tcbs := [(5, k)], ready := [(0, l)] } }
/-- The same, with the thread on engine 0. -/
def onEngine (k : Tcb) (l : List Ready) : Dev :=
  { threads k l with engines := [(0, { EngineSt.reset with thread := some 5, ctx := ctx })] }

theorem witness_SchedulerCalls :
    (threadAt (onEngine tcb []) 0 = some 5 ∧ tcb.trace = false ∧ tcb.move = none ∧
      (∀ r, tcb.release = some r → r.kind ≤ 1 → tcb.missed = true)) ∧
    (∀ h, readyOf (st (running ctx)).sys.dev h = []) ∧
    (let y : Tcb := { tcb with prio := 0 }
     firstFor (putResume { onEngine tcb [{ entry0 4 with thread := 6 }] with
       stk := { dev.stk with tcbs := [(5, tcb), (6, { y with state := 2 })], ready := [(0, [{ entry0 4 with thread := 6 }])] } } 5
       { tcb with state := 2 }) 0 5 = false) ∧
    ((sortReady (onEngine tcb [entry0 4]) (entriesOf (onEngine tcb [entry0 4]) 5)).find? (fun r => bitSet 255 r.kind)) = some (entry0 4) ∧
    tcbOf (onEngine tcb []) 6 = none ∧ 8176 ≤ (readyOf (onEngine tcb (List.replicate 8176 (entry0 4))) 0).length ∧
    ¬ (8176 ≤ (readyOf (onEngine tcb (List.replicate 8175 (entry0 4))) 0).length) := by
  refine ⟨⟨rfl, rfl, rfl, fun r h => by simp [tcb] at h⟩, fun _ => rfl, by decide +kernel, by decide +kernel, by decide +kernel, ?_, ?_⟩ <;> decide +kernel

theorem witness_StokerEvents :
    (engineOf { running ctx with engines := [(0, { EngineSt.reset with back := some (5, ctx) })] } 0).back = some (5, ctx) ∧
    (let d := threads { tcb with state := 2 } [entry0 4]
     hearthRuns d 0 = true ∧ (0 : Nat) < enginesOf d ∧ dispatchable d 0 = [entry0 4] ∧ tcbOf d 5 = some { tcb with state := 2 } ∧
     (engineOf d 0).thread = none ∧ tcb.hold = none ∧ (dispatchable d 0).find? (fun x => (tcbOf d x.thread).any (fun k => bitSet k.mask 0)) = some (entry0 4)) ∧
    (∀ x, (engineOf dev x).ops = [] ∧ (engineOf dev x).copies = [] ∧ (engineOf dev x).back = none) ∧
    (let d := { running ctx with stk := { (running ctx).stk with latches := [(32, [⟨5, 5, 0⟩])] } }
     latchOf d 32 = [⟨5, 5, 0⟩] ∧ tcbOf d 5 = some tcb ∧ tcb.behind = false ∧ tcb.releases < 8 ∧ sget d.stk.owed 32 0 = 0 ∧
     sget (sput d.stk.owed 32 1) 32 0 = 0 + 1 ∧ postBlocked d tcb 5 = false ∧
     postBlocked { d with stk := { d.stk with ready := [(0, List.replicate 8176 (entry0 4))] } } tcb 5 = true) ∧
    (let k := { tcb with release := some (entry0 0) }
     let d := threads k []
     tcbOf d 5 = some k ∧ entriesOf d 5 = [] ∧ deadlineAt d 0 0 ≤ d.time.nextTick) := by
  refine ⟨by decide +kernel, by decide +kernel, fun _ => ⟨rfl, rfl, rfl⟩, by decide +kernel, by decide +kernel⟩

/-- A running device whose hearth 0 gauges 1,000. -/
def gauged : Dev := oset dev Obj.gaugeReading 0 0 1000
theorem witness_StokerCommands :
    Served dev Obj.stokerCommand ∧ 11 < hearthsOf dev ∧
    (rec0.prio < 32 ∧ windowOk rec0.lmWindow = true ∧ rec0.target < enginesOf dev ∧ bitSet rec0.mask (rec0.target % 16) = true ∧
      rec0.thread < 131072 ∧ rec0.entryPc < 1048576 ∧ rec0.entryPc % 4 = 0 ∧ tcbOf dev rec0.thread = none ∧ deficitOf gauged 0 = 0 ∧ rec0.cost ≤ freeOf gauged 0 ∧
      runnableOn dev 0 < 512) ∧
    freeOf gauged 0 < 2 ^ 31 ∧ deficitOf (threads { tcb with cost := 2 ^ 31 } []) 0 ≠ 0 ∧
    (bitSet rec0.mask (tcb.home % 16) = true ∧ tcb.channel = 0xFFFFFFFF ∧ rec0.cost ≤ tcb.cost ∧ tcb.state = 3) ∧
    (15 < enginesOf dev ∧ 15 ≠ tcb.home ∧ 15 / 16 = tcb.home / 16 ∧ { rec0 with mask := 0, target := 15 }.mask = 0 ∧ tcb.move = none ∧
      deficitOf gauged 15 = 0 ∧ tcb.cost ≤ freeOf gauged 15 ∧ runnableOn gauged 15 < 512 ∧
      { tcb with state := 1, move := some (15, 3) }.move = some (15, 3)) ∧
    ({ tcb with state := 4 }.release = none ∧ { tcb with state := 4, release := some (entry0 6) }.release.isSome = true) := by
  refine ⟨⟨by decide +kernel, by decide +kernel⟩, by decide +kernel, by decide +kernel, by decide +kernel, by decide +kernel,
    by decide +kernel, by decide +kernel, by decide⟩

/-- A running device with voltage steering in state a. -/
def steering (a : Avs) : Dev := { dev with stk := { dev.stk with avs := a } }
theorem witness_GaugeAndSupply :
    (sget dev.stk.gaugeAt 11 0 + usec (ogetN dev Obj.gaugePeriod 0 0) ≤ now { dev with time := { dev.time with elapsed := usec 100 } }) ∧
    (sfind [(0, (5, false))] 0 : Option (Nat × Bool)) = some (5, false) ∧ canReach dev (5 + msec 1000) = true ∧
    (let d := { steering { Avs.reset with command := 700 } with time := { dev.time with elapsed := secs 60 } }
     d.stk.avs.lastDecision + msec (ogetN d Obj.avsInterval 0 0) ≤ now d ∧ d.stk.avs.command < ogetN d Obj.avsMax 0 0 ∧
     d.stk.avs.waiting = none ∧ d.stk.avs.ports = [] ∧ d.start.resetLow = false ∧ quenched d = false) ∧
    deficitOf (threads { tcb with cost := 2 ^ 31 } []) 0 ≠ 0 ∧ ogetN dev Obj.avsMax 0 0 < 2000 ∧
    (steering { Avs.reset with waiting := some 0 }).stk.avs.waiting = some 0 ∧ canReach dev (0 + usec 2000) = true ∧ Served dev Obj.queueResetObj ∧
    (queueOf { dev with queues := [(253439, { Queue.empty with isolated := true })] } 253439).isolated = true ∧
    dev.start.state = 1 ∧ Dev.reset.start.state ≠ 1 ∧ dev.faults.blocks = [] := by
  refine ⟨by decide +kernel, by decide, by decide +kernel, by decide +kernel, by decide +kernel, by decide +kernel, by decide, by decide +kernel, ⟨by decide, by decide⟩, by decide +kernel, by decide, by decide, rfl⟩

/-- The decision of frame tick 8 before the first anchor, treated under profile 0 of a running device. -/
def slotFill : Slot :=
  { tick := 8, kind := .fill, tag := 0, codec := 0, wide := false, run := 0, data := ⟨0, 0⟩, poison := false, params := paramsOf dev 0 0 false,
    dest := some 7, group := 0xFFFF, member := 0xFF }
/-- A channel on engine 0 with endpoint 7, opened at tick 0. -/
def chan0 : Channel :=
  { state := 1, endpoint := 7, output := 0xFFFFFFFF, group := 0xFFFF, member := 0xFF, engine := 0, thread := 5, phase := 0, frameTicks := 8,
    cost := 10, cipher := 0, traceA := false, recorded := false, body := 0, tag := 0, openTick := 0, joinTick := 0, rate16 := false, rateWas := false, rateTick := 0, depth := 40,
    target := 40, jmin := 20, jmax := 100, anchor := none, firstFa := none, played := [], playedAt := [], early := 0, delays := [],
    insert := false, below := none, dtx := false, conceal := 0, slot := none,
    todo := [slotFill], events := 0, tones := [], left := [], canceller := Canceller.fresh 64, treat := Treat.fresh false 1 0,
    isolatedAt := none, misses := 0,
    banks := { filling := 0, draining := 0, slots := [], nextSeal := 1, doneTick := 8, lastDecoded := none, run := 0, tags := [] } }
/-- A device at tick t, started and ticking. -/
def atTick (t : Nat) : Dev := { dev with time := { dev.time with started := true, ticking := true, tick := t } }
theorem witness_TicksAndRounds :
    (let d := { atTick 8 with start := { dev.start with ready := false, state := 0 } }
     d.time.started = true ∧ d.start.resetLow = false ∧ d.start.state ≠ 4 ∧ d.start.ready = false ∧ d.time.media ≤ d.time.nextTick ∧
     100000000 * 65536 < ((d.time.media : Int) - (100000000 * 65536 + 1 : Nat)).natAbs) ∧
    (let d := { atTick 9 with chans := [(3, chan0)] }
     d.time.tick = chan0.banks.doneTick + 1 ∧ chan0.openTick + 8 ≤ d.time.tick ∧ chan0.banks.filling ≤ d.time.tick - 8) ∧
    (let d := { atTick 8 with oa := [(8703, { OaCtx.empty with params := [(0, ⟨true, 2, 24, 1, 0⟩)] })] }
     (oaParams d 8703 8).enable = true ∧ sfind (oaOf d 8703).results 8 = none ∧ 8 + (oaParams d 8703 8).lag ≤ curTick d ∧ 8 ≤ curTick d + 7 ∧ curTick d < 8 + 32 ∧
     (oaParams d 8703 8).count * 64 ≤ 1536) ∧
    (dev.dict.units = [] ∧ { dev.dict with commit := some ⟨1, 8, []⟩ }.commit = some ⟨1, 8, []⟩) ∧
    ([⟨1, true, 0, false, [], 0, false⟩, ⟨2, true, 0, false, [], 1, false⟩].map OaEntry.member).Nodup ∧
    (sfind [(4, (⟨1, 0, false, [5]⟩ : BankSlot))] 4 = some ⟨1, 0, false, [5]⟩ ∧ sfind chan0.banks.slots 4 = none ∧
      firstFrameTick { chan0 with firstFa := some 8 } ≤ 8) := by decide +kernel

/-! Network time. -/

/-- A device whose first slot is x and second slot is y, slot 0 selected and locked. -/
def slots (x y : TimeSlot) : Dev := { dev with time := { dev.time with started := true, slots := [x, y], state := 2 } }
/-- A master heard on port 0. -/
def master0 : PtpMaster := { data := ⟨128, 6, 0x21, 0x4E5D, 128, 1, 0⟩, port := 0, heard := 0, every := 0 }
/-- A slot in state k that follows it, with Delay_Resp granted. -/
def slot0 (k : Nat) : TimeSlot := { TimeSlot.reset with state := k, master := some master0, agree := some 0, grants := [2] }
/-- A device whose port 0 is up. -/
def up : Dev := { dev with fwd := { dev.fwd with ports := [(0, { Port.reset with linkUp := true })] } }
theorem witness_TimeSlots :
    (slots (slot0 2) (slot0 3)).time.slots.length = 2 ∧ ((0 : Int) - 0).natAbs < 10 * 65536 ∧
    (slotAt (slots (slot0 3) (slot0 2)) 0).state = 3 ∧ (slotAt (slots (slot0 3) (slot0 2)) 0).agree = some 0 ∧
    (slotAt (slots (slot0 2) (slot0 4)) (1 - 0)).state ≠ 2 ∧
    ((slotAt (slots { slot0 2 with offset := 65535999 } (slot0 2)) 0).offset - 0).natAbs < 1000 * 65536 ∧
    ¬ ((slotAt (slots { slot0 2 with offset := 65536000 } (slot0 2)) 0).offset - 0).natAbs < 1000 * 65536 ∧
    Served dev Obj.domainSwitchCommand ∧ (sfind up.fwd.ports 0).any Port.linkUp = true ∧
    (slotAt (slots (slot0 2) (slot0 3)) 0).master = some master0 ∧ 2 ∈ (slot0 2).grants := by
  refine ⟨rfl, by decide, rfl, rfl, by decide, by decide, by decide, ⟨by decide, by decide⟩, by decide +kernel, rfl, by decide⟩

/-- A device whose trigger unit 0 is armed with the target and width set. -/
def armedFor (target : Int) : Dev :=
  oset { dev with time := { dev.time with triggers := [(0, { Trigger.reset with armed := true, pin := some 0, pulseEnd := some 0 })] } } Obj.trigTarget 0 0 target
theorem witness_TriggersAndCaptures :
    (let d := armedFor 1
     (triggerOf d 0).armed = true ∧ (triggerOf d 0).next ≤ d.time.net ∧ ogetN d Obj.trigTarget 0 0 = 1 ∧
     ogetN d Obj.trigOutPin 0 0 < d.time.pins.length ∧ (triggerOf d 0).pulseEnd = some 0 ∧ (triggerOf d 0).pin = some 0 ∧ canReach d 0 = true) ∧
    ogetN (armedFor 2) Obj.trigTarget 0 0 = 2 ∧
    (let d := { armedFor 4 with stk := { dev.stk with tcbs := [(0, tcb)] } }
     tcbOf d (ogetN d Obj.trigThreadNumber 0 0) = some tcb ∧ sfind d.stk.latches 32 = none ∧ postBlocked d tcb 5 = false) ∧
    (dev.time.ppsNext ≤ dev.time.net ∧ { dev.time with ppsEnd := some 0 }.ppsEnd = some 0) ∧
    (let d := oset dev Obj.capEdge 4 0 3
     bitSet (ogetN d Obj.capEdge 4 0) 0 = true ∧ bitSet (ogetN d Obj.capEdge 4 0) 1 = true ∧ (captureOf d 4).lastEdge = none ∧
     (captureOf d 4).records.length < 64 ∧
     64 ≤ (captureOf { d with time := { d.time with captures := [(4, { Capture.reset with records := List.replicate 64 0 })] } } 4).records.length) ∧
    ServedRead dev Obj.capRecords := by
  refine ⟨by decide +kernel, by decide +kernel, by decide +kernel, by decide +kernel, by decide +kernel, ⟨by decide, by decide⟩⟩


/-! Ports, setup, twins. -/

/-- A device whose port 0 is up, with pause state x for priority 7. -/
def paused (x : Pause) : Dev := { dev with fwd := { dev.fwd with ports := [(0, { Port.reset with linkUp := true, pauses := [(7, x)] })] } }
/-- A frame queued for egress that an engine has built, and one that came in on port 0 with priority 7. -/
def frameItem (inPort : Option Nat) (n : Nat) : QItem :=
  { plainItem ⟨n, 0⟩ with info := .frame { inPort := inPort, inPrio := 7, stamp := 0, order := 0 } }
theorem witness_LinksAndPauses :
    Served dev Obj.laneGroupMode ∧ 4 * 7 < lanesOf dev ∧ (∀ i < 4, oget dev Obj.adminUp (4 * 7 + i) 0 = 0) ∧
    oget (oset dev Obj.adminUp 31 0 1) Obj.adminUp (4 * 7 + 3) 0 ≠ 0 ∧ Served dev Obj.adminUp ∧ portExists dev 0 = true ∧
    720 ≤ dev.stk.avs.reported ∧ 720 ≤ dev.stk.avs.command ∧ dev.start.state = 1 ∧ dev.twin.state < 2 ∧ laneFailed dev 0 = false ∧ (blockSt dev 1 0).phase ≠ 1 ∧
    (let d := paused { from_ := some 0, until_ := msec 1000, ignore := some 5 }
     (pauseOf d 0 7).from_ = some 0 ∧ (pauseOf d 0 7).ignore = some 5 ∧ 0 + msec (ogetN d Obj.pauseWatchdogLimit 0 7) < msec 1000 ∧
     ogetN d Obj.pauseMode 0 0 ≠ 1) ∧
    (let d := oset { up with queues := [(196608, { Queue.empty with items := List.replicate 2 (frameItem (some 0) 128) })] } Obj.pauseMode 0 0 1
     let d := oset (oset (oset d Obj.pauseTxVoice 0 0 1) Obj.xoffCells 0 0 1) Obj.xonCells 0 0 1
     ogetN d Obj.pauseMode 0 0 = 1 ∧ sendsPause d 0 8 = true ∧ ogetN d Obj.xoffCells 0 0 < ingressCells d 0 8 ∧ ogetN d Obj.xonCells 0 0 ≤ ingressCells d 0 8 ∧
     (portOf d 0).xoff = []) ∧
    (let d := oset { up with fwd := { up.fwd with ports := [(0, { Port.reset with linkUp := true }), (1, { Port.reset with linkUp := true })] } }
       Obj.prpPair 0 15 256
     pairPorts d 15 = some (0, 1) ∧ d.start.ready = true ∧ canReach d (0 + msec (ogetN d Obj.lifeCheckInterval 0 0)) = true ∧ (portOf d 0).linkUp = true ∧ (portOf d (256 / 256)).linkUp = true) ∧
    Served dev Obj.flowKey ∧ keyTaken dev 262143 0 5 = false ∧ dev.fwd.placed.length < 245760 ∧
    (let d := oset { dev with fwd := { dev.fwd with placed := [(4, 2)] } } Obj.flowKey 4 0 (2 ^ 52 : Nat)
     sfind d.fwd.placed 4 = some 2 ∧ ogetN d Obj.flowProfile 4 0 = comingN d Obj.flowProfile 3 ∧ ogetN d Obj.flowKey 4 0 = (2 ^ 52 + 7) / 2 ^ 52 * 2 ^ 52) ∧
    stopHearth 23 = some 11 ∧ stopHearth 6 = none := by
  refine ⟨⟨by decide, by decide⟩, by decide +kernel, by decide +kernel, by decide +kernel, ⟨by decide, by decide⟩, by decide +kernel, by decide,
    by decide, by decide, by decide, by decide +kernel, by decide +kernel, by decide +kernel, by decide +kernel, by decide +kernel, ⟨by decide, by decide⟩,
    by decide +kernel, by decide +kernel, by decide +kernel, by decide, by decide⟩

/-- A frame of n octets before its FCS. -/
def frame0 (n : Nat) (kind : FrameKind) : Frame :=
  { data := ⟨n, 0⟩, fcs := 0, fixed := 0, lost := 0, fcsBad := false, align := none, code := none, full := false, tags := 0, prio := 7, key := 0, srcMac := 1, prp := none,
    kind := kind }
/-- Frame work that meets no poison. -/
def work0 : Work := ⟨0, false⟩
/-- Endpoint 7 in a state, of kind 1. -/
def endpoint (state : Nat) : Dev := { dev with endpoints := [(7, setF (setF 0 Ep.state state) Ep.kind 1)] }
theorem witness_Frames :
    (up.start.ready = true ∧ portExists up 0 = true ∧ (portOf up 0).linkUp = true ∧ oget up Obj.deliverBad 0 0 = 0 ∧
      (frame0 9 .plain).data.len + 4 < 14 ∧ (frame0 60 .plain).data.len + 4 = 64 ∧
      ogetN up Obj.maxFrameSize 0 0 < (frame0 9500 .plain).data.len + 4 ∧ up.start.state = 1) ∧
    (ogetN (oset up Obj.pauseMode 0 0 1) Obj.pauseMode 0 0 = 1 ∧ (portOf up 0).pauses = [] ∧ (portOf up 0).txPrio = none ∧
      (frame0 60 (.pause 0x010000C28001 1)).kind = .pause 0x010000C28001 1) ∧
    (getF (frame0 60 .plain).key FlowKey.etherType ≠ 0x0806 ∧ mediaIndex up 0 = none ∧ flowHit up 0 = none ∧
      ogetN (oset up Obj.pauseMode 0 0 0) Obj.pauseMode 0 0 = 0 ∧ (ogetN (oset up Obj.missAction 0 0 2) Obj.missAction 0 0 = 2) ∧ isWord up 196615 = false ∧
      (queueOf up 196615).isolated = false ∧ pushVerdict up 196615 1 = 0 ∧ ogetN up Obj.thresholdDepth 196615 0 = 0) ∧
    (let d := { up with queues := [(196615, { Queue.empty with items := [frameItem none 60] })] }
     7 ∈ sendable d 0 ∧ headFrame d 0 7 = some ⟨60, 0⟩ ∧ sendable d 0 = [7] ∧ ogetN (oset d Obj.pauseMode 0 0 0) Obj.pauseMode 0 0 = 0 ∧
     (frameItem none 60).badHeads = 0 ∧ (frameItem none 60).badPar = 0 ∧
     60 + 4 ≤ ogetN d Obj.maxFrameSize 0 0 + 4 * min 2 (tagsOf ⟨60, 0⟩) ∧
     bitSet (ogetN (oset d Obj.strictMask 0 0 255) Obj.strictMask 0 0) 7 = true ∧
     bitSet (ogetN (oset d Obj.strictMask 0 0 0) Obj.strictMask 0 0) 7 = false) ∧
    (let d := { up with queues := [(196615, { Queue.empty with items := [frameItem none 9500] })] }
     ogetN d Obj.maxFrameSize 0 0 + 4 * min 2 (tagsOf ⟨9500, 0⟩) < 9500 + 4 ∧ sendable d 0 = [7]) ∧
    (let d := { endpoint 2 with chans := [(3, { chan0 with output := 7 })] }
     chanOf d 3 = some { chan0 with output := 7 } ∧ sendsTo { chan0 with output := 7 } = some 7 ∧ epF d 7 Ep.kind ≠ 2 ∧
     work0.bad = false ∧ chan0.todo = [slotFill] ∧ slotFill.group = 0xFFFF ∧ slotFill.dest = some 7 ∧ slotFill.poison = false ∧
     chan0.state = 1 ∧ chan0.group = 0xFFFF ∧ chan0.left = [] ∧ chan0.canceller.bypassAt = none ∧ isLine d { chan0 with output := 7 } = false ∧
     bitSet (epF d 7 Ep.codecOptions) 1 = false) := by
  refine ⟨by decide +kernel, by decide +kernel, by decide +kernel, by decide +kernel, by decide +kernel, by decide +kernel⟩

/-- A previous key whose last tick is 0. -/
def prevKey0 : PrevKey := { tick := 0, mkiLength := 0, mki := 0 }
theorem witness_SetupRecords :
    Served dev Obj.setupRecord ∧
    (let data : Bytes := ⟨32, setF 0 SetupHdr.length 32⟩
     getF data.val SetupHdr.length = data.len ∧ data.val < 2 ^ (8 * data.len) ∧ (parseRec dev data).seq ≠ dev.setup.next ∧ dev.start.ready = true ∧
     (let e := setF data.val SetupHdr.recordSequence 1
      (parseRec dev ⟨32, e⟩).seq = dev.setup.next ∧ dev.setup.pending.length + dev.setup.results.length < 4096 ∧
      writeStatus { dev with setup := { dev.setup with next := 2 } } (parseRec dev ⟨32, e⟩) 32 (bitsAt e 160 32) false ≠ 0) ∧
     (let e := setF (setF (setF data.val SetupHdr.recordSequence 1) SetupHdr.kind 4) SetupHdr.targetTick 2
      writeStatus { dev with setup := { dev.setup with next := 2 } } (parseRec dev ⟨32, e⟩) 32 (bitsAt e 160 32) false = 0)) ∧
    (epF dev 7 Ep.state = 0 ∧ epF (endpoint 1) 7 Ep.state = 1 ∧ epF (endpoint 2) 7 Ep.state = 2) ∧
    (sfind { dev.setup with prevKeys := [(7, prevKey0)] }.prevKeys 7 = some prevKey0 ∧ (0 : Nat) < curTick (atTick 1) ∧ curTick dev ≤ 0) ∧
    (let body := setF (setF (setF 0 ChBody.endpoint 7) ChBody.group 0xFFFF) ChBody.outputEndpoint 0xFFFFFFFF
     let d := oset (endpoint 1) Obj.gaugeReading 0 0 1000
     let b := fillJitter (bump d Obj.setupAccepted 0 0) body
     getF b ChBody.group = 0xFFFF ∧ getF b ChBody.outputEndpoint = 0xFFFFFFFF ∧ bitSet (getF b ChBody.flags) 1 = false ∧
     getF b ChBody.endpoint = 7 ∧ bitSet (epF d 7 Ep.flags) 3 = false ∧ epF d 7 Ep.kind ≠ 2 ∧ chanOf d 3 = none ∧
     cipherCommitted d + cipherLoad d 7 none ≤ 100000000000 ∧ lowestFree d = some 0 ∧
     chooseEngine d (channelCost d 7 none 0) 0xFF = .inl 0 ∧ chooseEngine dev (channelCost dev 7 none 0) 0xFF = .inr 8) ∧
    (chanOf { endpoint 2 with chans := [(3, { chan0 with todo := [] })] } 3 = some { chan0 with todo := [] } ∧ chan0.recorded = false ∧
      chan0.group = 0xFFFF ∧ chan0.tones = [] ∧ chan0.state = 1 ∧ epF (endpoint 2) chan0.endpoint Ep.kind ≠ 2) ∧
    (shas (sget ([(4, [(9, 3)])] : SMap (SMap Nat)) 4 []) 9 = true ∧ shas (sget dev.groups 4 []) 9 = false) := by
  refine ⟨⟨by decide, by decide⟩, by decide +kernel, by decide +kernel, by decide +kernel, by decide +kernel, by decide +kernel, by decide⟩

theorem witness_DictionaryAndEpochs :
    (silent dev = false ∧ (match resolve dev 3 0x2520 4 7 with
      | .inr (.obj r _ _) => decide (r = Obj.queueDepthLimit)
      | _ => false) = true ∧ stateRefuses dev 0x2520 4 true = false ∧ isSelect Obj.queueDepthLimit = false ∧
      Obj.queueDepthLimit.acc = .rws ∧ Obj.heartbeatCount.acc ≠ .const ∧ instanceGated dev 0x2520 0 0 = false ∧
      instanceGated dev 0x3000 32 0 = true) ∧
    (Served dev Obj.epochCommit ∧ (1 : Nat) = (dev.dict.epoch + 1) % 2 ^ 32 ∧ curTick dev + 4 ≤ 4 ∧ dev.dict.commit = none) ∧
    (Served dev Obj.epochAbort ∧ { dev.dict with commit := some ⟨1, 2, []⟩ }.commit = some ⟨1, 2, []⟩ ∧ curTick dev + 2 ≤ 2 ∧
      (1 : Nat) < curTick dev + 2 ∧ (dev.dict.staged.map Prod.fst).Nodup) ∧
    ServedRead dev Obj.setupResults ∧ Served dev Obj.keyTransportKey ∧ Served dev Obj.twinLinkKey ∧
    ogetN (oset dev Obj.keyTransportKey 0 0 5) Obj.keyTransportKey 0 0 ≠ 0 ∧ Served dev Obj.goaKey ∧ 1 < dev.goa.keys.length := by
  refine ⟨by decide +kernel, ⟨⟨by decide, by decide⟩, by decide, by decide +kernel, rfl⟩,
    ⟨⟨by decide, by decide⟩, rfl, by decide +kernel, by decide +kernel, by decide⟩, ⟨by decide, by decide⟩, ⟨by decide, by decide⟩,
    ⟨by decide, by decide⟩, by decide +kernel, ⟨by decide, by decide⟩, by decide⟩

/-- A device strapped twin A, with twin state k. -/
def twinned0 (w : Twin) : Dev := { atTick 40 with start := { dev.start with straps := { straps with twin := 1 } }, twin := w }
/-- A ledger entry of channel 3, and an empty ledger of the partner. -/
def entryOf : LedgerEntry := { channel := 3, seq := 1, ts := 160, stamp := ⟨0, 0⟩, digest := 5, octets := 160, marker := false, sid := false }
def ledger0 : Ledger := { tick := 40, stamp := ⟨0, 0⟩, entries := [], decisions := [], digests := [], sender := 2, config := 0, last := true }
/-- The packet of that entry in a jitter queue. -/
def packetItem : QItem :=
  QItem.of ⟨192, 0⟩ (.packet { ts := 160, seq := 1, stamp := ⟨0, 0⟩, octets := 160, marker := false, sid := false, fetched := false, judged := true })
theorem witness_Twins :
    (let d := twinned0 { Twin.reset with state := 4 }
     d.start.straps.twin % 4 = 1 ∧ d.time.ticking = true ∧ d.time.nextTick - d.time.media ≤ 1005000 * 65536 ∧
     d.twin.closed ≠ some (d.time.tick + 1) ∧ ledger0.sender ≠ 1 ∧ { ledger0 with sender := 1 }.sender = 1 ∧ d.twin.partner = [] ∧
     d.twin.heldDigests = [] ∧ payloadClash d entryOf = false ∧ d.twin.missing < ogetN d Obj.partnerLossIntervals 0 0) ∧
    (wantsPacket { twinned0 { Twin.reset with state := 4 } with
      chans := [(3, { chan0 with anchor := some ⟨40, 0, ⟨0, 0⟩⟩, firstFa := some 40 })] } entryOf = true) ∧
    ({ Twin.reset with fetches := [⟨entryOf, 41⟩] }.fetches = [⟨entryOf, 41⟩] ∧ curTick (twinned0 Twin.reset) < 41) ∧
    (let d := twinned0 { Twin.reset with state := 2, missing := 65535, joinStep := 5 }
     ogetN d Obj.partnerLossIntervals 0 0 ≤ d.twin.missing ∧ chanOf d 3 = none ∧ lowestFree d = some 0 ∧ chan0.group = 0xFFFF) ∧
    (let d := twinned0 { Twin.reset with state := 1, joinStep := 1, key := 5 }
     let p : Peer := { role := 2, keyId := twinKeyId d, enable := true, accepts := true }
     p.role ≠ 1 ∧ p.keyId = twinKeyId d ∧ d.twin.key ≠ 0 ∧ Served d Obj.twinCommand ∧ d.twin.helloAt = none) ∧
    (let d := twinned0 { Twin.reset with state := 1, key := 5 }
     let d := oset (oset { d with time := { d.time with state := 2 }, fwd := up.fwd } Obj.twinLinkPort0 0 0 0) Obj.joinEnable 0 0 1
     d.start.ready = true ∧ twinLinkUp d = true ∧ oget d Obj.joinEnable 0 0 ≠ 0 ∧ twinPorts d = [0] ∧ (portOf d 0).linkUp = true) ∧
    (let d := { twinned0 { Twin.reset with state := 4 } with queues := [(3, { Queue.empty with items := [packetItem] })] }
     (heldPackets d 3).map (fun k => (k.2.seq, k.2.ts)) = [(1, 160)]) := by
  refine ⟨by decide +kernel, by decide +kernel, by decide +kernel, by decide +kernel,
    ⟨by decide, rfl, by decide, ⟨by decide, by decide⟩, rfl⟩, by decide +kernel, by decide +kernel⟩


/-! Evidence, checks, store, line. -/

def block0 (made final : Bool) : EvBlock :=
  { first := 0, last := some 0, made := made, index := 0, slots := [], captures := [], events := [], eventBytes := 0, tag := 0, final := final,
    restart := made, transform := false, slotsLost := 0, eventsLost := 0, lost := false }
def stream0 (kind : Nat) (l : List EvBlock) : Stream :=
  { kind := kind, state := 1, source := 3, slotSamples := 20, openTick := 0, nextIndex := 1, blocks := l, blockTicks := 400, lastTag := none,
    slotsLost := 0, eventsLost := 0, lost := false, transform := false, group := 0, ctx := CompCtx.fresh }
def job0 (granted state : Nat) : Job :=
  { stream := 65535, index := 0, image := ⟨4, 0⟩, final := true, groupEnd := true, lost := false, group := 0, first := 0, ticks := 1, plane := 0,
    planeLen := 0, granted := granted, state := state }
/-- A device whose stream 65,535 has the block and the job, which compressor 3 runs where it has started. -/
def making (b : List EvBlock) (j : List Job) : Dev :=
  { atTick 9 with ev := { Evidence.reset with streams := [(65535, stream0 1 b)], jobs := j,
                                              units := if j.any (fun k => decide (k.state = 2)) then [(3, ⟨2, some 65535⟩)] else [] } }
theorem witness_EvidenceJobs :
    (streamOf (making [block0 true false] []) 65535 = some (stream0 1 [block0 true false]) ∧ (0 : Nat) + 8 ≤ curTick (making [] []) ∧
      (block0 false true).final = true ∧ (stream0 2 [block0 true false]).kind = 2) ∧
    (let d := making [] [job0 0 1]
     (3 : Nat) < compressorsOf d ∧ (compUnit d 3).state = 0 ∧ d.ev.jobs.find? (eligible d.ev.jobs) = some (job0 0 1)) ∧
    (runningJob (making [] [job0 4096 2]) 3 = some (job0 4096 2, stream0 1 []) ∧
      (stepsOf (job0 4096 2) CompCtx.fresh).length ≤ CompCtx.fresh.words + roomSteps (job0 4096 2) CompCtx.fresh) ∧
    (runningJob (making [] [job0 0 2]) 3 = some (job0 0 2, stream0 1 []) ∧
      ¬ ((stepsOf (job0 0 2) CompCtx.fresh).length ≤ CompCtx.fresh.words + roomSteps (job0 0 2) CompCtx.fresh)) ∧
    jobsOf (making [] [job0 0 3]) 65535 = [job0 0 3] ∧ 0 < (making [] []).store.free ∧ compressorsOf { dev with start := { dev.start with straps := { straps with tier := 3 } } } ≤ 3 ∧
    Served dev Obj.compUnitCommand := by
  refine ⟨by decide +kernel, by decide +kernel, by decide +kernel, by decide +kernel, by decide +kernel, by decide, by decide +kernel, ⟨by decide, by decide⟩⟩

/-- A record of stream 1 placed at offset 4,096, and a segment that holds it. -/
def rec1 (phase tries : Nat) : Rec :=
  { stream := 1, off := 4096, header := 0, payload := ⟨4, 0⟩, size := 4096, phase := phase, channel := 15, tries := tries, pages := 1 }
def seg0 (l : List Rec) : Segment :=
  { number := 1, offset := 8192, opened := ⟨0, 0⟩, openedAt := 0, records := l, epochs := [], overflow := false, reason := 0, closed := ⟨0, 0⟩,
    header := some 5, tries := 0 }
/-- A device with one open segment, in a ring over namespace 3. -/
def storing (l : List Rec) (c : CheckCh) : Dev :=
  { dev with store := { Store.reset with segs := [seg0 l], ready := true, total := 4, perName := 4, places := [some 3],
                                         names := [(3, ⟨1, 5 * 67108864, 512, 17, 0⟩)], checks := [(15, c)] } }
/-- A check descriptor of no bytes whose result goes to a BLOCK queue. -/
def desc0 : Nat := setF 0 CheckDesc.resultQueue 197632
theorem witness_ChecksAndStore :
    (let d := { dev with queues := [(196879, { Queue.empty with items := [plainItem ⟨64, desc0⟩] })] }
     15 < checksOf d ∧ (checkOf d 15).job = none ∧ (checkOf d 15).sealing = none ∧ (sealWaiting d 15).isSome = false ∧ halted d = false ∧
     (queueOf d (196864 + 15)).isolated = false ∧ (plainItem ⟨64, desc0⟩).badHeads = 0 ∧ (plainItem ⟨64, desc0⟩).badPar = 0 ∧ (blockSt d 4 15).phase ≠ 1 ∧ (queueOf d (196864 + 15)).items = [plainItem ⟨64, desc0⟩] ∧
     descMalformed desc0 = false ∧ getF desc0 CheckDesc.length = 0 ∧ descMalformed 4 = true) ∧
    (let d := storing [] ⟨some ⟨desc0⟩, none⟩
     (checkOf d 15).job = some ⟨desc0⟩ ∧ queueOpen d 197632 = true ∧ isWord d 197632 = false ∧ ogetN d Obj.thresholdDepth 197632 0 = 0 ∧
     cellsHeld d 197632 < ogetN d Obj.queueDepthLimit 197632 0 ∧ 1 + ogetN d Obj.classAReserve 0 0 ≤ freeCells d) ∧
    ((scanRun (st dev).sys 0 0 0 (5, true, false)).2 = (true, false) ∧ homeOf dev 0 0x10020000000 = .mem 0x10020000000) ∧
    (sealWaiting (storing [rec1 0 0] ⟨none, none⟩) 15 = some (1, 4096)) ∧
    (let d := storing [rec1 1 0] ⟨none, some (1, 4096)⟩
     halted d = false ∧ (rec1 1 0).off = 4096 ∧ (checkOf d 15).sealing = some (1, 4096) ∧ recAt d 1 4096 = some (rec1 1 0) ∧ d.store.gapNext = []) ∧
    (let d := storing [rec1 2 3] ⟨none, none⟩
     d.store.segs = [seg0 [rec1 2 3]] ∧ nameOf d.store 1 = some 3 ∧ (blockSt d 5 1).phase ≠ 1 ∧ (seg0 []).header = some 5 ∧ d.store.waiting = [] ∧
     (seg0 []).reason = 0) ∧
    Served dev Obj.storeCommand ∧
    (let d := oset { dev with store := { Store.reset with names := [(3, ⟨1, 5 * 67108864, 512, 0, 0⟩)] } } Obj.formatIdentity 0 0 17
     d.store.ready = false ∧ d.store.formatting = none ∧ ogetN d Obj.formatIdentity 0 0 ≠ 0 ∧ slotsPer d.store (attached d.store) ≠ 0 ∧
     ogetN dev Obj.formatIdentity 0 0 = 0) ∧
    (let y : Namespace := ⟨3, 5 * 67108864, 512, 0, 0⟩
     let s := { (storing [] ⟨none, none⟩).store with places := [none], names := [(3, y)] }
     (s.names.filter (fun p => decide (p.2.state = 3) && decide ((s.perName + 1) * slotBytes ≤ p.2.capacity))).head? = some (3, y) ∧
     s.places[0]? = some none) := by
  refine ⟨by decide +kernel, by decide +kernel, by decide +kernel, by decide +kernel, by decide +kernel, by decide +kernel,
    ⟨by decide, by decide⟩, by decide +kernel, by decide +kernel⟩

/-- A device with its line shell in state l. -/
def lined (l : LineShell) : Dev := { dev with line := l }
def awake0 : LineShell := { LineShell.reset with awake := 2, locked := true, ports := [(63, LinePort.reset)] }
theorem witness_LineShellAndResets :
    (Served dev Obj.lineShellEnable ∧ dev.line.awake = 0 ∧
      (lined { awake0 with ports := [(63, { LinePort.reset with bound := some 3 })] }).line.ports.any (fun k => k.2.bound.isSome) = true ∧
      awake0.ports.any (fun k => k.2.bound.isSome) = false) ∧
    ({ awake0 with awake := 1 }.awake = 1 ∧ (blockSt dev 6 0).phase ≠ 1 ∧ (sfind dev.dict.units 4).isNone = true) ∧
    (let d := { lined awake0 with time := { dev.time with mediaLocked := true } }
     d.time.mediaLocked = true ∧ canReach d (now d + 0) = true ∧ ogetN (oset d Obj.syncPinEdge 0 0 1) Obj.syncPinEdge 0 0 = 1) ∧
    (Served dev Obj.syncCommand ∧ (1 : Nat) ≤ curTick (atTick 1) ∧ curTick (atTick 1) < 2) ∧
    (let d := oset (lined { awake0 with edges := [⟨0, 0, 2 ^ 63, 1⟩] }) Obj.portEnable 63 0 1
     63 ∈ linesRunning d ∧ bitSet (2 ^ 63) 63 = true ∧ (lineOf d 63).calibrating = false ∧ d.line.edges = [⟨0, 0, 2 ^ 63, 1⟩] ∧ canReach d 0 = true) ∧
    ({ awake0 with locked := false }.locked = false ∧ { LinePort.reset with calibrating := true }.calibrating = true) ∧
    (Served dev Obj.recalibrateNow ∧ 63 < linesPowered (lined awake0) ∧ linesPowered dev ≤ 0) ∧
    ((lined awake0).line.drift = false ∧ 100 < ((101 : Int) - awake0.calTemp).natAbs ∧ ((100 : Int) - awake0.calTemp).natAbs ≤ 100) := by
  refine ⟨⟨⟨by decide, by decide⟩, by decide, by decide, by decide⟩, by decide +kernel, by decide +kernel, ⟨⟨by decide, by decide⟩, by decide, by decide⟩,
    by decide +kernel, by decide, ⟨⟨by decide, by decide⟩, by decide +kernel, by decide +kernel⟩, by decide⟩

/-! Management, faults, starts. -/

/-- A device whose bus 0 is in an NMT state. -/
def bus (nmt state : Nat) : Dev := { oset dev Obj.canEnable 0 0 3 with cans := [(0, ⟨nmt, state, 2, 1, []⟩), (1, ⟨nmt, state, 2, 1, []⟩)] }
theorem witness_CanBuses :
    (busOn (bus 5 0) 0 = true ∧ busOn (bus 5 0) 1 = true ∧ busOn (bus 5 2) 0 = false ∧ busOn dev 0 = false ∧ (canNode (bus 5 0) 0).nmt = 5 ∧
      (canNode (bus 4 0) 0).nmt = 4 ∧ busEnabled (bus 5 2) 0 = true ∧ (canNode (bus 5 2) 0).state = 2) ∧
    (let d := oset (bus 5 0) Obj.consumerHeartbeatTime 0 1 (65536 + 100)
     ogetN d Obj.consumerHeartbeatTime 0 1 % 65536 ≠ 0 ∧ ogetN d Obj.consumerHeartbeatTime 0 1 / 65536 % 256 ≠ 0) ∧
    (let d := [0, 1, 2, 3].foldl (fun d m => oset d Obj.tpdoCobId m 0 (if m = 3 then 0x185 else 2 ^ 31)) (bus 5 0)
     let d := oset d Obj.tpdoTransmissionType 3 0 240
     (∀ m, m < 4 → m ≠ 3 → bitSet (ogetN d Obj.tpdoCobId m 0) 31 = true) ∧ bitSet (ogetN d Obj.tpdoCobId 3 0) 31 = false ∧
     ogetN d Obj.tpdoTransmissionType 3 0 = 240 ∧ sget (canNode d 0).syncCount 3 0 + 1 < 240 ∧
     ogetN (oset d Obj.tpdoTransmissionType 3 0 1) Obj.tpdoTransmissionType 3 0 ≤ sget (canNode d 0).syncCount 3 0 + 1 ∧
     (tpdoData (oset d Obj.tpdoMappedCount 3 0 0) 3).1 = some ⟨0, 0⟩) ∧
    (let d := oset (oset (oset (bus 5 0) Obj.rpdoCobId 3 0 0x205) Obj.rpdoMappedCount 3 0 1) Obj.rpdoMapping 3 0 0x10170010
     bitSet (ogetN d Obj.rpdoCobId 3 0) 31 = false ∧ ogetN d Obj.rpdoMappedCount 3 0 = 1 ∧ mappedBytes d Obj.rpdoMapping 3 1 ≤ 2) ∧
    (let d := oset (oset (bus 5 0) Obj.tpdoTransmissionType 3 0 254) Obj.tpdoEventTimer 3 0 1
     254 ≤ ogetN d Obj.tpdoTransmissionType 3 0 ∧ ogetN d Obj.tpdoEventTimer 3 0 ≠ 0) ∧
    ogetN (oset (bus 5 0) Obj.producerHeartbeatTime 0 0 1) Obj.producerHeartbeatTime 0 0 ≠ 0 ∧
    Served dev Obj.errorCount := by
  refine ⟨by decide +kernel, by decide +kernel, by decide +kernel, by decide +kernel, by decide +kernel, by decide +kernel, ⟨by decide, by decide⟩⟩

/-- A session with no request kept, and one request kept; a device with key slot 0 set and such a session. -/
def session0 (kept : List Kept) : Session :=
  { id := 9, key := 0, high := 3, last := 0, kept := kept, frees := [], snap := some (0x2010, 7, 0, ⟨2000, 0⟩),
    block := some { idx := 0x2010, sub := 7, item := 0, len := 1025, crc := 0, segs := [], clash := false, last := 0 } }
def served (l : List Session) : Dev := { dev with goa := { keys := [5, 0], sessions := l, link := 0 } }
theorem witness_keySlot (l : List Session) : keySlot (served l) { head0 with keyId := goaKeyIdOf (served l) 0 } = some 0 := by
  simp [keySlot, served, head0]
theorem witness_ObjectAccess :
    (silent (served []) = false ∧ keySlot dev head0 = none ∧ sessionOf (served []) 9 = none ∧
      (let l := List.replicate 8 { session0 [] with id := 1 }
       (served l).goa.sessions.length = 8 ∧ sessionOf (served l) 9 = none ∧
       ∀ o ∈ l, now (served l) < o.last + secs (ogetN (served l) Obj.sessionIdleTime 0 0))) ∧
    (let k : Kept := ⟨4, .blockEnd, ⟨0, 0⟩⟩
     (session0 [k]).kept.find? (fun k => decide (k.seq = 4) && decide (k.body = .blockEnd)) = some k ∧
     (session0 [k]).kept.find? (fun k => decide (k.seq = 3) && decide (k.body = .blockEnd)) = none) ∧
    (head0.seq = (session0 []).high + 1 ∧ head0.good = true ∧ head0.session ≠ 0 ∧ bodyGood head0 (.blockData 0 ⟨0, 0⟩) = true ∧
      bodyGood { head0 with good := false } .blockEnd = false) ∧
    (∀ b, (session0 []).block = some b → (1024 % 1024 = 0 ∧ 1024 < b.len ∧ min 1024 (b.len - 1024) = 1 ∧ blockBytes b = none) ∧
      (blockBytes { b with len := 4, segs := [(0, ⟨4, 0⟩)], crc := crcOf 0 ⟨4, 0⟩ }) = some ⟨4, 0⟩) ∧
    (dev.goa.keys = [0, 0] ∧ dev.goa.sessions = [] ∧ (served []).goa.keys.any (fun o => decide (o ≠ 0)) = true) ∧
    (sessionOf (served [session0 []]) 9 = some (session0 []) ∧ canReach (served [session0 []]) (0 + secs 5) = true) := by
  refine ⟨by decide +kernel, by decide +kernel, by decide +kernel, ?_, by decide +kernel, by decide +kernel⟩
  intro b h
  simp only [session0, Option.some.injEq] at h
  subst h
  decide +kernel

/-- A device on which a block of Table 15.3 is in a phase, and one whose collector is in state f. -/
def inPhase (kind b phase : Nat) : Dev := { dev with faults := { Faults.reset with blocks := [(kind * 256 + b, ⟨phase, 1, 0, 0, [], 0⟩)] } }
theorem witness_FaultReports :
    (reportable dev 0 0x0101 0 0 = true ∧ reportable dev 0 0x0101 32 0 = false ∧ quenched dev = false ∧ dev.faults.blocks = [] ∧
      dev.faults.low = [] ∧ dev.start.resetLow = false) ∧
    ((3 : Nat) < compressorsOf dev ∧ (compUnit dev 3).stream = none ∧ windowOf dev (.compressor 3) = none ∧
      ((blockSt dev 3 3).starts.filter (fun t => decide (now dev ≤ t + msec 10000))).length < 2 ∧ (blockSt dev 3 3).phase ≠ 1 ∧
      (blockSt (inPhase 3 3 1) 3 3).phase = 1 ∧ windowOf (inPhase 5 0 1) (.compressor 3) = none ∧
      (let d := { dev with faults := { Faults.reset with blocks := [(771, ⟨0, 1, 0, 0, [0, 0], 0⟩)] } }
       2 ≤ ((blockSt d 3 3).starts.filter (fun t => decide (now d ≤ t + msec 10000))).length ∧ windowOf d (.compressor 3) = none)) ∧
    (quenched { dev with start := { dev.start with state := 4 } } = true ∧ dev.faults.quench = 0) ∧
    ((blockSt (inPhase 6 0 2) 6 0).phase = 2 ∧ windowStands (setBlock (inPhase 6 0 2) 6 0 { blockSt (inPhase 6 0 2) 6 0 with phase := 0 }) = false ∧
      busEnabled { bus 5 0 with faults := (inPhase 6 0 2).faults } 0 = true ∧ dev.faults.emcyLast = none) ∧
    (windowStands dev = false ∧ windowStands (inPhase 6 0 2) = true ∧ canReach dev (0 + msec 100) = true ∧ canReach dev (heartbeatDue dev) = true) ∧
    (dev.start.ready = true ∧ dev.faults.hbLost = none ∧ { dev.faults with hbLost := some 0 }.hbLost = some 0 ∧ dev.faults.hbArmed = false ∧
      dev.start.kind < 6 ∧ dev.start.retention.cold < 2 ∧ { dev.faults with hbArmed := true }.hbArmed = true) := by
  refine ⟨by decide +kernel, by decide +kernel, by decide +kernel, by decide +kernel, by decide +kernel, by decide +kernel⟩

/-- The smallest image, of one byte, and a flash slot that holds it. -/
def image0 : Bytes :=
  ⟨513, setF (setF (setF 0 ImageHdr.magic 0x51465731) ImageHdr.imageLength 1) ImageHdr.rollbackIndex 65535⟩
/-- It is accepted, whatever the chip's stepping and fused index are. -/
theorem image0_ok (d : Dev) (h : d.start.fused = 0) : imageOk d (imageOf d image0 true) = true := by
  have h1 : getF image0.val ImageHdr.magic = 0x51465731 := by decide +kernel
  have h2 : getF image0.val ImageHdr.imageLength = 1 := by decide +kernel
  have h3 : getF image0.val ImageHdr.keyIndex = 0 := by decide +kernel
  have h4 : getF image0.val ImageHdr.minStepping = 0 := by decide +kernel
  have h5 : getF image0.val ImageHdr.rollbackIndex = 65535 := by decide +kernel
  have h6 : image0.len = 513 := rfl
  simp [imageOk, imageOf, fusedIndex, flashSlot, h, h1, h2, h3, h4, h5, h6]
  omega
theorem witness_Starts :
    (Dev.reset.start.resetLow = true ∧ quenched Dev.reset = false ∧ Dev.reset.start.retention.cold < 2 ∧
      failsIn { world0 with fail := some (3, 1) } 1 3 = some (3, 1) ∧ failsIn world0 1 3 = none ∧ failsIn world0 4 8 = none ∧
      failsIn world0 9 10 = none ∧ failsIn world0 4 6 = none ∧ 16 ≤ trainedGiB Dev.reset world0 ∧
      trainedGiB Dev.reset { world0 with drams := [8, 3, 8, 8] } < 16 ∧
      foundImage Dev.reset ⟨image0, true⟩ = some (imageOf Dev.reset image0 true) ∧ imageOk Dev.reset (imageOf Dev.reset image0 true) = true) ∧
    (let d := { dev with start := { dev.start with state := 0, step := 10, world := some world0, ready := false } }
     d.start.state = 0 ∧ d.start.step = 10 ∧ d.start.world = some world0 ∧ failsIn world0 11 12 = none ∧ Served d Obj.startCommand) ∧
    (Served dev Obj.startCommand ∧ dev.start.state = 1 ∧ Served { dev with start := { dev.start with state := 3 } } Obj.startCommand) ∧
    (let d := { dev with start := { dev.start with state := 2, due := some 9, kind := 9, selftest := true, retention := { Retention.reset with warm := 2 } } }
     d.start.due = some 9 ∧ d.start.kind = 9 ∧ d.start.state = 2 ∧ 2 ≤ d.start.retention.warm ∧ failsIn { world0 with fail := some (7, 1) } 1 7 = some (7, 1) ∧
     failsIn world0 9 11 = none ∧ world0.imageOk = true) ∧
    (let d := { dev with start := { dev.start with due := some 5, kind := 5, retention := { Retention.reset with cold := 2 } } }
     d.start.due = some 5 ∧ d.start.kind < 6 ∧ 2 ≤ d.start.retention.cold ∧ quenched d = false ∧ d.start.resetLow = false) := by
  refine ⟨⟨rfl, rfl, by decide, rfl, rfl, rfl, rfl, rfl, by decide +kernel, by decide +kernel, rfl, image0_ok _ rfl⟩,
    ⟨rfl, rfl, rfl, rfl, by decide, by decide⟩, ⟨⟨by decide, by decide⟩, rfl, by decide, by decide⟩, by decide +kernel, by decide +kernel⟩

/-- Bytes received from offset 0 on are the image. -/
theorem received_one (b : Bytes) (h : b.val < 2 ^ (8 * b.len)) : receivedImage { dev with start := { dev.start with load := [(0, b)] } } = b := by
  have e : ∀ g n v : Nat, v < 2 ^ n → setF (g % 2 ^ n) ⟨0, n⟩ v = v := by
    intro g n v hv
    simp [setF, Nat.mod_one, Nat.mod_eq_of_lt hv, Nat.shiftRight_eq_div_pow, Nat.div_eq_of_lt (Nat.mod_lt g (Nat.two_pow_pos n))]
  simp [receivedImage, e _ _ _ h]
/-- A device that waits in step 8 for an image, with bytes received. -/
def loading : Dev := { dev with start := { dev.start with state := 0, step := 8, world := some world0, ready := false, loadStatus := 1 } }
theorem witness_FirmwareAndSupplies :
    Served dev Obj.firmwareLoadData ∧ Served loading Obj.firmwareLoadCommand ∧ awaitsImage loading = true ∧ awaitsImage dev = false ∧
    imageOk dev (imageOf dev image0 true) = true ∧ imageOk dev (imageOf dev image0 false) = false ∧
    receivedImage { dev with start := { dev.start with load := [(0, image0)] } } = image0 ∧
    loading.start.world = some world0 ∧ loading.start.step = 8 ∧ failsIn world0 9 10 = none ∧
    (oget (oset loading Obj.firmwareLoadTarget 0 0 2) Obj.firmwareLoadTarget 0 0 = 2 ∧ ogetN (oset dev Obj.firmwareLoadTarget 0 0 0) Obj.firmwareLoadTarget 0 0 = 0) ∧
    canReach loading (loading.start.waitFrom + msec (ogetN loading Obj.firmwareLoadTimeout 0 0)) = true ∧ loading.start.kind < 6 ∧
    (dev.start.armed = true ∧ dev.faults.quench = 0 ∧ Dev.reset.start.armed = false) ∧
    (let d := oset (oset dev Obj.thermalWarning 0 0 1000) Obj.overTemperatureLimit 0 0 1100
     dev.start.warned = false ∧ oget d Obj.thermalWarning 0 0 ≤ 1000 ∧ oget d Obj.overTemperatureLimit 0 0 ≤ 1100 ∧
     1099 < oget d Obj.overTemperatureLimit 0 0 ∧ (∀ t ∈ List.replicate 6 (950 : Int), t ≤ oget d Obj.thermalWarning 0 0 - 50) ∧
     (List.replicate 6 (950 : Int)).length = 6 ∧ ∃ t ∈ [951, 0, 0, 0, 0, (0 : Int)], oget d Obj.thermalWarning 0 0 - 50 < t) := by
  refine ⟨⟨by decide, by decide⟩, ⟨by decide, by decide⟩, by decide, by decide, image0_ok _ rfl, by simp [imageOk, imageOf], ?_, rfl, rfl, rfl,
    by decide +kernel, by decide +kernel, by decide, by decide, by decide +kernel⟩
  exact received_one image0 (by decide +kernel)


/-! The queue and the memories. -/

theorem witness_EmptyQueueIdles : (st dev).pending = [] := rfl
theorem witness_MemoryStaysCanonical : (st dev).memWf ∧ ∃ t, step (st dev) = .next t := ⟨rfl, _, rfl⟩
theorem witness_OnlyEnginesReachMemory : (Instr.queueReset 197632).reachesMemory = false := rfl

end Sys2Proof.Tests
end

/-! SUPPORT. O49: what one step does with a frame that arrives (Tables 3.3, 3.4, 3.6), with the frames that wait at a port (R46, R60),
and with a frame of a channel's work (R17, R210). -/
namespace Sys2Proof.Machine

/-! ### Objects by their place in the dictionary -/

/-- Where element j of an object stands: its index and subindex. -/
def Row.place (r : Row) (j : Nat) : Nat := (r.idx * 256 + (r.sub + j)) % 2 ^ 24

/-- The same place in every copy of the object. -/
theorem key_place (r : Row) (i j : Nat) : r.key i j % 2 ^ 24 = r.place j := by
  unfold Row.key Row.place; omega

/-- Whether a default is one number, whatever the device holds. -/
def Dflt.fixed : Dflt → Bool
  | .num _ => true
  | _ => false

theorem dfltOf_fixed (d n : Dev) (r : Row) (i j : Nat) (h : r.dflt.fixed = true) : dfltOf n r i j = dfltOf d r i j := by
  unfold dfltOf
  cases hr : r.dflt <;> simp [hr, Dflt.fixed] at h ⊢

/-- `n` holds what `d` holds in every object but those at the places `l`. -/
def Dev.ObjBut (l : List Nat) (d n : Dev) : Prop := ∀ k, k % 2 ^ 24 ∉ l → sfind n.dict.obj k = sfind d.dict.obj k

theorem Dev.ObjBut.of_eq {l : List Nat} {d n : Dev} (h : n.dict.obj = d.dict.obj) : Dev.ObjBut l d n := fun k _ => by rw [h]

theorem Dev.ObjBut.trans {l : List Nat} {a b c : Dev} (h : Dev.ObjBut l a b) (k : Dev.ObjBut l b c) : Dev.ObjBut l a c :=
  fun x hx => (k x hx).trans (h x hx)

theorem Dev.ObjBut.ofind {l : List Nat} {d n : Dev} (h : Dev.ObjBut l d n) (r : Row) (i j : Nat) (hp : r.place j ∉ l) :
    ofind n r i j = ofind d r i j := h _ (by rwa [key_place])

/-- An object with a fixed default reads the same where its place is none of those. -/
theorem Dev.ObjBut.oget {l : List Nat} {d n : Dev} (h : Dev.ObjBut l d n) (r : Row) (i j : Nat) (hp : r.place j ∉ l)
    (hr : r.dflt.fixed = true) : oget n r i j = oget d r i j := by
  unfold Machine.oget
  rw [h.ofind r i j hp, dfltOf_fixed d n r i j hr]

theorem Dev.ObjBut.ogetN {l : List Nat} {d n : Dev} (h : Dev.ObjBut l d n) (r : Row) (i j : Nat) (hp : r.place j ∉ l)
    (hr : r.dflt.fixed = true) : ogetN n r i j = ogetN d r i j := by
  unfold Machine.ogetN
  rw [h.oget r i j hp hr]

theorem Dev.ObjBut.ogetB {l : List Nat} {d n : Dev} (h : Dev.ObjBut l d n) (r : Row) (i j : Nat) (hp : r.place j ∉ l)
    (hr : r.dflt.fixed = true) : ogetB n r i j = ogetB d r i j := by
  unfold Machine.ogetB
  rw [h.oget r i j hp hr]

theorem oset_objBut (l : List Nat) (d : Dev) (r : Row) (i j : Nat) (v : Int) (h : r.place j ∈ l) : Dev.ObjBut l d (oset d r i j v) :=
  fun k hk => sfind_sput_other _ _ _ _ (fun e => hk (by rw [e, key_place]; exact h))

theorem bumpBy_objBut (l : List Nat) (d : Dev) (r : Row) (i j : Nat) (v : Int) (h : r.place j ∈ l) :
    Dev.ObjBut l d (bumpBy d r i j v) := oset_objBut l d r i j _ h

theorem bump_objBut (l : List Nat) (d : Dev) (r : Row) (i j : Nat) (h : r.place j ∈ l) : Dev.ObjBut l d (bump d r i j) :=
  bumpBy_objBut l d r i j 1 h

@[simp] theorem oget_bumpBy_same (d : Dev) (r : Row) (i j : Nat) (v : Int) : oget (bumpBy d r i j v) r i j = oget d r i j + v := by
  simp [bumpBy]

@[simp] theorem oget_bump_same (d : Dev) (r : Row) (i j : Nat) : oget (bump d r i j) r i j = oget d r i j + 1 := by
  simp [bump]

/-- A counter at another place leaves an object with a fixed default. -/
theorem oget_bumpBy_apart (d : Dev) (r q : Row) (i j k l : Nat) (v : Int) (h : q.place l ≠ r.place j) (hq : q.dflt.fixed = true) :
    oget (bumpBy d r i j v) q k l = oget d q k l :=
  (bumpBy_objBut [r.place j] d r i j v (by simp)).oget q k l (by simpa using h) hq

theorem oget_bump_apart (d : Dev) (r q : Row) (i j k l : Nat) (h : q.place l ≠ r.place j) (hq : q.dflt.fixed = true) :
    oget (bump d r i j) q k l = oget d q k l := oget_bumpBy_apart d r q i j k l 1 h hq

/-! ### No time passes -/

/-- The clocks over no time at all: only what is left below the unit is reduced (R21). -/
theorem advance_zero (t : TimeUnit) (rate : Nat) : t.advance rate 0 = { t with frac := t.frac % 2 ^ 33 } := by
  have hg : servoGain t 0 = (0, t.frac % 2 ^ 33) := by
    unfold servoGain
    refine Prod.ext ?_ ?_ <;> simp <;> omega
  have hp : domainPull t 0 = 0 := by simp [domainPull]
  have hm : ∀ t : TimeUnit, mediaPull rate t 0 = 0 := by intro t; simp [mediaPull]
  unfold TimeUnit.advance
  simp [hg, hp, hm, moveTime]

theorem ceilDiv_zero (b : Nat) : ceilDiv 0 b = 0 := by
  unfold ceilDiv
  rcases Nat.eq_zero_or_pos b with h | h
  · simp [h]
  · exact Nat.div_eq_of_lt (by omega)

/-- Where no time passes the device is the same, but for what is left of network time below its unit. -/
theorem passTime_zero (d : Dev) : ∃ f, passTime d 0 = { d with time := { d.time with frac := f } } := by
  unfold passTime
  rw [advance_zero]
  dsimp only
  split
  · rename_i h
    simp only [Bool.and_eq_true, decide_eq_true_eq] at h
    have h0 : toTick d = 0 := by unfold toTick; omega
    refine ⟨(d.time.advanceMedia (slewRate d) 0).frac, ?_⟩
    rw [h0]
    simp [TimeUnit.advanceMedia, mediaPull, domainPull, moveTime, elapsedFor, ceilDiv_zero]
  · exact ⟨_, rfl⟩

/-! ### Counters that a received frame raises before it is classified -/

/-- `n` is `d` but for objects at the places `l` and for what is left of network time below its unit. -/
def Dev.Tallied (l : List Nat) (d n : Dev) : Prop :=
  (∃ f m, n = { d with time := { d.time with frac := f }, dict := { d.dict with obj := m } }) ∧ Dev.ObjBut l d n

theorem Dev.Tallied.trans {l : List Nat} {a b c : Dev} (h : Dev.Tallied l a b) (k : Dev.Tallied l b c) : Dev.Tallied l a c := by
  obtain ⟨⟨f, m, rfl⟩, hab⟩ := h
  obtain ⟨⟨g, o, rfl⟩, hbc⟩ := k
  exact ⟨⟨g, o, rfl⟩, hab.trans hbc⟩

theorem bumpBy_tallied (l : List Nat) (d : Dev) (r : Row) (i j : Nat) (v : Int) (h : r.place j ∈ l) :
    Dev.Tallied l d (bumpBy d r i j v) := ⟨⟨_, _, rfl⟩, bumpBy_objBut l d r i j v h⟩

theorem Dev.Tallied.bumpBy {l : List Nat} {d n : Dev} (h : Dev.Tallied l d n) (r : Row) (i j : Nat) (v : Int) (hp : r.place j ∈ l) :
    Dev.Tallied l d (bumpBy n r i j v) := h.trans (bumpBy_tallied l n r i j v hp)

theorem passTime_zero_tallied (l : List Nat) (d : Dev) : Dev.Tallied l d (passTime d 0) := by
  obtain ⟨f, h⟩ := passTime_zero d
  rw [h]
  exact ⟨⟨f, _, rfl⟩, Dev.ObjBut.of_eq rfl⟩

section
variable {l : List Nat} {d n : Dev} (h : Dev.Tallied l d n)
include h

theorem Dev.Tallied.fwd : n.fwd = d.fwd := by obtain ⟨⟨f, m, rfl⟩, -⟩ := h; rfl
theorem Dev.Tallied.queues : n.queues = d.queues := by obtain ⟨⟨f, m, rfl⟩, -⟩ := h; rfl
theorem Dev.Tallied.out : n.out = d.out := by obtain ⟨⟨f, m, rfl⟩, -⟩ := h; rfl
theorem Dev.Tallied.start : n.start = d.start := by obtain ⟨⟨f, m, rfl⟩, -⟩ := h; rfl
theorem Dev.Tallied.chans : n.chans = d.chans := by obtain ⟨⟨f, m, rfl⟩, -⟩ := h; rfl
theorem Dev.Tallied.oa : n.oa = d.oa := by obtain ⟨⟨f, m, rfl⟩, -⟩ := h; rfl
theorem Dev.Tallied.elapsed : n.time.elapsed = d.time.elapsed := by obtain ⟨⟨f, m, rfl⟩, -⟩ := h; rfl

theorem Dev.Tallied.lanesOf : lanesOf n = lanesOf d := by simp only [Machine.lanesOf, byTier, h.start]
theorem Dev.Tallied.portOf (p : Nat) : portOf n p = portOf d p := by simp only [Machine.portOf, h.fwd]
theorem Dev.Tallied.queueOf (q : Nat) : queueOf n q = queueOf d q := by simp only [Machine.queueOf, h.queues]

end

/-- A search finds the same by two tests that agree on the list. -/
theorem find?_congr_mem {α : Type} {p q : α → Bool} {l : List α} (h : ∀ a ∈ l, p a = q a) : l.find? p = l.find? q := by
  induction l with
  | nil => rfl
  | cons a l ih =>
    rw [List.find?_cons, List.find?_cons, h a List.mem_cons_self, ih (fun b hb => h b (List.mem_cons_of_mem a hb))]

/-- The objects that count a frame on its arrival, and one that no flow entry takes (R44, R50). -/
def arrivalPlaces : List Nat :=
  (List.range 13).map Obj.rxCounters.place ++ [Obj.fecCorrected.place 0, Obj.fecUncorrected.place 0, Obj.flowMissFrames.place 0]

/-- No tier powers more than 32 lanes (Table 1.5). -/
theorem lanesOf_le (d : Dev) : lanesOf d ≤ 32 := by
  unfold lanesOf byTier
  split <;> decide

section
variable {d n : Dev} (h : Dev.Tallied arrivalPlaces d n)
include h

/-! What they leave: the ports and their rates, the classification, the acceptance of the queues. -/

theorem Dev.Tallied.portLanes (p : Nat) : portLanes n p = portLanes d p := by
  unfold Machine.portLanes groupMode
  rw [h.lanesOf]
  split
  · rfl
  · have hp : p < 32 := by have := lanesOf_le d; omega
    have ha : ∀ g < 8, Obj.laneGroupMode.place g ∉ arrivalPlaces := by decide
    rw [h.2.ofind Obj.laneGroupMode 0 (p / 4) (ha _ (by omega))]

theorem Dev.Tallied.bitTimes (p k : Nat) : bitTimes n p k = bitTimes d p k := by
  simp only [Machine.bitTimes, rateGbps, rateCode, h.portLanes, h.2.ofind Obj.portRate p 0 (by decide)]

theorem Dev.Tallied.sizeLimit (p k : Nat) : sizeLimit n p k = sizeLimit d p k := by
  unfold Machine.sizeLimit
  rw [h.2.ogetN Obj.maxFrameSize p 0 (by decide) rfl]

theorem Dev.Tallied.defectOf (p : Nat) (f : Frame) : defectOf n p f = defectOf d p f := by
  unfold Machine.defectOf
  rw [h.sizeLimit]

theorem Dev.Tallied.mediaIndex (a : Nat) : mediaIndex n a = mediaIndex d a := by
  have hp : ∀ i < 16, Obj.mediaAddress.place i ∉ arrivalPlaces := by decide
  unfold Machine.mediaIndex
  split
  · rfl
  · refine find?_congr_mem (fun i hi => ?_)
    rw [h.2.ogetN Obj.mediaAddress 0 i (hp i (List.mem_range.mp hi)) rfl]

theorem Dev.Tallied.keysAgree (m a b : Nat) : keysAgree n m a b = keysAgree d m a b := by
  unfold Machine.keysAgree
  rw [h.2.ogetN Obj.fieldMask m 0 (by decide) rfl, h.2.ogetN Obj.srcPrefix m 0 (by decide) rfl,
    h.2.ogetN Obj.dstPrefix m 0 (by decide) rfl]

theorem Dev.Tallied.flowHit (key : Nat) : flowHit n key = flowHit d key := by
  unfold Machine.flowHit installed
  simp only [h.fwd, h.keysAgree, h.2.ogetB Obj.profEnable _ 0 (by decide) rfl, h.2.ogetN Obj.flowProfile _ 0 (by decide) rfl,
    h.2.ogetN Obj.flowKey _ 0 (by decide) rfl]

theorem Dev.Tallied.isWord (q : Nat) : isWord n q = isWord d q := by
  unfold Machine.isWord
  rw [h.2.ogetN Obj.itemMode q 0 (by decide) rfl]

theorem Dev.Tallied.cellsHeld (q : Nat) : cellsHeld n q = cellsHeld d q := by
  unfold Machine.cellsHeld
  rw [h.oa, h.queueOf, h.isWord]

theorem Dev.Tallied.freeCells : freeCells n = freeCells d := by
  unfold Machine.freeCells heldCells
  simp only [h.oa, h.queues, h.isWord]

theorem Dev.Tallied.queueClassA (q : Nat) : queueClassA n q = queueClassA d q := by
  have hc : oget n Obj.queueClassA q 0 = oget d Obj.queueClassA q 0 := by
    have hd : dfltOf n Obj.queueClassA q 0 = dfltOf d Obj.queueClassA q 0 := by
      simp only [dfltOf, Obj.queueClassA, h.chans, h.2.ofind Obj.voicePriorityMask 0 0 (by decide)]
    unfold oget
    rw [h.2.ofind Obj.queueClassA q 0 (by decide), hd]
  unfold Machine.queueClassA ogetB
  rw [hc]
  simp only [List.range, List.range.loop, List.any_cons, List.any_nil, h.2.ogetN Obj.traceQueue 0 0 (by decide) rfl,
    h.2.ogetN Obj.traceQueue 0 1 (by decide) rfl, h.2.ogetN Obj.traceQueue 0 2 (by decide) rfl,
    h.2.ogetN Obj.traceQueue 0 3 (by decide) rfl]

theorem Dev.Tallied.pushVerdict (q k : Nat) : pushVerdict n q k = pushVerdict d q k := by
  have hl : ogetN n Obj.queueDepthLimit q 0 = ogetN d Obj.queueDepthLimit q 0 := by
    unfold Machine.ogetN oget
    rw [h.2.ofind Obj.queueDepthLimit q 0 (by decide)]
    rfl
  unfold Machine.pushVerdict
  rw [hl, h.cellsHeld, h.queueClassA, h.freeCells, h.2.ogetN Obj.classAReserve 0 0 (by decide) rfl]

end

/-! ### A notice of class FC0 -/

/-- The objects in which the collector counts a report of class FC0 (R298, R303 to R305). -/
def noticePlaces : List Nat :=
  [Obj.faultDetected.place 0, Obj.faultConsequential.place 0, Obj.consequentialReports.place 0, Obj.faultCoalesced.place 0,
   Obj.faultLost.place 0, Obj.faultLogged.place 0, Obj.ringOverwritten.place 0]

/-- `n` is `d` after a report of class FC0: nothing is sent, and only the collector's counters move. -/
def Dev.Noticed (d n : Dev) : Prop := Dev.ObjBut noticePlaces d n ∧ n.out = d.out

theorem Dev.Noticed.refl (d : Dev) : Dev.Noticed d d := ⟨Dev.ObjBut.of_eq rfl, rfl⟩

theorem Dev.Noticed.trans {a b c : Dev} (h : Dev.Noticed a b) (k : Dev.Noticed b c) : Dev.Noticed a c :=
  ⟨h.1.trans k.1, k.2.trans h.2⟩

theorem bump_noticed (d : Dev) (r : Row) (i j : Nat) (h : r.place j ∈ noticePlaces) : Dev.Noticed d (bump d r i j) :=
  ⟨bump_objBut _ d r i j h, rfl⟩

theorem bumpIf_noticed (c : Bool) (d : Dev) (r : Row) (i j : Nat) (h : r.place j ∈ noticePlaces) :
    Dev.Noticed d (bumpIf c d r i j) := by
  cases c
  · exact Dev.Noticed.refl d
  · exact bump_noticed d r i j h

theorem onFaults_noticed (d : Dev) (f : Faults) : Dev.Noticed d { d with faults := f } := ⟨Dev.ObjBut.of_eq rfl, rfl⟩

theorem logReport_noticed (d : Dev) (code inst detail : Nat) (escal : Bool) :
    Dev.Noticed d (logReport d 0 code inst detail escal).dev := by
  unfold logReport
  extract_lets win cause d1 d2 d3 merges low f0 seq e f d4 f1 d5
  have h1 : Dev.Noticed d d1 := bump_noticed _ _ _ _ (by decide)
  have h2 : Dev.Noticed d1 d2 := bumpIf_noticed _ _ _ _ _ (by decide)
  have h3 : ∀ w : Option (Nat × Nat), Dev.Noticed d2 (match w with
      | some w => bump d2 Obj.consequentialReports w.1 0
      | none => d2) := by
    intro w
    cases w
    · exact Dev.Noticed.refl d2
    · exact bump_noticed _ _ _ _ (by decide)
  have h : Dev.Noticed d d3 := (h1.trans h2).trans (h3 win)
  split
  · exact h.trans ((onFaults_noticed _ _).trans (bump_noticed _ _ _ _ (by decide)))
  · split
    · exact h.trans ((onFaults_noticed _ _).trans (bump_noticed _ _ _ _ (by decide)))
    · exact (h.trans ((onFaults_noticed _ _).trans (bump_noticed _ _ _ _ (by decide)))).trans (onFaults_noticed _ _)

/-- A report of class FC0 asserts no FAULT_N, stands nowhere and sends no EMCY (R277, R308). -/
theorem report_noticed (d : Dev) (code inst detail : Nat) : Dev.Noticed d (report d 0 code inst detail) :=
  logReport_noticed d code inst detail false

/-! ### A frame that is counted and delivered nowhere (R44, Table 3.3) -/

/-- A frame of port p has ended: it counts among the received frames, with what FEC corrected and could not (R44). -/
def arrived (d : Dev) (p : Nat) (f : Frame) : Dev :=
  bumpBy (bumpBy (rxCount (passTime d 0) p 0) Obj.fecCorrected p 0 f.fixed) Obj.fecUncorrected p 0 f.lost

theorem arrived_tallied (d : Dev) (p : Nat) (f : Frame) : Dev.Tallied arrivalPlaces d (arrived d p f) :=
  (((passTime_zero_tallied _ d).bumpBy Obj.rxCounters p 0 1 (by decide)).bumpBy Obj.fecCorrected p 0 _ (by decide)).bumpBy
    Obj.fecUncorrected p 0 _ (by decide)

theorem rx_place_mem : ∀ j < 13, Obj.rxCounters.place j ∈ arrivalPlaces := by decide

theorem passTime_oget (d : Dev) (dt : Nat) (r : Row) (i j : Nat) (hr : r.dflt.fixed = true) :
    oget (passTime d dt) r i j = oget d r i j :=
  (Dev.ObjBut.of_eq (l := []) (by rw [passTime_dict])).oget r i j (by simp) hr

/-- Of the counters of received frames the first has risen by one. -/
theorem arrived_rx (d : Dev) (p : Nat) (f : Frame) (j : Nat) (hj : j < 13) :
    oget (arrived d p f) Obj.rxCounters p j = if j = 0 then oget d Obj.rxCounters p 0 + 1 else oget d Obj.rxCounters p j := by
  have hp : ∀ j < 13, Obj.rxCounters.place j ≠ Obj.fecCorrected.place 0 ∧ Obj.rxCounters.place j ≠ Obj.fecUncorrected.place 0
      ∧ (j ≠ 0 → Obj.rxCounters.place j ≠ Obj.rxCounters.place 0) := by decide
  obtain ⟨h1, h2, h3⟩ := hp j hj
  unfold arrived rxCount
  rw [oget_bumpBy_apart _ _ _ _ _ _ _ _ h2 rfl, oget_bumpBy_apart _ _ _ _ _ _ _ _ h1 rfl]
  split
  · subst j
    rw [oget_bump_same, passTime_oget _ _ _ _ _ rfl]
  · rename_i h
    rw [oget_bump_apart _ _ _ _ _ _ _ (h3 h) rfl, passTime_oget _ _ _ _ _ rfl]

/-- A port that takes frames: it exists with its link up, and the device runs. -/
structure TakesFrames (d : Dev) (p : Nat) : Prop where
  exists_ : portExists d p = true
  up : (portOf d p).linkUp = true
  awake : d.start.resetLow = false
  runs : d.start.state = 1

/-- What becomes of a frame on a port that takes frames, in the order of Table 3.3. -/
theorem frameReceived_taken {d : Dev} {p : Nat} (h : TakesFrames d p) (f : Frame) : frameReceived p 0 f d =
    if f.full then report (rxCount (arrived d p f) p 9) 0 0x0102 p 0
    else
      match defectOf (arrived d p f) p f with
      | some (j, keep) =>
        let d := rxCount (arrived d p f) p j
        match keep with
        | some n => if ogetB d Obj.deliverBad p 0 then deliverBad d p n f else d
        | none => d
      | none =>
        let d := bumpBy (rxCount (arrived d p f) p 1) Obj.rxCounters p 2 (f.octets : Nat)
        ingressPause (goodFrame d p f) p f.prio := by
  obtain ⟨fr, he⟩ := passTime_zero d
  have hpass : (!portExists (passTime d 0) p || !(portOf (passTime d 0) p).linkUp || (passTime d 0).start.resetLow ||
      quenched (passTime d 0)) = false := by
    have h1 : portExists (passTime d 0) p = portExists d p := by rw [he]; rfl
    have h2 : portOf (passTime d 0) p = portOf d p := by rw [he]; rfl
    simp [h1, h2, quenched, h.exists_, h.up, h.awake, h.runs]
  unfold frameReceived
  dsimp only
  rw [if_neg (by rw [hpass]; exact Bool.false_ne_true)]
  rfl

/-- A frame is counted by counter j and among the received frames, joins no queue, and nothing is sent. -/
def CountedOnly (d n : Dev) (p j : Nat) : Prop :=
  oget n Obj.rxCounters p j = oget d Obj.rxCounters p j + 1 ∧ oget n Obj.rxCounters p 0 = oget d Obj.rxCounters p 0 + 1 ∧
    n.queues = d.queues ∧ n.out = d.out ∧ n.start = d.start

theorem rxCount_arrived_countedOnly (d : Dev) (p : Nat) (f : Frame) (j : Nat) (h0 : j ≠ 0) (hj : j < 13) :
    CountedOnly d (rxCount (arrived d p f) p j) p j := by
  have hp : ∀ j < 13, j ≠ 0 → Obj.rxCounters.place 0 ≠ Obj.rxCounters.place j := by decide
  have ht := arrived_tallied d p f
  refine ⟨?_, ?_, ht.queues, ht.out, ht.start⟩
  · unfold rxCount
    rw [oget_bump_same, arrived_rx _ _ _ _ hj, if_neg h0]
  · unfold rxCount
    rw [oget_bump_apart _ _ _ _ _ _ _ (hp j hj h0) rfl, arrived_rx _ _ _ _ (by omega), if_pos rfl]

/-- The crossing FIFO is full (Table 3.3). -/
theorem frameReceived_full {d : Dev} {p : Nat} (h : TakesFrames d p) (f : Frame) (hf : f.full = true) :
    CountedOnly d (frameReceived p 0 f d) p 9 := by
  rw [frameReceived_taken h, if_pos hf]
  obtain ⟨h9, h0, hq, ho, hs⟩ := rxCount_arrived_countedOnly d p f 9 (by decide) (by decide)
  obtain ⟨hobj, hout⟩ := report_noticed (rxCount (arrived d p f) p 9) 0x0102 p 0
  refine ⟨?_, ?_, (report_queues ..).trans hq, hout.trans ho, (report_start ..).trans hs⟩
  · rw [hobj.oget Obj.rxCounters p 9 (by decide) rfl, h9]
  · rw [hobj.oget Obj.rxCounters p 0 (by decide) rfl, h0]

/-- A frame with a defect, without DELIVER_BAD (Table 3.3, R45). -/
theorem frameReceived_defect {d : Dev} {p : Nat} (h : TakesFrames d p) (f : Frame) (hf : f.full = false)
    (hb : oget d Obj.deliverBad p 0 = 0) {j : Nat} {keep : Option Nat} (hd : defectOf d p f = some (j, keep)) (h0 : j ≠ 0) (hj : j < 13) :
    CountedOnly d (frameReceived p 0 f d) p j := by
  have ht : Dev.Tallied arrivalPlaces d (rxCount (arrived d p f) p j) :=
    (arrived_tallied d p f).bumpBy Obj.rxCounters p j 1 (rx_place_mem j hj)
  have hn : ogetB (rxCount (arrived d p f) p j) Obj.deliverBad p 0 = false := by
    rw [ht.2.ogetB Obj.deliverBad p 0 (by decide) rfl]
    simp [ogetB, hb]
  have he : frameReceived p 0 f d = rxCount (arrived d p f) p j := by
    rw [frameReceived_taken h, if_neg (by simp [hf]), (arrived_tallied d p f).defectOf, hd]
    cases keep with
    | none => rfl
    | some n => simp [hn]
  rw [he]
  exact rxCount_arrived_countedOnly d p f j h0 hj

/-! ### Ports -/

@[simp] theorem portOf_setPort_same (d : Dev) (p : Nat) (x : Port) : portOf (setPort d p x) p = x := by
  simp [portOf, setPort]

theorem portOf_setPort_other (d : Dev) (p a : Nat) (x : Port) (h : a ≠ p) : portOf (setPort d p x) a = portOf d a := by
  simp [portOf, setPort, sget_sput_other _ _ _ _ _ h]

/-- A port whose pauses are kept keeps every pause. -/
theorem pauseOf_setPort (d : Dev) (p : Nat) (x : Port) (hx : x.pauses = (portOf d p).pauses) (a q : Nat) :
    pauseOf (setPort d p x) a q = pauseOf d a q := by
  unfold pauseOf
  by_cases h : a = p
  · subst h; rw [portOf_setPort_same, hx]
  · rw [portOf_setPort_other _ _ _ _ h]

@[simp] theorem pauseOf_setPause_same (d : Dev) (p q : Nat) (x : Pause) : pauseOf (setPause d p q x) p q = x := by
  simp [pauseOf, setPause]

theorem pauseOf_setPause_other (d : Dev) (p q r : Nat) (x : Pause) (h : r ≠ q) : pauseOf (setPause d p q x) p r = pauseOf d p r := by
  simp [pauseOf, setPause, sget_sput_other _ _ _ _ _ h]

/-! ### The pause that a port sends (R48) -/

/-- The counters of transmitted frames that a frame of the MAC's own moves. -/
def txPlaces : List Nat := [Obj.txCounters.place 0, Obj.txCounters.place 1, Obj.txCounters.place 2]

/-- `n` is `d` but for pause that a port has sent: queues, admission, the clocks and pauses received stay. -/
structure Dev.PauseSent (d n : Dev) : Prop where
  queues : n.queues = d.queues
  order : n.fwd.order = d.fwd.order
  time : n.time = d.time
  start : n.start = d.start
  pauses : ∀ a q, pauseOf n a q = pauseOf d a q
  obj : Dev.ObjBut txPlaces d n

theorem Dev.PauseSent.refl (d : Dev) : Dev.PauseSent d d := ⟨rfl, rfl, rfl, rfl, fun _ _ => rfl, Dev.ObjBut.of_eq rfl⟩

theorem Dev.PauseSent.trans {a b c : Dev} (h : Dev.PauseSent a b) (k : Dev.PauseSent b c) : Dev.PauseSent a c :=
  ⟨k.queues.trans h.queues, k.order.trans h.order, k.time.trans h.time, k.start.trans h.start,
   fun p q => (k.pauses p q).trans (h.pauses p q), h.obj.trans k.obj⟩

theorem setXoff_pauseSent (d : Dev) (p k : Nat) (v : Option (Nat × Bool)) : Dev.PauseSent d (setXoff d p k v) :=
  ⟨rfl, rfl, rfl, rfl, pauseOf_setPort d p _ rfl, Dev.ObjBut.of_eq rfl⟩

theorem sendPause_pauseSent (d : Dev) (p k quanta : Nat) : Dev.PauseSent d (sendPause d p k quanta) :=
  ⟨rfl, rfl, rfl, rfl, fun _ _ => rfl,
    ((Dev.ObjBut.of_eq rfl).trans (bump_objBut _ (emit d _) Obj.txCounters p 0 (by decide))).trans
      ((bumpBy_objBut _ _ Obj.txCounters p 1 _ (by decide)).trans (bump_objBut _ _ Obj.txCounters p 2 (by decide)))⟩

/-- Whether pause is sent, withdrawn or left, nothing but the port's own pause moves. -/
theorem ingressPause_pauseSent (d : Dev) (p q : Nat) : Dev.PauseSent d (ingressPause d p q) := by
  have hsend : ∀ k v n, Dev.PauseSent d (sendPause (setXoff d p k v) p k n) :=
    fun k v n => (setXoff_pauseSent d p k v).trans (sendPause_pauseSent _ p k n)
  unfold ingressPause
  extract_lets k n excess start
  split
  · split
    · exact hsend _ _ _
    · exact Dev.PauseSent.refl d
  · split
    · exact hsend _ _ _
    · split
      · exact setXoff_pauseSent _ _ _ _
      · split
        · exact Dev.PauseSent.refl d
        · exact hsend _ _ _

/-! ### A good frame (R44) -/

/-- A good frame of port p has been counted, with its octets (R44). -/
def counted (d : Dev) (p : Nat) (f : Frame) : Dev :=
  bumpBy (rxCount (arrived d p f) p 1) Obj.rxCounters p 2 (f.octets : Nat)

theorem counted_tallied (d : Dev) (p : Nat) (f : Frame) : Dev.Tallied arrivalPlaces d (counted d p f) :=
  ((arrived_tallied d p f).bumpBy Obj.rxCounters p 1 1 (by decide)).bumpBy Obj.rxCounters p 2 _ (by decide)

theorem counted_frames (d : Dev) (p : Nat) (f : Frame) :
    oget (counted d p f) Obj.rxCounters p 1 = oget d Obj.rxCounters p 1 + 1 := by
  unfold counted
  rw [oget_bumpBy_apart _ _ _ _ _ _ _ _ (by decide) rfl]
  unfold rxCount
  rw [oget_bump_same, arrived_rx _ _ _ _ (by decide)]
  rfl

theorem counted_octets (d : Dev) (p : Nat) (f : Frame) :
    oget (counted d p f) Obj.rxCounters p 2 = oget d Obj.rxCounters p 2 + (f.octets : Nat) := by
  unfold counted
  rw [oget_bumpBy_same]
  unfold rxCount
  rw [oget_bump_apart _ _ _ _ _ _ _ (by decide) rfl, arrived_rx _ _ _ _ (by decide)]
  rfl

theorem counted_pauseFrames (d : Dev) (p : Nat) (f : Frame) :
    oget (counted d p f) Obj.rxCounters p 12 = oget d Obj.rxCounters p 12 := by
  unfold counted rxCount
  rw [oget_bumpBy_apart _ _ _ _ _ _ _ _ (by decide) rfl, oget_bump_apart _ _ _ _ _ _ _ (by decide) rfl,
    arrived_rx _ _ _ _ (by decide)]
  rfl

/-- A frame without defect is counted, goes its way, and its cells may call for pause. -/
theorem frameReceived_good {d : Dev} {p : Nat} (h : TakesFrames d p) (f : Frame) (hf : f.full = false)
    (hd : defectOf d p f = none) :
    frameReceived p 0 f d = ingressPause (goodFrame (counted d p f) p f) p f.prio := by
  rw [frameReceived_taken h, if_neg (by simp [hf]), (arrived_tallied d p f).defectOf, hd]
  rfl

/-- What stands once a good frame has gone its way stands once pause is sent for it, too. -/
theorem frameReceived_good_sent {d : Dev} {p : Nat} (h : TakesFrames d p) (f : Frame) (hf : f.full = false)
    (hd : defectOf d p f = none) : Dev.PauseSent (goodFrame (counted d p f) p f) (frameReceived p 0 f d) := by
  rw [frameReceived_good h f hf hd]
  exact ingressPause_pauseSent _ _ _

/-! ### PAUSE (R47, Table 3.4) -/

/-- A pause of some quanta that begins at `start` on port p (R47). -/
def pauseFrom (d : Dev) (p start quanta : Nat) : Pause :=
  { from_ := some start, until_ := start + bitTimes d p (quanta * 512), ignore := none }

/-- A priority that is not paused and ignores nothing is paused. -/
theorem pausePriority_none {d : Dev} {p q start quanta : Nat} (h : pauseOf d p q = Pause.none) (hq : 0 < quanta) :
    pausePriority d p q start quanta = setPause d p q (pauseFrom d p start quanta) := by
  unfold pausePriority
  rw [h]
  simp [Pause.none, pauseFrom, Nat.ne_of_gt hq]

/-- Each of some priorities that are not paused is paused, the others are left, and nothing else of the device moves. -/
theorem foldl_pausePriority {p start quanta : Nat} (hq : 0 < quanta) (l : List Nat) : ∀ (d : Dev), l.Nodup →
    (∀ q ∈ l, pauseOf d p q = Pause.none) →
    ∃ w, l.foldl (fun d q => pausePriority d p q start quanta) d = { d with fwd := w } ∧
      ∀ q, pauseOf { d with fwd := w } p q = if q ∈ l then pauseFrom d p start quanta else pauseOf d p q := by
  induction l with
  | nil => exact fun d _ _ => ⟨d.fwd, rfl, fun q => by simp⟩
  | cons a l ih =>
    intro d hn h
    obtain ⟨ha, hl⟩ := List.nodup_cons.mp hn
    have hrest : ∀ q ∈ l, pauseOf (setPause d p a (pauseFrom d p start quanta)) p q = Pause.none := fun q hm => by
      have hqa : q ≠ a := fun e => ha (e ▸ hm)
      rw [pauseOf_setPause_other _ _ _ _ _ hqa]
      exact h q (List.mem_cons_of_mem a hm)
    obtain ⟨w, hw, hp⟩ := ih _ hl hrest
    refine ⟨w, ?_, fun q => ?_⟩
    · rw [List.foldl_cons, pausePriority_none (h a List.mem_cons_self) hq, hw]
      rfl
    · refine (hp q).trans ?_
      by_cases hqa : q = a
      · subst hqa
        rw [if_neg ha, pauseOf_setPause_same, if_pos List.mem_cons_self]
      · rw [pauseOf_setPause_other _ _ _ _ _ hqa]
        simp only [List.mem_cons, hqa, false_or]
        rfl

/-- A PAUSE frame to the MAC's multicast address, in mode PAUSE, on a port that sends nothing and is not paused (R47). -/
theorem receiveControl_pause {d : Dev} {p quanta : Nat} (hq : 0 < quanta) (hm : ogetN d Obj.pauseMode p 0 = 1)
    (hp : (portOf d p).pauses = []) (ht : (portOf d p).txPrio = none) :
    ∃ w, receiveControl d p (.pause 0x010000C28001 quanta) = { rxCount d p 12 with fwd := w } ∧
      ∀ q < 8, pauseOf { rxCount d p 12 with fwd := w } p q = pauseFrom (rxCount d p 12) p (now d) quanta := by
  have hnone : ∀ q, pauseOf (rxCount d p 12) p q = Pause.none := fun q => by
    show sget (portOf d p).pauses q Pause.none = Pause.none
    rw [hp]
    rfl
  have hfree : wireFree (rxCount d p 12) p none = now d := by
    show (match (portOf d p).txPrio with | some x => _ | none => now d) = now d
    rw [ht]
  obtain ⟨w, hw, hall⟩ := foldl_pausePriority hq (p := p) (start := now d) (List.range 8) (rxCount d p 12) List.nodup_range
    (fun q _ => hnone q)
  refine ⟨w, ?_, fun q h8 => by rw [hall q, if_pos (List.mem_range.mpr h8)]⟩
  unfold receiveControl
  simp [pauseMac, hm, hfree, hw]

/-- A pause lasts some time: no port is faster than 400 Gbit/s. -/
theorem bitTimes_pos (d : Dev) (p n : Nat) (h : 0 < n) : 0 < bitTimes d p n := by
  have hr : 0 < rateGbps d p ∧ rateGbps d p ≤ 400 := by
    have hall : ∀ c < 7, c ≠ 0 → 0 < [0, 10, 25, 50, 100, 200, 400].getD c 10 ∧ [0, 10, 25, 50, 100, 200, 400].getD c 10 ≤ 400 := by
      decide
    have hc : rateCode d p < 7 ∧ rateCode d p ≠ 0 := by
      unfold rateCode
      split <;> omega
    exact hall _ hc.1 hc.2
  unfold bitTimes
  exact Nat.div_pos (by omega) hr.1

/-- What a PAUSE frame leaves where mode PAUSE obeys it (R47, Table 3.4). -/
theorem frameReceived_pause {d : Dev} {p quanta : Nat} (h : TakesFrames d p) {f : Frame} (hf : f.full = false)
    (hd : defectOf d p f = none) (hk : f.kind = .pause 0x010000C28001 quanta) (hq : 0 < quanta)
    (hm : ogetN d Obj.pauseMode p 0 = 1) (hp : (portOf d p).pauses = []) (ht : (portOf d p).txPrio = none) :
    let n := frameReceived p 0 f d
    oget n Obj.rxCounters p 1 = oget d Obj.rxCounters p 1 + 1 ∧
    oget n Obj.rxCounters p 2 = oget d Obj.rxCounters p 2 + (f.octets : Nat) ∧
    oget n Obj.rxCounters p 12 = oget d Obj.rxCounters p 12 + 1 ∧ n.start = d.start ∧
    ∀ q < 8, pausedNow n p q = true ∧ (pauseOf n p q).until_ = d.time.elapsed + bitTimes d p (quanta * 512) := by
  intro n
  have hc := counted_tallied d p f
  obtain ⟨w, hw, hall⟩ := receiveControl_pause (d := counted d p f) (p := p) hq
    (by rw [hc.2.ogetN Obj.pauseMode p 0 (by decide) rfl, hm]) (by rw [hc.portOf, hp]) (by rw [hc.portOf, ht])
  have hg : goodFrame (counted d p f) p f = { rxCount (counted d p f) p 12 with fwd := w } := by
    unfold goodFrame
    rw [hk]
    exact hw
  have hn := frameReceived_good_sent h f hf hd
  rw [hg] at hn
  have hc12 : Dev.Tallied arrivalPlaces d (rxCount (counted d p f) p 12) := hc.bumpBy Obj.rxCounters p 12 1 (by decide)
  have hbits := hc12.bitTimes p (quanta * 512)
  have hrx : ∀ j, Obj.rxCounters.place j ∉ txPlaces → oget n Obj.rxCounters p j = oget (rxCount (counted d p f) p 12) Obj.rxCounters p j :=
    fun j hj => (hn.obj.oget Obj.rxCounters p j hj rfl).trans
      ((Dev.ObjBut.of_eq (l := []) rfl).oget Obj.rxCounters p j (by simp) rfl)
  refine ⟨?_, ?_, ?_, hn.start.trans hc12.start, fun q h8 => ?_⟩
  · rw [hrx 1 (by decide)]
    unfold rxCount
    rw [oget_bump_apart _ _ _ _ _ _ _ (by decide) rfl, counted_frames]
  · rw [hrx 2 (by decide)]
    unfold rxCount
    rw [oget_bump_apart _ _ _ _ _ _ _ (by decide) rfl, counted_octets]
  · rw [hrx 12 (by decide)]
    unfold rxCount
    rw [oget_bump_same, counted_pauseFrames]
  · have hpause : pauseOf n p q = pauseFrom (rxCount (counted d p f) p 12) p (now d) quanta := by
      rw [hn.pauses, hall q h8]
      show pauseFrom _ p (counted d p f).time.elapsed quanta = _
      rw [hc.elapsed]
      rfl
    have hnow : now n = now d := by
      show n.time.elapsed = d.time.elapsed
      rw [hn.time]
      exact hc12.elapsed
    have hpos := bitTimes_pos d p (quanta * 512) (by omega)
    unfold pausedNow
    rw [hpause, hnow, pauseFrom, hbits]
    exact ⟨by simp [hpos], rfl⟩

/-! ### A frame that nothing takes (R50, Table 3.6) -/

/-- A frame that no step of Table 3.6 before the last one takes, in a Ready device. -/
structure Unclaimed (d : Dev) (f : Frame) : Prop where
  ready : d.start.ready = true
  plain : f.kind = .plain
  single : f.prp = none
  noArp : getF f.key FlowKey.etherType ≠ 0x0806
  noMedia : mediaIndex d (getF f.key FlowKey.dstAddress) = none
  noFlow : flowHit d f.key = none

theorem Unclaimed.counted {d : Dev} {f : Frame} (h : Unclaimed d f) (p : Nat) : Unclaimed (counted d p f) f := by
  have hc := counted_tallied d p f
  exact ⟨by rw [hc.start]; exact h.ready, h.plain, h.single, h.noArp, (hc.mediaIndex _).trans h.noMedia, (hc.flowHit _).trans h.noFlow⟩

/-- It comes to MissAction. -/
theorem goodFrame_unclaimed {d : Dev} {f : Frame} (h : Unclaimed d f) (p : Nat) : goodFrame d p f = missAct d p f := by
  have hprp : prpFilter d p f = (d, false) := by
    unfold prpFilter
    rw [h.single]
  have hclass : classify d p f = missAct d p f := by
    unfold classify
    simp [h.noArp, h.noMedia, h.plain, h.noFlow]
  unfold goodFrame
  simp [h.plain, isReady, h.ready, hprp, hclass]

/-- MissAction 0 drops the frame: it is counted, and no queue changes. -/
theorem frameReceived_missDrop {d : Dev} {p : Nat} (h : TakesFrames d p) {f : Frame} (hf : f.full = false)
    (hd : defectOf d p f = none) (hu : Unclaimed d f) (hm : ogetN d Obj.missAction p 0 = 0) :
    let n := frameReceived p 0 f d
    oget n Obj.rxCounters p 1 = oget d Obj.rxCounters p 1 + 1 ∧
    oget n Obj.rxCounters p 2 = oget d Obj.rxCounters p 2 + (f.octets : Nat) ∧ n.queues = d.queues ∧
    oget n Obj.flowMissFrames 0 0 = oget d Obj.flowMissFrames 0 0 + 1 ∧ n.start = d.start := by
  intro n
  have hc := counted_tallied d p f
  have hmiss : missAct (counted d p f) p f = bump (counted d p f) Obj.flowMissFrames 0 0 := by
    have hf : Dev.Tallied arrivalPlaces d (bump (counted d p f) Obj.flowMissFrames 0 0) :=
      hc.bumpBy Obj.flowMissFrames 0 0 1 (by decide)
    have h0 := (hf.2.ogetN Obj.missAction p 0 (by decide) rfl).trans hm
    unfold missAct
    simp [h0]
  have hn := frameReceived_good_sent h f hf hd
  rw [goodFrame_unclaimed (hu.counted p), hmiss] at hn
  have hflow : oget (counted d p f) Obj.flowMissFrames 0 0 = oget d Obj.flowMissFrames 0 0 := by
    unfold counted arrived rxCount
    rw [oget_bumpBy_apart _ _ _ _ _ _ _ _ (by decide) rfl, oget_bump_apart _ _ _ _ _ _ _ (by decide) rfl,
      oget_bumpBy_apart _ _ _ _ _ _ _ _ (by decide) rfl, oget_bumpBy_apart _ _ _ _ _ _ _ _ (by decide) rfl,
      oget_bump_apart _ _ _ _ _ _ _ (by decide) rfl, passTime_oget _ _ _ _ _ rfl]
  refine ⟨?_, ?_, hn.queues.trans hc.queues, ?_, hn.start.trans hc.start⟩
  · rw [hn.obj.oget Obj.rxCounters p 1 (by decide) rfl, oget_bump_apart _ _ _ _ _ _ _ (by decide) rfl, counted_frames]
  · rw [hn.obj.oget Obj.rxCounters p 2 (by decide) rfl, oget_bump_apart _ _ _ _ _ _ _ (by decide) rfl, counted_octets]
  · rw [hn.obj.oget Obj.flowMissFrames 0 0 (by decide) rfl, oget_bump_same, hflow]

/-- A push that is accepted (R196): the item joins the queue in cells of its own, and only counters move besides. -/
theorem rawPush_accepted {d : Dev} {q : Nat} {word : Bool} {i : QItem} (ho : queueOpen d q = true) (hw : isWord d q = word)
    (hv : pushVerdict d q (cellsNeeded d q i) = 0) :
    ∃ cells m, rawPush d q word i =
      ⟨{ setQueue d q { queueOf d q with items := (queueOf d q).items ++ [{ i with places := cells }] } with dict := m }, true,
        crossed d q (queueOf d q).depth ((queueOf d q).depth + 1)⟩ := by
  unfold rawPush
  rw [if_neg (by simp [ho, hw]), hv]
  extract_lets x shared i' d1 low d2
  by_cases hlow : freeCells d1 < low
  · have h2 : d2 = oset d1 Obj.freeCellsMin 0 0 (freeCells d1) := if_pos hlow
    exact ⟨_, (oset d1 Obj.freeCellsMin 0 0 (freeCells d1)).dict, by rw [h2]; rfl⟩
  · have h2 : d2 = d1 := if_neg hlow
    exact ⟨_, d1.dict, by rw [h2]; rfl⟩

/-- The egress queues (Table 9.2). -/
theorem queueKind_egress {q : Nat} (h : 196608 ≤ q ∧ q < 196864) : queueKind q = 3 := by
  simp [queueKind, show ¬ q < 65536 by omega, show ¬ q < 131072 by omega, show ¬ q < 196608 by omega, h.2]

/-- The same for an egress queue that no threshold watches. -/
theorem qPush_egress {d : Dev} {q : Nat} {i : QItem} (hq : 196608 ≤ q ∧ q < 196864) (hi : (queueOf d q).isolated = false)
    (hv : pushVerdict d q (cellsNeeded d q i) = 0) (ht : ogetN d Obj.thresholdDepth q 0 = 0) :
    ∃ cells m, qPush d q false i =
      ({ setQueue d q { queueOf d q with items := (queueOf d q).items ++ [{ i with places := cells }] } with dict := m }, true) := by
  have hk := queueKind_egress hq
  have hopen : queueOpen d q = true := by
    have hr : queueReserved q = false := by simp [queueReserved]; omega
    simp [queueOpen, hi, hr, hk]
  have hword : isWord d q = false := by simp [isWord, hk]
  obtain ⟨cells, m, h⟩ := rawPush_accepted hopen hword hv
  refine ⟨cells, m, ?_⟩
  unfold qPush
  rw [h]
  simp [crossed, ht, thresholdPost]

/-- A frame that an egress queue takes: it joins the queue, and the order of admission moves on (R59). -/
theorem toEgress_taken {d : Dev} {out q inp prio : Nat} {data : Bytes} (hb : 8 * out + q < 256)
    (hi : (queueOf d (196608 + 8 * out + q)).isolated = false)
    (hv : pushVerdict d (196608 + 8 * out + q) (cellsNeeded d (196608 + 8 * out + q) (frameItem d inp prio data)) = 0)
    (ht : ogetN d Obj.thresholdDepth (196608 + 8 * out + q) 0 = 0) :
    (∃ cells, (queueOf (toEgress d out q inp prio data) (196608 + 8 * out + q)).items =
      (queueOf d (196608 + 8 * out + q)).items ++ [{ frameItem d inp prio data with places := cells }]) ∧
    (toEgress d out q inp prio data).fwd.order = d.fwd.order + 1 ∧ (toEgress d out q inp prio data).start = d.start := by
  obtain ⟨cells, m, h⟩ := qPush_egress (by omega) hi hv ht
  have he : toEgress d out q inp prio data =
      { setQueue d (196608 + 8 * out + q) { queueOf d (196608 + 8 * out + q) with
          items := (queueOf d (196608 + 8 * out + q)).items ++ [{ frameItem d inp prio data with places := cells }] } with
        dict := m, fwd := { d.fwd with order := d.fwd.order + 1 } } := by
    unfold toEgress pushFrame
    rw [if_neg (by omega), h]
    rfl
  rw [he]
  exact ⟨⟨cells, by simp [queueOf, setQueue]⟩, rfl, rfl⟩

/-- MissAction 2 puts the frame in the queue of its own priority on MissPort, where that accepts it (R50). -/
theorem frameReceived_missForward {d : Dev} {p : Nat} (h : TakesFrames d p) {f : Frame} (hf : f.full = false)
    (hd : defectOf d p f = none) (hu : Unclaimed d f) (hm : ogetN d Obj.missAction p 0 = 2)
    (hb : 8 * ogetN d Obj.missPort p 0 + f.prio < 256) :
    let q := 196608 + 8 * ogetN d Obj.missPort p 0 + f.prio
    let n := frameReceived p 0 f d
    (queueOf d q).isolated = false → pushVerdict d q (cellsNeeded d q (frameItem d p f.prio f.data)) = 0 →
    ogetN d Obj.thresholdDepth q 0 = 0 →
    (∃ cells, (queueOf n q).items = (queueOf d q).items ++ [{ frameItem d p f.prio f.data with places := cells }]) ∧
    n.fwd.order = d.fwd.order + 1 ∧ n.start = d.start := by
  intro q n hi hv ht
  have hc : Dev.Tallied arrivalPlaces d (bump (counted d p f) Obj.flowMissFrames 0 0) :=
    (counted_tallied d p f).bumpBy Obj.flowMissFrames 0 0 1 (by decide)
  have hn : Dev.PauseSent (missAct (counted d p f) p f) n := by
    rw [← goodFrame_unclaimed (hu.counted p)]
    exact frameReceived_good_sent h f hf hd
  have hact : missAct (counted d p f) p f = toEgress (bump (counted d p f) Obj.flowMissFrames 0 0) (ogetN d Obj.missPort p 0)
      f.prio p f.prio f.data := by
    have ha := (hc.2.ogetN Obj.missAction p 0 (by decide) rfl).trans hm
    have ho := hc.2.ogetN Obj.missPort p 0 (by decide) rfl
    unfold missAct
    simp only [ha, ho]
  rw [hact] at hn
  generalize bump (counted d p f) Obj.flowMissFrames 0 0 = m at hc hn
  have hitem : frameItem m p f.prio f.data = frameItem d p f.prio f.data := by
    simp only [frameItem, now, hc.elapsed, hc.fwd]
  have hneed : cellsNeeded m q (frameItem m p f.prio f.data) = cellsNeeded d q (frameItem d p f.prio f.data) := by
    simp only [cellsNeeded, hitem, hc.isWord, hc.queueOf]
  obtain ⟨⟨cells, hitems⟩, horder, hstart⟩ := toEgress_taken (d := m) (out := ogetN d Obj.missPort p 0) (q := f.prio) (inp := p)
    (prio := f.prio) (data := f.data) hb (by rw [hc.queueOf]; exact hi) (by rw [hneed, hc.pushVerdict]; exact hv)
    (by rw [hc.2.ogetN Obj.thresholdDepth _ 0 (by decide) rfl]; exact ht)
  refine ⟨⟨cells, ?_⟩, ?_, ?_⟩
  · have hq : queueOf n q = queueOf (toEgress m (ogetN d Obj.missPort p 0) f.prio p f.prio f.data) q := by
      simp only [queueOf, hn.queues]
    rw [hq, hitems, hc.queueOf, hitem]
  · rw [hn.order, horder, hc.fwd]
  · rw [hn.start, hstart, hc.start]

/-! ### The egress scheduler (R46, R60) -/

theorem queueOf_setQueue_other (d : Dev) (q r : Nat) (x : Queue) (h : r ≠ q) : queueOf (setQueue d q x) r = queueOf d r := by
  simp [queueOf, setQueue, sget_sput_other _ _ _ _ _ h]

/-- Frames of the device's own that are sound wait at port p: none has a damaged cell or bad data, or holds ingress cells. -/
def SoundEgress (d : Dev) (p : Nat) : Prop :=
  ∀ r < 8, ∀ i ∈ (queueOf d (196608 + 8 * p + r)).items, i.badHeads = 0 ∧ i.badPar = 0 ∧ ∀ f, i.info = .frame f → f.inPort = none

/-- A fold whose every step leaves its start leaves it. -/
theorem foldl_id_of_mem {α β : Type} (f : α → β → α) (a : α) (l : List β) (h : ∀ b ∈ l, f a b = a) : l.foldl f a = a := by
  induction l with
  | nil => rfl
  | cons b l ih =>
    rw [List.foldl_cons, h b List.mem_cons_self]
    exact ih (fun c hc => h c (List.mem_cons_of_mem b hc))

theorem readHeads_sound {d : Dev} {p : Nat} (h : SoundEgress d p) : readHeads d p = d := by
  refine foldl_id_of_mem _ _ _ (fun q hq => ?_)
  dsimp only
  split
  · rename_i i hi
    have hb := (h q (List.mem_range.mp hq) i (List.mem_of_head? hi)).1
    simp [hb]
  · rfl

/-- A priority that may send: one of the eight, with a frame at the head of its queue, and not paused. -/
theorem mem_sendable {d : Dev} {p q : Nat} :
    q ∈ sendable d p ↔ q < 8 ∧ (headFrame d p q).isSome = true ∧ pausedNow d p q = false := by
  simp [sendable]

/-- No head frame is too long: none is dropped. -/
theorem dropOversize_fitting {d : Dev} {p : Nat}
    (h : ∀ r ∈ sendable d p, ∀ b, headFrame d p r = some b → b.len + 4 ≤ sizeLimit d p (tagsOf b)) (n : Nat) : dropOversize d p n = d := by
  have hnone : (sendable d p).find? (fun q => (headFrame d p q).any (fun b => decide (sizeLimit d p (tagsOf b) < b.len + 4))) = none := by
    rw [List.find?_eq_none]
    intro q hq
    cases hb : headFrame d p q with
    | none => simp
    | some b => simpa using h q hq b hb
  cases n with
  | zero => rfl
  | succ n =>
    unfold dropOversize
    rw [hnone]

/-- The last of an ascending list is its largest. -/
theorem head?_reverse_of_max {l : List Nat} {q : Nat} (hs : l.Pairwise (· ≤ ·)) (hq : q ∈ l) (hm : ∀ r ∈ l, r ≤ q) :
    l.reverse.head? = some q := by
  have hr : l.reverse.Pairwise (fun a b => b ≤ a) := List.pairwise_reverse.mpr hs
  have hmem : q ∈ l.reverse := List.mem_reverse.mpr hq
  cases h : l.reverse with
  | nil => exact absurd (h ▸ hmem) List.not_mem_nil
  | cons a t =>
    rw [h] at hr hmem
    have ha : a ≤ q := hm a (List.mem_reverse.mp (by rw [h]; exact List.mem_cons_self))
    have hle : q ≤ a := by
      rcases List.mem_cons.mp hmem with he | ht
      · exact Nat.le_of_eq he
      · exact (List.pairwise_cons.mp hr).1 q ht
    exact congrArg some (Nat.le_antisymm ha hle)

/-- The strict priorities that may send come first, the highest of them before the others. -/
theorem nextPriority_strict {d : Dev} {p q : Nat} (hq : q ∈ sendable d p) (hs : bitSet (ogetN d Obj.strictMask p 0) q = true)
    (hm : ∀ r ∈ sendable d p, bitSet (ogetN d Obj.strictMask p 0) r = true → r ≤ q) :
    nextPriority d p = some (q, (portOf d p).deficit) := by
  have hsort : ((sendable d p).filter (fun q => (ogetN d Obj.strictMask p 0).testBit q)).Pairwise (· ≤ ·) :=
    (List.pairwise_le_range.filter _).filter _
  have hmem : q ∈ (sendable d p).filter (fun q => (ogetN d Obj.strictMask p 0).testBit q) := List.mem_filter.mpr ⟨hq, hs⟩
  have hmax : ∀ r ∈ (sendable d p).filter (fun q => (ogetN d Obj.strictMask p 0).testBit q), r ≤ q :=
    fun r hr => hm r (List.mem_filter.mp hr).1 (List.mem_filter.mp hr).2
  have hlast := head?_reverse_of_max hsort hmem hmax
  unfold nextPriority
  dsimp only
  rw [hlast]

/-- Where no strict priority may send, the round robin picks. -/
theorem nextPriority_robin {d : Dev} {p : Nat} (hs : ∀ r ∈ sendable d p, ¬ bitSet (ogetN d Obj.strictMask p 0) r = true) :
    nextPriority d p = drrPick d p (sendable d p) := by
  have hnil : (sendable d p).filter (fun q => (ogetN d Obj.strictMask p 0).testBit q) = [] := by
    rw [List.filter_eq_nil_iff]
    exact hs
  unfold nextPriority
  dsimp only
  rw [hnil]
  rfl

/-- The priority whose turn it is sends while its deficit covers its frame. -/
theorem drrPick_turn {d : Dev} {p q : Nat} {b : Bytes} (hq : q ∈ sendable d p) (hb : headFrame d p q = some b)
    (ht : (portOf d p).drrAt = q) (hd : wireOctets b ≤ (portOf d p).deficit.getD q 0) :
    ∃ deficit, drrPick d p (sendable d p) = some (q, deficit) := by
  have hlen : ((headFrame d p q).map wireOctets).getD 0 = wireOctets b := by rw [hb]; rfl
  have hget : ((portOf d p).deficit.mapIdx (fun q x => if (headFrame d p q).isNone then 0 else x)).getD q 0 =
      (portOf d p).deficit.getD q 0 := by
    simp [List.getD_eq_getElem?_getD, hb]
  have hturn : ((sendable d p).contains q && decide (((headFrame d p q).map wireOctets).getD 0 ≤
      ((portOf d p).deficit.mapIdx (fun q x => if (headFrame d p q).isNone then 0 else x)).getD q 0)) = true := by
    rw [hlen, hget, List.contains_iff_mem.mpr hq, decide_eq_true hd]
    rfl
  unfold drrPick
  dsimp only
  rw [ht]
  exact ⟨_, if_pos hturn⟩

theorem drrPick_nil (d : Dev) (p : Nat) : drrPick d p [] = none := by
  have hnone : ((List.range 8).map (fun i => ((portOf d p).drrAt + 1 + i) % 8)).find? ([] : List Nat).contains = none := by
    simp
  unfold drrPick
  dsimp only
  rw [hnone, if_neg (by simp)]

/-! ### A frame leaves its queue -/

/-- The frame at the head of a queue that is not isolated. -/
theorem headFrame_some {d : Dev} {p q : Nat} {b : Bytes} (h : headFrame d p q = some b) :
    (queueOf d (196608 + 8 * p + q)).isolated = false ∧
      ∃ i rest, (queueOf d (196608 + 8 * p + q)).items = i :: rest ∧ i.data = b := by
  unfold headFrame at h
  dsimp only at h
  split at h
  · exact absurd h (by simp)
  · rename_i hi
    refine ⟨by simpa using hi, ?_⟩
    cases hx : (queueOf d (196608 + 8 * p + q)).items with
    | nil => simp [hx] at h
    | cons i rest => exact ⟨i, rest, rfl, by simpa [hx] using h⟩

theorem popCount_zero (w : Nat) : popCount w 0 = 0 := by
  unfold popCount
  induction List.range w with
  | nil => rfl
  | cons i l ih =>
    rw [List.foldr_cons, ih, Nat.zero_testBit]
    rfl

/-- A sound frame of the device's own is taken from the head of its queue; no ingress cell is freed by it. -/
theorem popEgress_sound {d : Dev} {p q : Nat} {b : Bytes} (hs : SoundEgress d p) (hq : q < 8) (hb : headFrame d p q = some b) :
    popEgress d p q = eraseItem d (196608 + 8 * p + q) 0 := by
  obtain ⟨hi, i, rest, hx, -⟩ := headFrame_some hb
  obtain ⟨hh, hp, hf⟩ := hs q hq i (by rw [hx]; exact List.mem_cons_self)
  have htake : takeItem d (196608 + 8 * p + q) = (some { i with poison := i.poison ||| i.badPar }, eraseItem d (196608 + 8 * p + q) 0) := by
    have hpar : parityFound d (196608 + 8 * p + q) i.badPar = d := by
      unfold parityFound
      rw [hp, popCount_zero]
      rfl
    unfold takeItem
    rw [hx]
    dsimp only
    unfold readWhole
    rw [if_neg (by simp [hi]), if_neg (by simp [hh]), hpar]
  unfold popEgress
  rw [htake]
  cases hinfo : i.info with
  | plain => simp [settlePause]
  | packet x => simp [settlePause]
  | frame f => simp [settlePause, hf f hinfo]

theorem eraseItem_head (d : Dev) (q : Nat) : (queueOf (eraseItem d q 0) q).items = (queueOf d q).items.tail := by
  show (queueOf (setQueue d q _) q).items = _
  rw [queueOf_setQueue_same]
  exact List.eraseIdx_zero

theorem eraseItem_other (d : Dev) (q n r : Nat) (h : r ≠ q) : queueOf (eraseItem d q n) r = queueOf d r :=
  queueOf_setQueue_other d q r _ h

theorem eraseItem_oget (d : Dev) (q n : Nat) (r : Row) (i j : Nat) (hp : r.place j ≠ Obj.queuePops.place 0)
    (hl : r.place j ≠ Obj.queueReleases.place 0) (hr : r.dflt.fixed = true) : oget (eraseItem d q n) r i j = oget d r i j := by
  unfold eraseItem
  dsimp only
  rw [oget_bump_apart _ _ _ _ _ _ _ hl hr, oget_bump_apart _ _ _ _ _ _ _ hp hr]
  exact (Dev.ObjBut.of_eq (l := []) rfl).oget r i j (by simp) hr

/-! ### EGRESS_FRAME_TX (R60) -/

theorem eraseItem_port (d : Dev) (q n p : Nat) : portOf (eraseItem d q n) p = portOf d p := rfl
theorem eraseItem_now (d : Dev) (q n : Nat) : now (eraseItem d q n) = now d := rfl
theorem eraseItem_out (d : Dev) (q n : Nat) : (eraseItem d q n).out = d.out := rfl
theorem txCount_queue (d : Dev) (p j n q : Nat) : queueOf (txCount d p j n) q = queueOf d q := rfl
theorem txCount_port (d : Dev) (p j n a : Nat) : portOf (txCount d p j n) a = portOf d a := rfl
theorem txCount_now (d : Dev) (p j n : Nat) : now (txCount d p j n) = now d := rfl
theorem txCount_out (d : Dev) (p j n : Nat) : (txCount d p j n).out = d.out := rfl

/-- A port whose wire is free, as the scheduler finds it. -/
def freePort (d : Dev) (p : Nat) : Dev := setPort (passUntil d (now d)) p { portOf (passUntil d (now d)) p with txPrio := none }

/-- The frames that wait at port p. -/
def waitingAt (d : Dev) (p : Nat) : Nat := sumNat ((List.range 8).map (fun q => (queueOf d (196608 + 8 * p + q)).items.length))

/-- The device once the scheduler of port p has read the heads of its queues and dropped what is too long. -/
def atTurn (d : Dev) (p : Nat) : Dev := dropOversize (readHeads (freePort d p) p) p (waitingAt (freePort d p) p)

/-- On a port that is up with a free wire, the frame of the priority served next starts and leaves its queue. -/
theorem egressFrameTx_next {d : Dev} {p q : Nat} {b : Bytes} {deficit : List Nat} (hu : (portOf d p).linkUp = true)
    (ht : (portOf d p).txPrio = none) (hn : nextPriority (atTurn d p) p = some (q, deficit)) (hb : headFrame (atTurn d p) p q = some b) :
    ∃ o : Port, o.txPrio = some q ∧ o.txEnd = now (atTurn d p) + bitTimes (atTurn d p) p (8 * (8 + wireOctets b)) ∧ egressFrameTx p d =
      popEgress (txCount (txCount (emit (setPort (atTurn d p) p o) (.frame p q { b with len := max 60 b.len })) p 0 1) p 1
        (wireOctets b)) p q := by
  generalize hm : atTurn d p = m at hn hb ⊢
  unfold atTurn freePort waitingAt at hm
  refine ⟨{ portOf m p with
    txPrio := some q, txEnd := now m + bitTimes m p (8 * (8 + wireOctets b)), deficit := deficit,
    drrAt := if bitSet (ogetN m Obj.strictMask p 0) q then (portOf m p).drrAt else q }, rfl, rfl, ?_⟩
  unfold egressFrameTx
  dsimp only
  rw [ht]
  dsimp only
  rw [if_neg (by simp [hu, canReach]), hm, hn]
  dsimp only
  rw [hb]

/-- Where no priority is served, nothing starts. -/
theorem egressFrameTx_none {d : Dev} {p : Nat} (hu : (portOf d p).linkUp = true) (ht : (portOf d p).txPrio = none)
    (hn : nextPriority (atTurn d p) p = none) : egressFrameTx p d = atTurn d p := by
  generalize hm : atTurn d p = m at hn ⊢
  unfold atTurn freePort waitingAt at hm
  unfold egressFrameTx
  dsimp only
  rw [ht]
  dsimp only
  rw [if_neg (by simp [hu, canReach]), hm, hn]

/-- `n` is `d` to the scheduler of port p: the same queues, objects, port and time, and nothing sent since. -/
structure SamePort (p : Nat) (d n : Dev) : Prop where
  queues : n.queues = d.queues
  dict : n.dict = d.dict
  start : n.start = d.start
  out : n.out = d.out
  port : portOf n p = portOf d p
  elapsed : n.time.elapsed = d.time.elapsed

/-- A port whose wire is free already is the same to its scheduler. -/
theorem freePort_same {d : Dev} {p : Nat} (ht : (portOf d p).txPrio = none) : SamePort p d (freePort d p) := by
  obtain ⟨f, he⟩ := passTime_zero d
  have h0 : passUntil d (now d) = { d with time := { d.time with frac := f } } := by
    unfold passUntil
    rw [Nat.sub_self]
    exact he
  have hp : portOf (passUntil d (now d)) p = portOf d p := by rw [h0]; rfl
  have hport : ({ portOf d p with txPrio := none } : Port) = portOf d p := by
    cases h : portOf d p
    rw [h] at ht
    subst ht
    rfl
  unfold freePort
  rw [hp, hport, h0]
  exact ⟨rfl, rfl, rfl, rfl, portOf_setPort_same _ _ _, rfl⟩

section
variable {p : Nat} {d n : Dev} (h : SamePort p d n)
include h

theorem SamePort.queueOf (q : Nat) : queueOf n q = queueOf d q := by simp only [Machine.queueOf, h.queues]

theorem SamePort.oget (r : Row) (i j : Nat) (hr : r.dflt.fixed = true) : oget n r i j = oget d r i j :=
  (Dev.ObjBut.of_eq (l := []) (by rw [h.dict])).oget r i j (by simp) hr

theorem SamePort.ogetN (r : Row) (i j : Nat) (hr : r.dflt.fixed = true) : ogetN n r i j = ogetN d r i j := by
  simp only [Machine.ogetN, h.oget r i j hr]

theorem SamePort.headFrame (q : Nat) : headFrame n p q = headFrame d p q := by simp only [Machine.headFrame, h.queueOf]

theorem SamePort.pausedNow (q : Nat) : pausedNow n p q = pausedNow d p q := by
  unfold Machine.pausedNow pauseOf now
  rw [h.port, h.elapsed]

theorem SamePort.sendable : sendable n p = sendable d p := by
  simp only [Machine.sendable, h.headFrame, h.pausedNow]

theorem SamePort.sound (hs : SoundEgress d p) : SoundEgress n p := fun r hr i hi => hs r hr i (by rwa [h.queueOf] at hi)

theorem SamePort.portLanes : portLanes n p = portLanes d p := by
  unfold Machine.portLanes lanesOf byTier groupMode ofind
  rw [h.start, h.dict]

theorem SamePort.bitTimes (k : Nat) : bitTimes n p k = bitTimes d p k := by
  unfold Machine.bitTimes rateGbps rateCode ofind
  rw [h.portLanes, h.dict]

theorem SamePort.sizeLimit (k : Nat) : sizeLimit n p k = sizeLimit d p k := by
  simp only [Machine.sizeLimit, h.ogetN Obj.maxFrameSize p 0 rfl]

end

/-! ### What the scheduler does -/

/-- The frame b of priority q starts on port p (R46, R60): padded to 64 octets with its FCS, timed, counted, out of its queue. -/
def Started (d n : Dev) (p q : Nat) (b : Bytes) : Prop :=
  .frame p q { b with len := max 60 b.len } ∈ n.out ∧ (portOf n p).txPrio = some q ∧
    (portOf n p).txEnd = d.time.elapsed + bitTimes d p (8 * (8 + wireOctets b)) ∧
    oget n Obj.txCounters p 0 = oget d Obj.txCounters p 0 + 1 ∧
    oget n Obj.txCounters p 1 = oget d Obj.txCounters p 1 + (wireOctets b : Nat) ∧
    (queueOf n (196608 + 8 * p + q)).items = (queueOf d (196608 + 8 * p + q)).items.tail

/-- What a sound, free port that is up starts, where no head frame is too long. -/
theorem egressFrameTx_started {d : Dev} {p q : Nat} {b : Bytes} {deficit : List Nat} (hu : (portOf d p).linkUp = true)
    (ht : (portOf d p).txPrio = none) (hs : SoundEgress d p) (hq : q ∈ sendable d p) (hb : headFrame d p q = some b)
    (hfit : ∀ r ∈ sendable d p, ∀ b, headFrame d p r = some b → b.len + 4 ≤ sizeLimit d p (tagsOf b))
    (hnext : nextPriority (freePort d p) p = some (q, deficit)) : Started d (egressFrameTx p d) p q b := by
  have hsame := freePort_same ht
  have hturn : atTurn d p = freePort d p := by
    unfold atTurn
    rw [readHeads_sound (hsame.sound hs), dropOversize_fitting]
    intro r hr c hc
    rw [hsame.sizeLimit]
    rw [hsame.sendable] at hr
    rw [hsame.headFrame] at hc
    exact hfit r hr c hc
  have hhead : headFrame (freePort d p) p q = some b := by rw [hsame.headFrame, hb]
  obtain ⟨o, hprio, hend, he⟩ := egressFrameTx_next hu ht (by rw [hturn]; exact hnext) (by rw [hturn]; exact hhead)
  rw [hturn] at hend he
  generalize freePort d p = m at hsame hend he hhead
  have hpop := popEgress_sound (d := txCount (txCount (emit (setPort m p o) (.frame p q { b with len := max 60 b.len })) p 0 1) p 1
    (wireOctets b)) (p := p) (hsame.sound hs) (mem_sendable.mp hq).1 hhead
  rw [he, hpop]
  have hsent : ∀ j, oget (emit (setPort m p o) (.frame p q { b with len := max 60 b.len })) Obj.txCounters p j =
      oget d Obj.txCounters p j := fun j =>
    ((Dev.ObjBut.of_eq (l := []) rfl).oget Obj.txCounters p j (by simp) rfl).trans (hsame.oget Obj.txCounters p j rfl)
  refine ⟨?_, ?_, ?_, ?_, ?_, ?_⟩
  · rw [eraseItem_out, txCount_out, txCount_out]
    exact List.mem_cons_self
  · rw [eraseItem_port, txCount_port, txCount_port]
    exact (congrArg Port.txPrio (portOf_setPort_same m p o)).trans hprio
  · rw [eraseItem_port, txCount_port, txCount_port]
    refine (congrArg Port.txEnd (portOf_setPort_same m p o)).trans (hend.trans ?_)
    rw [hsame.bitTimes, now, hsame.elapsed]
  · rw [eraseItem_oget _ _ _ _ _ _ (by decide) (by decide) rfl]
    unfold txCount
    rw [oget_bumpBy_apart _ _ _ _ _ _ _ _ (by decide) rfl, oget_bumpBy_same, hsent]
    rfl
  · rw [eraseItem_oget _ _ _ _ _ _ (by decide) (by decide) rfl]
    unfold txCount
    rw [oget_bumpBy_same, oget_bumpBy_apart _ _ _ _ _ _ _ _ (by decide) rfl, hsent]
  · rw [eraseItem_head, txCount_queue, txCount_queue]
    exact congrArg (fun x => x.items.tail) (hsame.queueOf _)

/-- The one frame that waits is too long: it is counted and dropped, and nothing starts (R46). -/
theorem dropOversize_single {d : Dev} {p q : Nat} {b : Bytes} (hs : SoundEgress d p) (hq : sendable d p = [q])
    (hb : headFrame d p q = some b) (hlong : sizeLimit d p (tagsOf b) < b.len + 4)
    (hone : (queueOf d (196608 + 8 * p + q)).items.length = 1) {n : Nat} (hn : 0 < n) :
    dropOversize d p n = txCount (eraseItem d (196608 + 8 * p + q) 0) p 3 1 ∧
      sendable (txCount (eraseItem d (196608 + 8 * p + q) 0) p 3 1) p = [] := by
  have h8 : q < 8 := (mem_sendable.mp (by rw [hq]; exact List.mem_cons_self)).1
  generalize hm : txCount (eraseItem d (196608 + 8 * p + q) 0) p 3 1 = m
  have hother : ∀ r, r ≠ q → queueOf m (196608 + 8 * p + r) = queueOf d (196608 + 8 * p + r) := fun r hr => by
    rw [← hm, txCount_queue, eraseItem_other d _ 0 _ (by omega)]
  have hempty : (queueOf m (196608 + 8 * p + q)).items = [] := by
    rw [← hm, txCount_queue, eraseItem_head]
    exact List.eq_nil_of_length_eq_zero (by rw [List.length_tail, hone])
  have hnone : sendable m p = [] := by
    have hpause : ∀ r, pausedNow m p r = pausedNow d p r := fun r => by
      rw [← hm]
      unfold pausedNow pauseOf
      rw [txCount_port, txCount_now, eraseItem_port, eraseItem_now]
    rw [List.eq_nil_iff_forall_not_mem]
    intro r hr
    obtain ⟨hr8, hhead, hp⟩ := mem_sendable.mp hr
    by_cases hrq : r = q
    · subst hrq
      unfold headFrame at hhead
      simp [hempty] at hhead
    · have hd : r ∈ sendable d p := mem_sendable.mpr ⟨hr8, by simpa only [headFrame, hother r hrq] using hhead, by rw [← hpause, hp]⟩
      rw [hq] at hd
      exact hrq (List.mem_singleton.mp hd)
  have hsound : SoundEgress m p := fun r hr i hi => by
    by_cases hrq : r = q
    · subst hrq
      simp [hempty] at hi
    · rw [hother r hrq] at hi
      exact hs r hr i hi
  refine ⟨?_, hnone⟩
  obtain ⟨k, rfl⟩ := Nat.exists_eq_succ_of_ne_zero (Nat.ne_of_gt hn)
  have hfind : (sendable d p).find? (fun q => (headFrame d p q).any (fun b => decide (sizeLimit d p (tagsOf b) < b.len + 4))) = some q := by
    rw [hq]
    simp [hb, hlong]
  unfold dropOversize
  rw [hfind]
  dsimp only
  rw [popEgress_sound hs h8 hb, hm, readHeads_sound hsound, dropOversize_fitting (by rw [hnone]; simp)]

theorem le_sumNat_of_mem {l : List Nat} {a : Nat} (h : a ∈ l) : a ≤ sumNat l := by
  induction l with
  | nil => exact absurd h List.not_mem_nil
  | cons b l ih =>
    show a ≤ b + sumNat l
    rcases List.mem_cons.mp h with he | ht
    · rw [he]
      exact Nat.le_add_right b _
    · exact Nat.le_trans (ih ht) (Nat.le_add_left _ b)

/-- Every frame of a queue of the port is among those that wait there. -/
theorem length_le_waitingAt (d : Dev) (p : Nat) {q : Nat} (hq : q < 8) :
    (queueOf d (196608 + 8 * p + q)).items.length ≤ waitingAt d p :=
  le_sumNat_of_mem (List.mem_map.mpr ⟨q, List.mem_range.mpr hq, rfl⟩)

/-- A frame longer than the port's limit is not sent, but counted (R46). -/
theorem egressFrameTx_oversize {d : Dev} {p q : Nat} {b : Bytes} (hu : (portOf d p).linkUp = true) (ht : (portOf d p).txPrio = none)
    (hs : SoundEgress d p) (hq : sendable d p = [q]) (hb : headFrame d p q = some b) (hlong : sizeLimit d p (tagsOf b) < b.len + 4)
    (hone : (queueOf d (196608 + 8 * p + q)).items.length = 1) :
    let n := egressFrameTx p d
    oget n Obj.txCounters p 3 = oget d Obj.txCounters p 3 + 1 ∧ oget n Obj.txCounters p 0 = oget d Obj.txCounters p 0 ∧
    n.out = d.out ∧ (queueOf n (196608 + 8 * p + q)).items = [] ∧ (portOf n p).txPrio = none := by
  intro n
  have hsame := freePort_same ht
  have h8 : q < 8 := (mem_sendable.mp (by rw [hq]; exact List.mem_cons_self)).1
  obtain ⟨hdrop, hnone⟩ := dropOversize_single (hsame.sound hs) (hsame.sendable.trans hq) ((hsame.headFrame q).trans hb)
    (by rw [hsame.sizeLimit]; exact hlong) (by rw [hsame.queueOf, hone]) (n := waitingAt (freePort d p) p)
    (by have := length_le_waitingAt (freePort d p) p h8; rw [hsame.queueOf, hone] at this; omega)
  have hn : n = txCount (eraseItem (freePort d p) (196608 + 8 * p + q) 0) p 3 1 := by
    have hturn : atTurn d p = txCount (eraseItem (freePort d p) (196608 + 8 * p + q) 0) p 3 1 := by
      unfold atTurn
      rw [readHeads_sound (hsame.sound hs), hdrop]
    have hidle : nextPriority (atTurn d p) p = none := by
      rw [hturn, nextPriority_robin (by rw [hnone]; simp), hnone, drrPick_nil]
    exact (egressFrameTx_none hu ht hidle).trans hturn
  rw [hn]
  refine ⟨?_, ?_, ?_, ?_, ?_⟩
  · unfold txCount
    rw [oget_bumpBy_same, eraseItem_oget _ _ _ _ _ _ (by decide) (by decide) rfl, hsame.oget Obj.txCounters p 3 rfl]
    rfl
  · unfold txCount
    rw [oget_bumpBy_apart _ _ _ _ _ _ _ _ (by decide) rfl, eraseItem_oget _ _ _ _ _ _ (by decide) (by decide) rfl,
      hsame.oget Obj.txCounters p 0 rfl]
  · rw [txCount_out, eraseItem_out, hsame.out]
  · rw [txCount_queue, eraseItem_head]
    exact List.eq_nil_of_length_eq_zero (by rw [List.length_tail, hsame.queueOf, hone])
  · rw [txCount_port, eraseItem_port, hsame.port, ht]

/-! ### What posts, pushes and evidence leave of the calls -/

/-- `n` has the channels and the endpoints of `d`. -/
def Dev.CallsKept (d n : Dev) : Prop := n.chans = d.chans ∧ n.endpoints = d.endpoints

theorem Dev.CallsKept.refl (d : Dev) : Dev.CallsKept d d := ⟨rfl, rfl⟩

theorem Dev.CallsKept.trans {a b c : Dev} (h : Dev.CallsKept a b) (k : Dev.CallsKept b c) : Dev.CallsKept a c :=
  ⟨k.1.trans h.1, k.2.trans h.2⟩

theorem Dev.CallsKept.ite {c : Prop} [Decidable c] {d a b : Dev} (h : Dev.CallsKept d a) (k : Dev.CallsKept d b) :
    Dev.CallsKept d (if c then a else b) := by split <;> assumption

theorem oset_calls (d : Dev) (r : Row) (i j : Nat) (v : Int) : Dev.CallsKept d (oset d r i j v) := ⟨rfl, rfl⟩
theorem bumpBy_calls (d : Dev) (r : Row) (i j : Nat) (v : Int) : Dev.CallsKept d (bumpBy d r i j v) := ⟨rfl, rfl⟩
theorem bump_calls (d : Dev) (r : Row) (i j : Nat) : Dev.CallsKept d (bump d r i j) := ⟨rfl, rfl⟩

theorem bumpIf_calls (c : Bool) (d : Dev) (r : Row) (i j : Nat) : Dev.CallsKept d (bumpIf c d r i j) := by
  cases c <;> exact ⟨rfl, rfl⟩

theorem setQueue_calls (d : Dev) (q : Nat) (x : Queue) : Dev.CallsKept d (setQueue d q x) := ⟨rfl, rfl⟩
theorem onStk_calls (d : Dev) (x : Stoker) : Dev.CallsKept d { d with stk := x } := ⟨rfl, rfl⟩
theorem setTcb_calls (d : Dev) (t : Nat) (x : Tcb) : Dev.CallsKept d (setTcb d t x) := ⟨rfl, rfl⟩
theorem setLatch_calls (d : Dev) (k : Nat) (l : List Post) : Dev.CallsKept d (setLatch d k l) := ⟨rfl, rfl⟩

/-- A push (R196). -/
theorem rawPush_calls (d : Dev) (q : Nat) (word : Bool) (i : QItem) : Dev.CallsKept d (rawPush d q word i).dev := by
  unfold rawPush
  split
  · exact Dev.CallsKept.refl d
  · split
    · extract_lets x shared i' d1 low d2
      have h1 : Dev.CallsKept d d1 := (setQueue_calls _ _ _).trans (bump_calls _ _ _ _)
      exact h1.trans (Dev.CallsKept.ite (oset_calls _ _ _ _ _) (Dev.CallsKept.refl d1))
    · exact bump_calls _ _ _ _
    · exact Dev.CallsKept.ite (bump_calls _ _ _ _) (bump_calls _ _ _ _)

theorem setReady_calls (d : Dev) (h : Nat) (l : List Ready) : Dev.CallsKept d (setReady d h l) := by
  unfold setReady
  extract_lets _ d1
  have h1 : Dev.CallsKept d d1 := by
    simp only [d1]
    unfold oweRetries
    split <;> exact ⟨rfl, rfl⟩
  exact Dev.CallsKept.ite (h1.trans (oset_calls _ _ _ _ _)) h1

/-- An entry written for a thread (R169). -/
theorem putEntry_calls (d : Dev) (t kind value dlTick dlOff : Nat) (k : Tcb) :
    Dev.CallsKept d (putEntry d t kind value dlTick dlOff k).1 := by
  unfold putEntry
  extract_lets key r h _ d1 d2 wakes k1
  have h1 : Dev.CallsKept d d1 := (onStk_calls d _).trans (setReady_calls _ h (readyOf d h ++ [r]))
  have h2 : Dev.CallsKept d1 d2 := by
    refine Dev.CallsKept.ite (Dev.CallsKept.refl d1) ?_
    unfold noteDepth
    exact Dev.CallsKept.ite (oset_calls _ _ _ _ _) (Dev.CallsKept.refl d1)
  exact (h1.trans h2).trans (setTcb_calls _ _ _)

/-- A form of trace record that leaves the calls. -/
def TraceKeeps (tr : Dev → Nat → Nat → Nat → Nat → Nat → Dev) : Prop :=
  ∀ d t e dec kind det, Dev.CallsKept d (tr d t e dec kind det)

theorem postEntry_calls {tr : Dev → Nat → Nat → Nat → Nat → Nat → Dev} (htr : TraceKeeps tr) (d : Dev) (t kind value : Nat) :
    Dev.CallsKept d (postEntry tr d t kind value).1 := by
  unfold postEntry
  split
  · exact Dev.CallsKept.refl d
  · split
    · exact Dev.CallsKept.refl d
    · split
      · exact htr _ _ _ _ _ _
      · extract_lets dl
        have h := putEntry_calls d t kind (value % 2 ^ 32) dl.1 dl.2 ‹Tcb›
        split
        rename_i d1 woke he
        rw [he] at h
        exact Dev.CallsKept.ite (h.trans (htr _ _ _ _ _ _)) h

/-- A hardware poster's event (R170). -/
theorem posterIssue_calls {tr : Dev → Nat → Nat → Nat → Nat → Nat → Dev} (htr : TraceKeeps tr) (d : Dev) (poster t kind value : Nat) :
    Dev.CallsKept d (posterIssue tr d poster t kind value) := by
  unfold posterIssue
  extract_lets l
  split
  · exact setLatch_calls _ _ _
  · have h := postEntry_calls htr d t kind value
    split
    rename_i d1 res he
    rw [he] at h
    refine Dev.CallsKept.ite ?_ h
    have h2 := (h.trans (setLatch_calls d1 poster [⟨t, kind, value⟩])).trans (bump_calls _ Obj.hardwareRefusals (hearthOf d t) 0)
    exact Dev.CallsKept.ite (h2.trans (bump_calls _ _ _ _)) h2

theorem rawTrace_calls (d : Dev) (t e dec kind det : Nat) : Dev.CallsKept d (rawTrace d t e dec kind det).dev := by
  unfold rawTrace
  split
  · exact Dev.CallsKept.refl d
  · split
    · exact Dev.CallsKept.refl d
    · extract_lets q unset gone
      split
      extract_lets n lost r p d1 m
      have h1 : Dev.CallsKept d p.dev := (bump_calls _ _ _ _).trans (rawPush_calls _ _ _ _)
      have h2 : Dev.CallsKept d d1 := Dev.CallsKept.ite (h1.trans (bump_calls _ _ _ _)) (h1.trans (bump_calls _ _ _ _))
      exact ⟨h2.1, h2.2⟩

theorem traceDeep_calls (n : Nat) : TraceKeeps (traceDeep n) := by
  induction n with
  | zero => exact fun d t e dec kind det => rawTrace_calls d t e dec kind det
  | succ n ih =>
    intro d t e dec kind det
    have h := rawTrace_calls d t e dec kind det
    unfold traceDeep
    exact Dev.CallsKept.ite (h.trans (posterIssue_calls ih _ _ _ _ _)) h

theorem hwPost_calls (d : Dev) (poster t kind value : Nat) : Dev.CallsKept d (hwPost d poster t kind value) :=
  posterIssue_calls (traceDeep_calls 5) d poster t kind value

/-- A push with its threshold post (R200). -/
theorem qPush_calls (d : Dev) (q : Nat) (word : Bool) (i : QItem) : Dev.CallsKept d (qPush d q word i).1 := by
  have h := rawPush_calls d q word i
  exact Dev.CallsKept.ite (h.trans (hwPost_calls _ _ _ _ _)) h

/-- An event offered to an evidence stream (R226). -/
theorem putEvent_calls (d : Dev) (s i : Nat) (e : EvEvent) : Dev.CallsKept d (putEvent d s i e) := by
  unfold putEvent
  repeat' split
  all_goals exact ⟨rfl, rfl⟩

theorem offerEvent_calls (d : Dev) (s tick kind seq offset : Nat) (body : Bytes) :
    Dev.CallsKept d (offerEvent d s tick kind seq offset body) := by
  unfold offerEvent
  split
  · exact Dev.CallsKept.refl d
  · have h := bump_calls d Obj.eventsOffered s 0
    extract_lets d1 e
    split
    · exact h.trans (putEvent_calls _ _ _ _)
    · exact h.trans (putEvent_calls _ _ _ _)

/-! ### The comfort-noise generator (R99) -/

theorem iterate_add {α : Type} (f : α → α) (m n : Nat) (x : α) : iterate f (m + n) x = iterate f n (iterate f m x) := by
  induction m generalizing x with
  | zero => rw [Nat.zero_add]; rfl
  | succ m ih => rw [Nat.succ_add]; exact ih (f x)

/-- The echo stages leave the generator. -/
theorem echoHop_lfsr (c : ChainIn) (a : Chain) (k : Look) (x : List Int) (h : EchoIn) :
    (echoHop c a k x h).1.treat.lfsr = a.treat.lfsr := by
  unfold echoHop
  split
  · rfl
  · split
    dsimp only
    split <;> rfl

/-- It steps once per subband at every hop, noise or not. -/
theorem chainHop_lfsr (c : ChainIn) (a : Chain) (i : Nat) :
    (chainHop c a i).treat.lfsr = iterate lfsrStep (bandCount c.wide) a.treat.lfsr := by
  unfold chainHop
  extract_lets n w p x pos stop _ t bands h look quiet
  exact congrArg (iterate lfsrStep (bandCount c.wide)) (echoHop_lfsr c { a with treat := t } (look t.rx) x h)

theorem foldl_chainHop_lfsr (c : ChainIn) (l : List Nat) (a : Chain) :
    (l.foldl (chainHop c) a).treat.lfsr = iterate lfsrStep (l.length * bandCount c.wide) a.treat.lfsr := by
  induction l generalizing a with
  | nil => rw [List.length_nil, Nat.zero_mul]; rfl
  | cons i l ih =>
    rw [List.foldl_cons, ih, chainHop_lfsr, ← iterate_add, List.length_cons, Nat.succ_mul, Nat.add_comm]

theorem chainStart_lfsr (c : ChainIn) (canc : Canceller) (t : Treat) : (chainStart c canc t).treat.lfsr = t.lfsr := by
  unfold chainStart
  extract_lets fresh
  show (if fresh = true then _ else t : Treat).lfsr = t.lfsr
  split <;> rfl

/-- A treated frame steps it for every hop of the frame. -/
theorem treat_lfsr (c : ChainIn) (canc : Canceller) (t : Treat) : (treat c canc t).treat.lfsr =
    iterate lfsrStep (c.samples.length / (if c.wide then 40 else 20) * 5 / 4 * bandCount c.wide) t.lfsr := by
  unfold treat
  extract_lets ticks a
  have h := foldl_chainHop_lfsr c (List.range (ticks * 5 / 4)) (chainStart c canc t)
  rw [List.length_range, chainStart_lfsr] at h
  exact h

theorem satSamples_length (n : Nat) (l : List Int) : (satSamples n l).length = n := by simp [satSamples]

/-- A decided frame has the samples of its ticks, whatever is played. -/
theorem decodedFrame_length (t : Treat) (s : Slot) (n : Nat) : (decodedFrame t s n).length = n := by
  have hc : ∀ codec k fade, (concealed t codec k fade n).length = n := by
    intro codec k fade
    unfold concealed
    extract_lets own noise
    split
    · exact satSamples_length _ _
    · split
      · simp
      · exact satSamples_length _ _
  unfold decodedFrame
  cases s.kind with
  | fill => exact List.length_replicate
  | played p => exact satSamples_length _ _
  | dtx => exact satSamples_length _ _
  | missing => exact hc _ _ _
  | inserted => exact hc _ _ _

theorem treatFrame_lfsr {d : Dev} {x : Channel} (hl : isLine d x = false) (s : Slot) :
    (treatFrame d x s (frameSamples d x s)).treat.lfsr =
      iterate lfsrStep (x.frameTicks * 5 / 4 * (if s.wide then 64 else 32)) x.treat.lfsr := by
  have hlen : (frameSamples d x s).length / (if s.wide then 40 else 20) = x.frameTicks := by
    unfold frameSamples
    rw [hl, if_neg (by simp), decodedFrame_length]
    unfold tickSamples
    split
    · exact Nat.mul_div_cancel _ (by decide)
    · exact Nat.mul_div_cancel _ (by decide)
  unfold treatFrame
  rw [treat_lfsr]
  dsimp only
  rw [hlen]
  rfl

/-! ### A field of an endpoint context -/

theorem epF_congr {d n : Dev} (h : n.endpoints = d.endpoints) (k : Nat) (f : Fld) : epF n k f = epF d k f := by
  simp only [epF, epOf, h]

theorem epF_setEpF_same (d : Dev) (k : Nat) (f : Fld) (v : Nat) : epF (setEpF d k f v) k f = v % 2 ^ f.w := by
  simp [epF, epOf, setEpF, getF_setF_same]

theorem epF_setEpF_other (d : Dev) (k : Nat) (f g : Fld) (v : Nat) (h : Fld.apart f g) : epF (setEpF d k f v) k g = epF d k g := by
  simp [epF, epOf, setEpF, getF_setF_other _ _ _ _ h]

theorem epF_bumpEp_other (d : Dev) (k : Nat) (f g : Fld) (n : Nat) (h : Fld.apart f g) : epF (bumpEp d k f n) k g = epF d k g :=
  epF_setEpF_other d k f g _ h

/-! ### What the frame work leaves of a channel -/

/-- Channel c has in `n` the frames that wait and the comfort-noise generator that it has in `d`. -/
structure Dev.ChanKept (c : Nat) (d n : Dev) : Prop where
  todo : (chanOf n c).map (·.todo) = (chanOf d c).map (·.todo)
  lfsr : (chanOf n c).map (·.treat.lfsr) = (chanOf d c).map (·.treat.lfsr)

theorem Dev.ChanKept.refl (c : Nat) (d : Dev) : Dev.ChanKept c d d := ⟨rfl, rfl⟩

theorem Dev.ChanKept.trans {c : Nat} {a b d : Dev} (h : Dev.ChanKept c a b) (k : Dev.ChanKept c b d) : Dev.ChanKept c a d :=
  ⟨k.todo.trans h.todo, k.lfsr.trans h.lfsr⟩

theorem Dev.ChanKept.of_chans {c : Nat} {d n : Dev} (h : n.chans = d.chans) : Dev.ChanKept c d n :=
  ⟨by rw [chanOf, h]; rfl, by rw [chanOf, h]; rfl⟩

/-- The same, and every endpoint is left. -/
structure Dev.FrameKept (c : Nat) (d n : Dev) : Prop where
  chan : Dev.ChanKept c d n
  endpoints : n.endpoints = d.endpoints

theorem Dev.FrameKept.refl (c : Nat) (d : Dev) : Dev.FrameKept c d d := ⟨Dev.ChanKept.refl c d, rfl⟩

theorem Dev.FrameKept.trans {c : Nat} {a b d : Dev} (h : Dev.FrameKept c a b) (k : Dev.FrameKept c b d) : Dev.FrameKept c a d :=
  ⟨h.chan.trans k.chan, k.endpoints.trans h.endpoints⟩

theorem Dev.CallsKept.frame {d n : Dev} (h : Dev.CallsKept d n) (c : Nat) : Dev.FrameKept c d n :=
  ⟨Dev.ChanKept.of_chans h.1, h.2⟩

@[simp] theorem chanOf_setChan_same (d : Dev) (c : Nat) (x : Channel) : chanOf (setChan d c x) c = some x := sfind_sput_same _ _ _

theorem chanOf_setChan_other (d : Dev) (c k : Nat) (x : Channel) (h : c ≠ k) : chanOf (setChan d k x) c = chanOf d c :=
  sfind_sput_other _ _ _ _ h

/-- A channel rewritten with the same waiting frames and generator. -/
theorem setChan_frameKept {d : Dev} {k : Nat} {x y : Channel} (h : chanOf d k = some x) (ht : y.todo = x.todo)
    (hl : y.treat.lfsr = x.treat.lfsr) (c : Nat) : Dev.FrameKept c d (setChan d k y) := by
  by_cases hc : c = k
  · subst hc
    exact ⟨⟨by rw [chanOf_setChan_same, h]; exact congrArg some ht, by rw [chanOf_setChan_same, h]; exact congrArg some hl⟩, rfl⟩
  · exact ⟨⟨by rw [chanOf_setChan_other _ _ _ _ hc], by rw [chanOf_setChan_other _ _ _ _ hc]⟩, rfl⟩

theorem onChan_frameKept (d : Dev) (k : Nat) (f : Channel → Channel) (h : ∀ x, (f x).todo = x.todo ∧ (f x).treat.lfsr = x.treat.lfsr)
    (c : Nat) : Dev.FrameKept c d (onChan d k f) := by
  unfold onChan
  split
  · rename_i x hx
    exact setChan_frameKept hx (h x).1 (h x).2 c
  · exact Dev.FrameKept.refl c d

/-- A fold of steps that each leave the frame. -/
theorem foldl_frameKept {α : Type} (c : Nat) (f : Dev → α → Dev) (h : ∀ d a, Dev.FrameKept c d (f d a)) (l : List α) (d : Dev) :
    Dev.FrameKept c d (l.foldl f d) := by
  induction l generalizing d with
  | nil => exact Dev.FrameKept.refl c d
  | cons a l ih => exact (h d a).trans (ih _)

theorem onCanc_frameKept (d : Dev) (k : Nat) (f : Canceller → Canceller) (c : Nat) : Dev.FrameKept c d (onCanc d k f) :=
  onChan_frameKept d k (fun x => { x with canceller := f x.canceller }) (fun _ => ⟨rfl, rfl⟩) c

theorem askPeer_frameKept (d : Dev) (k : Nat) (x : Channel) (f c : Nat) : Dev.FrameKept c d (askPeer d k x f) := by
  unfold askPeer
  split
  · exact onCanc_frameKept _ _ _ c
  · exact Dev.FrameKept.refl c d

theorem bankPush_frameKept (d : Dev) (k len v psn c : Nat) : Dev.FrameKept c d (bankPush d k len v psn).1 := by
  unfold bankPush
  split
  · exact Dev.FrameKept.refl c d
  · rename_i x hx
    extract_lets f n
    split
    · exact (bump_calls _ _ _ _).frame c
    · split
      · exact foldl_frameKept c _ (fun d i => (bump_calls _ _ _ _).frame c) _ d
      · exact setChan_frameKept hx (by rfl) (by rfl) c

/-- A tone event counts, joins its queue and the evidence (R104). -/
theorem toneEvent_frameKept (d : Dev) (k : Nat) (e : ToneEvent) (c : Nat) : Dev.FrameKept c d (toneEvent d k e) := by
  unfold toneEvent
  split
  · exact Dev.FrameKept.refl c d
  · rename_i x hx
    extract_lets seq rec_ d1 d2 q
    have h1 : Dev.FrameKept c d d1 := setChan_frameKept hx (by rfl) (by rfl) c
    have h2 : Dev.FrameKept c d d2 := h1.trans (((bump_calls _ _ _ _).trans (bump_calls _ _ _ _)).frame c)
    have h3 : Dev.FrameKept c d (if q = 0xFFFFFFFF then (d2, false) else qPushBytes d2 q rec_).1 := by
      split
      · exact h2
      · exact h2.trans ((qPush_calls _ _ _ _).frame c)
    generalize (if q = 0xFFFFFFFF then (d2, false) else qPushBytes d2 q rec_) = r at h3 ⊢
    obtain ⟨d3, ok⟩ := r
    dsimp -zeta only
    extract_lets d4
    have h4 : Dev.FrameKept c d d4 := by
      simp only [d4]
      split
      · exact h3.trans ((bump_calls _ _ _ _).frame c)
      · exact h3.trans ((bump_calls _ _ _ _).frame c)
    split
    · exact h4.trans ((offerEvent_calls _ _ _ _ _ _ _).frame c)
    · exact h4

theorem noteDigest_calls (d : Dev) (c : Nat) (x : Channel) (s : Slot) (output cause : Nat) :
    Dev.CallsKept d (noteDigest d c x s output cause) := by
  unfold noteDigest
  split
  · exact Dev.CallsKept.refl d
  · extract_lets g d1
    have h1 : Dev.CallsKept d d1 := ⟨rfl, rfl⟩
    split
    · exact h1
    · exact h1.trans ⟨rfl, rfl⟩

/-! ### What a frame's packet does to its endpoint (R76, R210) -/

theorem sendOwn_calls (d : Dev) (p prio : Nat) (data : Bytes) : Dev.CallsKept d (sendOwn d p prio data).1 := by
  unfold sendOwn
  extract_lets i
  have h := qPush_calls d (196608 + 8 * p + prio) false i
  split
  rename_i d1 ok he
  rw [he] at h
  split
  · exact h
  · exact h.trans (bumpBy_calls _ _ _ _ _)

theorem sendMedia_calls (d : Dev) (e : Nat) (marker : Bool) (payload : Bytes) : Dev.CallsKept d (sendMedia d e marker payload).1 := by
  unfold sendMedia
  extract_lets p prio
  split
  · exact sendOwn_calls _ _ _ _
  · rename_i i a b _
    have h1 : Dev.CallsKept d (nextPrpSeq d i (epF d e Ep.nextHopMac)).2 := ⟨rfl, rfl⟩
    generalize nextPrpSeq d i (epF d e Ep.nextHopMac) = r1 at h1
    obtain ⟨seq, d1⟩ := r1
    dsimp only at h1 ⊢
    have h2 := h1.trans (sendOwn_calls d1 a prio (octets (mediaFrame d1 e a marker payload ++ prpTrailer seq 10 ((ipPacket d1 e marker payload).length + 6))))
    generalize sendOwn d1 a prio _ = r2 at h2 ⊢
    obtain ⟨d2, x⟩ := r2
    exact h2.trans (sendOwn_calls d2 b prio _)

/-- After what `d` had become, endpoint e stands at an RTP timestamp and a sequence number, channel c left as it was. -/
structure Dev.RtpAt (c e ts seq : Nat) (d n : Dev) : Prop where
  kept : Dev.ChanKept c d n
  timestamp : epF n e Ep.txTimestamp = ts
  sequence : epF n e Ep.txSequence = seq

theorem Dev.RtpAt.frame {c e ts seq : Nat} {d n m : Dev} (h : Dev.RtpAt c e ts seq d n) (k : Dev.FrameKept c n m) :
    Dev.RtpAt c e ts seq d m :=
  ⟨h.kept.trans k.chan, (epF_congr k.endpoints e _).trans h.timestamp, (epF_congr k.endpoints e _).trans h.sequence⟩

/-- A counter of the endpoint beyond those two fields leaves them. -/
theorem Dev.RtpAt.bumpEp {c e ts seq : Nat} {d n : Dev} (h : Dev.RtpAt c e ts seq d n) (f : Fld) (k : Nat) (ht : 736 ≤ f.lo) :
    Dev.RtpAt c e ts seq d (bumpEp n e f k) :=
  ⟨h.kept.trans (Dev.ChanKept.of_chans rfl), (epF_bumpEp_other n e f Ep.txTimestamp k (Or.inl ht)).trans h.timestamp,
    (epF_bumpEp_other n e f Ep.txSequence k (Or.inl (Nat.le_trans (by decide) ht))).trans h.sequence⟩

/-- A frame sent from sound data: the timestamp advances by the frame, packet or not, and the sequence number with a packet. -/
theorem sendFrame_rtp (d : Dev) (c : Nat) (x : Channel) (e : Nat) (payload : Option Bytes) :
    Dev.RtpAt c e ((epF d e Ep.txTimestamp + sentClock (epF d e Ep.txCodec) x.frameTicks) % 2 ^ 32)
      (if payload.isSome then (epF d e Ep.txSequence + 1) % 65536 else epF d e Ep.txSequence) d
      (sendFrame d c x e payload false).1 := by
  unfold sendFrame
  extract_lets step next
  cases payload with
  | none => exact ⟨Dev.ChanKept.of_chans rfl, epF_setEpF_same _ _ _ _, epF_setEpF_other _ _ _ _ _ (Or.inl (by decide))⟩
  | some b =>
    rw [if_pos (Option.isSome_some (a := b))]
    dsimp -zeta only
    rw [if_neg Bool.false_ne_true]
    have h : Dev.CallsKept d (if mayEmit d c then sendMedia d e x.treat.sentSilent b
        else (bumpBy d Obj.twinCounters 0 18 1, false)).1 := by
      split
      · exact sendMedia_calls _ _ _ _
      · exact bumpBy_calls _ _ _ _ _
    generalize (if mayEmit d c then sendMedia d e x.treat.sentSilent b else (bumpBy d Obj.twinCounters 0 18 1, false)) = r at h ⊢
    obtain ⟨d1, ok⟩ := r
    dsimp -zeta only
    extract_lets seq d2 d3
    have h2 : Dev.RtpAt c e ((epF d e Ep.txTimestamp + step) % 2 ^ 32) ((epF d e Ep.txSequence + 1) % 65536) d d2 := by
      refine ⟨(h.frame c).chan.trans (Dev.ChanKept.of_chans rfl), ?_, ?_⟩
      · rw [epF_setEpF_other _ _ _ _ _ (Or.inr (by decide)), epF_setEpF_same, epF_congr h.2]
        rfl
      · rw [epF_setEpF_same, ← epF_congr h.2]
        rfl
    have h3 : Dev.RtpAt c e ((epF d e Ep.txTimestamp + step) % 2 ^ 32) ((epF d e Ep.txSequence + 1) % 65536) d d3 := by
      simp only [d3]
      split
      · exact h2.bumpEp _ _ (by decide)
      · exact h2
    split
    · have hfree : Dev.CallsKept d3 (freshNat (noteCipher d3 (frameOctets d3 e b.len))).2 := ⟨rfl, rfl⟩
      exact ((h3.frame (hfree.frame c)).bumpEp _ _ (by decide)).bumpEp _ _ (by decide)
    · exact h3

/-! ### The frame work (R17) -/

/-- Without DTX every frame is sent (R76). -/
theorem encodeFrame_isSome (d : Dev) (e enc ft : Nat) (l : List Int) (h : bitSet (epF d e Ep.codecOptions) 1 = false) :
    (encodeFrame d e enc ft l).isSome = true := by
  unfold encodeFrame
  simp [h]

/-- The next sequence number of endpoint e. -/
def nextSeq (d : Dev) (e : Nat) : Nat := (epF d e Ep.txSequence + 1) % 65536

/-- A sequence number after a frame toward endpoint e: the next one, unless DTX sends nothing. -/
def SeqAfter (d : Dev) (e seq : Nat) : Prop :=
  (bitSet (epF d e Ep.codecOptions) 1 = false → seq = nextSeq d e) ∧ (seq = nextSeq d e ∨ seq = epF d e Ep.txSequence)

theorem SeqAfter.congr {d n : Dev} {e seq : Nat} (h : SeqAfter n e seq) (he : n.endpoints = d.endpoints) : SeqAfter d e seq := by
  unfold SeqAfter nextSeq at *
  simpa only [epF_congr he] using h

theorem noteSend_calls (d : Dev) (e : Nat) (slots : List (Nat × List Int)) : Dev.CallsKept d (noteSend d e slots) := ⟨rfl, rfl⟩

/-- A frame sent to an endpoint that is no line port (R210). -/
theorem sendOut_rtp (d : Dev) (c : Nat) (x : Channel) (s : Slot) (e : Nat) (slots : List (Nat × List Int))
    (hk : epF d e Ep.kind ≠ 2) : ∃ seq, SeqAfter d e seq ∧
      Dev.RtpAt c e ((epF d e Ep.txTimestamp + sentClock (epF d e Ep.txCodec) x.frameTicks) % 2 ^ 32) seq d
        (sendOut d c x s e slots false).1 := by
  unfold sendOut
  rw [if_neg hk]
  extract_lets first wide l payload
  refine ⟨if payload.isSome then nextSeq d e else epF d e Ep.txSequence, ⟨fun h => ?_, ?_⟩, ?_⟩
  · exact if_pos (encodeFrame_isSome _ _ _ _ _ h)
  · split
    · exact Or.inl rfl
    · exact Or.inr rfl
  · have h : Dev.RtpAt c e ((epF d e Ep.txTimestamp + sentClock (epF d e Ep.txCodec) x.frameTicks) % 2 ^ 32)
        (if payload.isSome then nextSeq d e else epF d e Ep.txSequence) d (sendFrame d c x e payload false).1 :=
      sendFrame_rtp d c x e payload
    generalize (if payload.isSome then nextSeq d e else epF d e Ep.txSequence) = seq at h ⊢
    generalize sendFrame d c x e payload false = r at h ⊢
    obtain ⟨d1, bits⟩ := r
    dsimp -zeta only
    extract_lets d2
    have h2 : Dev.FrameKept c d1 d2 := onChan_frameKept d1 c (fun k => { k with treat := { k.treat with
      encoder := Config.encoderNext (epF d1 e Ep.txCodec) x.treat.encoder l, sentSilent := payload.isNone } }) (fun _ => ⟨rfl, rfl⟩) c
    refine h.frame (h2.trans ?_)
    show Dev.FrameKept c d2 (if payload.isSome then noteSend d2 e slots else d2)
    split
    · exact (noteSend_calls d2 e slots).frame c
    · exact Dev.FrameKept.refl c d2

/-- A channel outside every group contributes to none (R107). -/
theorem pushMix_outside {x : Channel} (hg : x.group = 0xFFFF) (hl : x.left = []) (d : Dev) (c : Nat) (s : Slot) (a : Chain) :
    pushMix d c x s a = (d, 0) := by
  have hm : ∀ t, memberAt x t = none := fun t => by simp [memberAt, hg, hl]
  unfold pushMix
  refine foldl_id_of_mem _ _ _ (fun i _ => ?_)
  simp [pushTick, hm]

/-- What treatment leaves of a channel: its treated state, and counters. -/
theorem keepTreatment_treated {d : Dev} {c : Nat} {x : Channel} (h : chanOf d c = some x) (s : Slot) (a : Chain) :
    (chanOf (keepTreatment d c s a) c).map (·.todo) = some x.todo ∧
    (chanOf (keepTreatment d c s a) c).map (·.treat.lfsr) = some a.treat.lfsr ∧
    (keepTreatment d c s a).endpoints = d.endpoints := by
  have hon : onChan d c (fun k => { k with canceller := a.canc, treat := a.treat }) =
      setChan d c { x with canceller := a.canc, treat := a.treat } := by
    unfold onChan
    rw [h]
  have hk : Dev.CallsKept (setChan d c { x with canceller := a.canc, treat := a.treat }) (keepTreatment d c s a) := by
    unfold keepTreatment
    rw [hon]
    extract_lets d1 d2 d3
    have h1 : Dev.CallsKept (setChan d c { x with canceller := a.canc, treat := a.treat }) d1 := ⟨rfl, rfl⟩
    have h2 : Dev.CallsKept d1 d2 := bumpIf_calls _ _ _ _ _
    exact (h1.trans h2).trans ⟨rfl, rfl⟩
  have hc : chanOf (keepTreatment d c s a) c = some { x with canceller := a.canc, treat := a.treat } := by
    rw [chanOf, hk.1]
    exact chanOf_setChan_same _ _ _
  rw [hc]
  exact ⟨rfl, rfl, hk.2⟩

/-- The frame work of a channel outside every group and no line port, from sound data, once the frame is treated (R17, R210). -/
theorem workSlot_sent {d : Dev} {c e : Nat} {x : Channel} {z : Slot} {w : Work} (h : chanOf d c = some x) (hg : x.group = 0xFFFF)
    (hl : x.left = []) (hz : z.group = 0xFFFF) (hb : x.canceller.bypassAt = none)
    (he : z.dest = some e) (hk : epF d e Ep.kind ≠ 2) (hw : w.bad = false) (hp : z.poison = false) :
    ∃ seq, SeqAfter d e seq ∧
      Dev.RtpAt c e ((epF d e Ep.txTimestamp + sentClock (epF d e Ep.txCodec) x.frameTicks) % 2 ^ 32) seq
        (keepTreatment d c z (treatFrame d x z (frameSamples d x z))) (workSlot c z w d) := by
  have hpeer : peerBypass d c x z.tick = d := by
    unfold peerBypass
    rw [hb]
  unfold workSlot
  rw [h]
  dsimp -zeta only
  rw [hpeer]
  extract_lets d0 late
  rw [show chanOf d0 c = some x from h]
  dsimp -zeta only
  extract_lets cause dm l a d1 d2 item psn d3 d4 bad all
  have hdm : dm = d := if_pos hz
  rw [← hdm] at h hk ⊢
  have h2 : Dev.FrameKept c d1 d2 := by
    simp only [d2]
    split
    · exact askPeer_frameKept d1 c x z.tick c
    · exact Dev.FrameKept.refl c d1
  have h3 : Dev.FrameKept c d1 d3 := h2.trans (bankPush_frameKept d2 c item.len item.val psn c)
  have hend : d3.endpoints = dm.endpoints := h3.endpoints.trans (keepTreatment_treated h z a).2.2
  obtain ⟨seq, hseq, hsent⟩ := sendOut_rtp d3 c { x with treat := a.treat } z e (sentSlots x z a (frameMix d0 x z).1)
    (by rwa [epF_congr hend])
  have h4 : Dev.RtpAt c e ((epF dm e Ep.txTimestamp + sentClock (epF dm e Ep.txCodec) x.frameTicks) % 2 ^ 32) seq d1 d4 := by
    simp only [d4, he, hw, hp, pushMix_outside hg hl, Bool.or_false, ← epF_congr hend]
    exact Dev.RtpAt.frame ⟨h3.chan.trans hsent.kept, hsent.timestamp, hsent.sequence⟩
      (foldl_frameKept c _ (fun n v => toneEvent_frameKept n c v c) _ _)
  exact ⟨seq, hseq.congr hend, h4.frame ((noteDigest_calls _ _ _ _ _ _).frame c)⟩

/-- The frame work of a channel whose oldest frame is on no line port and outside every group (R17, R99, R210). -/
theorem frameWork_sent {d : Dev} {c e : Nat} {x : Channel} {z : Slot} {rest : List Slot} {w : Work} (h : chanOf d c = some x)
    (ht : x.todo = z :: rest) (hs : x.state = 1) (hg : x.group = 0xFFFF) (hl : x.left = []) (hz : z.group = 0xFFFF)
    (hb : x.canceller.bypassAt = none) (hline : isLine d x = false) (he : z.dest = some e) (hk : epF d e Ep.kind ≠ 2)
    (hw : w.bad = false) (hp : z.poison = false) :
    let n := frameWork c w d
    (chanOf n c).map (·.todo) = some rest ∧
    (chanOf n c).map (·.treat.lfsr) = some (iterate lfsrStep (x.frameTicks * 5 / 4 * (if z.wide then 64 else 32)) x.treat.lfsr) ∧
    epF n e Ep.txTimestamp = (epF d e Ep.txTimestamp + sentClock (epF d e Ep.txCodec) x.frameTicks) % 2 ^ 32 ∧
    SeqAfter d e (epF n e Ep.txSequence) := by
  intro n
  have hn : n = workSlot c z w (setChan d c { x with todo := rest }) := by
    simp only [n, frameWork, h, ht]
    rw [if_neg (by omega)]
  have hx := chanOf_setChan_same d c { x with todo := rest }
  obtain ⟨seq, hseq, hkept, hts, hsq⟩ := workSlot_sent (w := w) (e := e) hx hg hl hz hb he hk hw hp
  obtain ⟨htodo, hlfsr, -⟩ := keepTreatment_treated hx z (treatFrame (setChan d c { x with todo := rest }) { x with todo := rest } z
    (frameSamples (setChan d c { x with todo := rest }) { x with todo := rest } z))
  rw [hn]
  refine ⟨hkept.todo.trans htodo, (hkept.lfsr.trans hlfsr).trans (congrArg some (treatFrame_lfsr hline z)), hts, ?_⟩
  rw [hsq]
  exact hseq

/-! ### The commands -/

/-- FRAME_RECEIVED in a running device: no end of step 10 follows the frame. -/
theorem exec_frameReceived {s : State} {p : Nat} {f : Frame} (hs : s.sys.dev.start.state = 1)
    (hk : (frameReceived p 0 f s.sys.dev).start = s.sys.dev.start) :
    exec (.frameReceived p 0 f) s = .next { s with sys := { s.sys with dev := frameReceived p 0 f s.sys.dev } } := by
  have he : frameArrives p 0 f s.sys.dev = frameReceived p 0 f s.sys.dev := by
    unfold frameArrives afterLock
    rw [hk, if_neg (by omega)]
  rw [← he]
  rfl

theorem exec_egressFrameTx (s : State) (p : Nat) :
    exec (.egressFrameTx p) s = .next { s with sys := { s.sys with dev := egressFrameTx p s.sys.dev } } := rfl

theorem exec_frameWork (s : State) (c : Nat) (w : Work) :
    exec (.frameWork c w) s = .next { s with sys := { s.sys with dev := frameWork c w s.sys.dev } } := rfl

/-- The defects of a frame that came in whole symbols, by its length and FCS (Table 3.3). -/
theorem defectOf_whole (d : Dev) (p : Nat) {f : Frame} (hc : f.code = none) (ha : f.align = none) :
    (f.octets < 14 → defectOf d p f = some (3, none)) ∧
    (14 ≤ f.octets → f.octets < 64 → defectOf d p f = some (4, some f.octets)) ∧
    (64 ≤ f.octets → sizeLimit d p f.tags < f.octets → defectOf d p f = some (5, some (sizeLimit d p f.tags))) ∧
    (64 ≤ f.octets → f.octets ≤ sizeLimit d p f.tags → defectOf d p f = if f.fcsBad then some (6, some f.octets) else none) := by
  unfold defectOf
  rw [hc, ha]
  dsimp only
  refine ⟨fun h => if_pos h, fun h1 h2 => ?_, fun h1 h2 => ?_, fun h1 h2 => ?_⟩
  · rw [if_neg (by omega), if_pos h2]
  · rw [if_neg (by omega), if_neg (by omega), if_pos h2]
  · rw [if_neg (by omega), if_neg (by omega), if_neg (by omega)]

/-- Without DELIVER_BAD a frame with a defect is counted under it and delivered nowhere (Table 3.3, R45). -/
theorem frameReceived_defects {d : Dev} {p : Nat} (h : TakesFrames d p) {f : Frame} (hf : f.full = false)
    (hb : oget d Obj.deliverBad p 0 = 0) :
    let counted := CountedOnly d (frameReceived p 0 f d) p
    (f.code.isSome = true → counted 8) ∧ (f.code = none → f.align.isSome = true → counted 7) ∧
    (f.code = none → f.align = none →
      (f.octets < 14 → counted 3) ∧ (14 ≤ f.octets → f.octets < 64 → counted 4) ∧
      (64 ≤ f.octets → sizeLimit d p f.tags < f.octets → counted 5) ∧
      (64 ≤ f.octets → f.octets ≤ sizeLimit d p f.tags → f.fcsBad = true → counted 6)) := by
  intro counted
  have hdef : ∀ {j keep}, j ≠ 0 → j < 13 → defectOf d p f = some (j, keep) → counted j := fun h0 hj hd =>
    frameReceived_defect h f hf hb hd h0 hj
  refine ⟨fun hc => ?_, fun hc ha => ?_, fun hc ha => ?_⟩
  · obtain ⟨n, hn⟩ := Option.isSome_iff_exists.mp hc
    exact hdef (keep := some n) (by decide) (by decide) (by simp [defectOf, hn])
  · obtain ⟨n, hn⟩ := Option.isSome_iff_exists.mp ha
    exact hdef (keep := some n) (by decide) (by decide) (by simp [defectOf, hc, hn])
  · obtain ⟨htiny, hrunt, hlong, hfcs⟩ := defectOf_whole d p hc ha
    exact ⟨fun h1 => hdef (by decide) (by decide) (htiny h1), fun h1 h2 => hdef (by decide) (by decide) (hrunt h1 h2),
      fun h1 h2 => hdef (by decide) (by decide) (hlong h1 h2),
      fun h1 h2 h3 => hdef (by decide) (by decide) ((hfcs h1 h2).trans (if_pos h3))⟩

/-- A free port serves the highest strict priority that may send. -/
theorem nextPriority_freePort_strict {d : Dev} {p q : Nat} (ht : (portOf d p).txPrio = none) (hq : q ∈ sendable d p)
    (hs : bitSet (ogetN d Obj.strictMask p 0) q = true)
    (hm : ∀ r ∈ sendable d p, bitSet (ogetN d Obj.strictMask p 0) r = true → r ≤ q) :
    ∃ deficit, nextPriority (freePort d p) p = some (q, deficit) := by
  have hsame := freePort_same ht
  rw [← hsame.sendable] at hq hm
  rw [← hsame.ogetN Obj.strictMask p 0 rfl] at hs hm
  exact ⟨_, nextPriority_strict hq hs hm⟩

/-- Where none may, it serves the round robin's turn while the deficit covers the frame. -/
theorem nextPriority_freePort_robin {d : Dev} {p q : Nat} {b : Bytes} (ht : (portOf d p).txPrio = none) (hq : q ∈ sendable d p)
    (hb : headFrame d p q = some b) (hs : ∀ r ∈ sendable d p, ¬ bitSet (ogetN d Obj.strictMask p 0) r = true)
    (hturn : (portOf d p).drrAt = q) (hd : wireOctets b ≤ (portOf d p).deficit.getD q 0) :
    ∃ deficit, nextPriority (freePort d p) p = some (q, deficit) := by
  have hsame := freePort_same ht
  rw [← hsame.sendable] at hq hs
  rw [← hsame.ogetN Obj.strictMask p 0 rfl] at hs
  rw [← hsame.headFrame] at hb
  rw [← hsame.port] at hturn hd
  rw [nextPriority_robin hs]
  exact drrPick_turn hq hb hturn hd

/-- Settles O49, from what becomes of an arriving frame (Table 3.3), what the scheduler starts (R46, R60), and the frame work (R17). -/
theorem frames : Obligations.Frames := by
  unfold Obligations.Frames
  refine ⟨?_, ?_, ?_⟩
  · intro s p f d rx size most q item ends bad hlow hrun hready _ hex hup
    have ht : TakesFrames d p := ⟨hex, hup, hlow, hrun⟩
    have hbad : ∀ {j}, CountedOnly d (frameReceived p 0 f d) p j → bad j := fun ⟨hj, h0, hq, ho, hk⟩ =>
      ⟨_, exec_frameReceived hrun hk, hj, h0, hq, ho⟩
    refine ⟨fun hf => hbad (frameReceived_full ht f hf), fun hf hdel => ?_, fun hf hc ha h1 h2 h3 => ?_⟩
    · obtain ⟨hcode, halign, hsize⟩ := frameReceived_defects ht hf hdel
      refine ⟨fun hc => hbad (hcode hc), fun hc ha => hbad (halign hc ha), fun hc ha => ?_⟩
      obtain ⟨htiny, hrunt, hlong, hfcs⟩ := hsize hc ha
      exact ⟨fun h1 => hbad (htiny h1), fun h1 h2 => hbad (hrunt h1 h2), fun h1 h2 => hbad (hlong h1 h2),
        fun h1 h2 h3 => hbad (hfcs h1 h2 h3)⟩
    · obtain ⟨-, -, -, hgood⟩ := defectOf_whole d p hc ha
      have hd : defectOf d p f = none := (hgood h1 h2).trans (if_neg (by simp [h3]))
      refine ⟨fun quanta hk hq hm hp htx => ?_, fun hk hprp harp hmedia hflow _ => ?_⟩
      · obtain ⟨hr1, hr2, hr12, hstart, hpause⟩ := frameReceived_pause ht hf hd hk hq hm hp htx
        exact ⟨_, exec_frameReceived hrun hstart, hr1, hr2, hr12, hpause⟩
      · have hu : Unclaimed d f := ⟨hready, hk, hprp, harp, hmedia, hflow⟩
        refine ⟨fun hm => ?_, fun hm hport hprio hi _ hv hth => ?_⟩
        · obtain ⟨hr1, hr2, hqueues, hmiss, hstart⟩ := frameReceived_missDrop ht hf hd hu hm
          exact ⟨_, exec_frameReceived hrun hstart, hr1, hr2, hqueues, hmiss⟩
        · obtain ⟨hitems, horder, hstart⟩ := frameReceived_missForward ht hf hd hu hm (by omega) hi hv hth
          exact ⟨_, exec_frameReceived hrun hstart, hitems, horder⟩
  · intro s p q b d o tx limit strict ends starts _ hup hfree hq hb _ hsound
    refine ⟨fun hfit => ?_, fun hlong hone hlen => ⟨_, exec_egressFrameTx s p, ?_⟩⟩
    · have hstarts : (∃ deficit, nextPriority (freePort d p) p = some (q, deficit)) → starts := fun ⟨_, hn⟩ => by
        refine ⟨_, exec_egressFrameTx s p, ?_⟩
        dsimp only [tx]
        exact egressFrameTx_started hup hfree hsound hq hb hfit hn
      exact ⟨fun hs hmax => hstarts (nextPriority_freePort_strict hfree hq hs hmax),
        fun hs hturn hdef => hstarts (nextPriority_freePort_robin hfree hq hb hs hturn hdef)⟩
    · dsimp only [tx]
      exact egressFrameTx_oversize hup hfree hsound hone hb hlong hlen
  · intro s c e x z rest w d old step_ next hx htodo hstate hg hl hz hb hline he hk hw hp
    obtain ⟨htd, hlfsr, hts, hseq, hcases⟩ := frameWork_sent hx htodo hstate hg hl hz hb hline he hk hw hp
    exact ⟨_, exec_frameWork s c w, htd, hlfsr, hts, hseq, hcases⟩

end Sys2Proof.Machine

/-! SUPPORT. O48: what the commands of the ports come to: layouts, enables and links (R41, R42, R184), pauses and the damper (R47 to
R49), PRP upkeep (R56), flow keys (R53), and a flue audit failure (R62). -/
namespace Sys2Proof.Machine

/-! ### Commands and their effects -/

/-- A write that the device state lets through comes to its own rules (R309). -/
theorem guarded_served {d : Dev} {r : Row} (h : Served d r) (f : Dev → Dev) : guarded r f d = f d := by
  obtain ⟨hs, hr⟩ := h
  unfold guarded
  rw [hs, hr]
  rfl

/-- A command whose effect lies on the device alone completes there. -/
theorem completes_with {c : Instr} {s : State} {g : Dev → Dev} {n : Dev} {f : Dev → Prop} (hc : exec c s = effectDev g s)
    (hn : g s.sys.dev = n) (hf : f n) : ∃ w : State, exec c s = .next w ∧ f w.sys.dev :=
  ⟨_, hc, by subst hn; exact hf⟩

/-! ### Layouts, enables and links (R41, R42, R184) -/

/-- The write of a layout on powered lanes: it is refused while a port of the group is enabled (R41). -/
theorem laneGroupModeWrite_cases {d : Dev} {g mode : Nat} (hg : g < 8) (hl : 4 * g < lanesOf d) (hm : mode ≤ 5)
    (htwo : lanesOf d ≠ 2 ∨ mode = 1 ∨ mode = 3 ∨ mode = 4) :
    ((∀ i < 4, oget d Obj.adminUp (4 * g + i) 0 = 0) → laneGroupModeWrite g mode d = accept (oset d Obj.laneGroupMode 0 g mode)) ∧
    ((∃ i < 4, oget d Obj.adminUp (4 * g + i) 0 ≠ 0) → laneGroupModeWrite g mode d = refuse d abortState) := by
  have hfits : ¬ (5 < mode ∨ (lanesOf d = 2 ∧ ¬ (mode = 1 ∨ mode = 3 ∨ mode = 4))) := by omega
  have heq : laneGroupModeWrite g mode d = if (List.range 4).any (fun i => ogetB d Obj.adminUp (4 * g + i) 0) then refuse d abortState
      else accept (oset d Obj.laneGroupMode 0 g mode) := by
    unfold laneGroupModeWrite
    rw [if_neg (by omega), if_neg (by omega), if_neg hfits]
  rw [heq]
  constructor
  · intro hdown
    exact if_neg (by simpa [ogetB] using hdown)
  · intro hup
    exact if_pos (by simpa [ogetB] using hup)

@[simp] theorem groupMode_oset (d : Dev) (g mode : Nat) : groupMode (oset d Obj.laneGroupMode 0 g mode) g = mode := by
  simp [groupMode, ofind_oset_same]

/-- A link that is up goes down, and its loss is counted (R42). -/
theorem linkDown_of_up {d : Dev} {p : Nat} (h : (portOf d p).linkUp = true) :
    linkDown d p = bump (setPort d p { portOf d p with linkUp := false, txPrio := none }) Obj.linkDownCount p 0 := if_pos h

theorem linkDown_of_down {d : Dev} {p : Nat} (h : (portOf d p).linkUp = false) : linkDown d p = d := if_neg (by simp [h])

theorem linkDown_linkUp (d : Dev) (p : Nat) : (portOf (linkDown d p) p).linkUp = false := by
  cases h : (portOf d p).linkUp with
  | false => rw [linkDown_of_down h, h]
  | true =>
    rw [linkDown_of_up h]
    show (portOf (setPort d p _) p).linkUp = false
    rw [portOf_setPort_same]

theorem linkDown_stk (d : Dev) (p : Nat) : (linkDown d p).stk = d.stk := by
  cases h : (portOf d p).linkUp with
  | false => rw [linkDown_of_down h]
  | true => rw [linkDown_of_up h]; rfl

theorem linkDown_twin (d : Dev) (p : Nat) : (linkDown d p).twin = d.twin := by
  cases h : (portOf d p).linkUp with
  | false => rw [linkDown_of_down h]
  | true => rw [linkDown_of_up h]; rfl

theorem linkDown_objBut (d : Dev) (p : Nat) : Dev.ObjBut [Obj.linkDownCount.place 0] d (linkDown d p) := by
  cases h : (portOf d p).linkUp with
  | false => rw [linkDown_of_down h]; exact Dev.ObjBut.of_eq rfl
  | true =>
    rw [linkDown_of_up h]
    exact (Dev.ObjBut.of_eq rfl).trans (bump_objBut _ (setPort d p _) Obj.linkDownCount p 0 (by decide))

theorem linkDown_counts {d : Dev} {p : Nat} (h : (portOf d p).linkUp = true) :
    oget (linkDown d p) Obj.linkDownCount p 0 = oget d Obj.linkDownCount p 0 + 1 := by
  rw [linkDown_of_up h, oget_bump_same]
  rfl

/-- The device with the ports that wait for the core voltage changed (R184). -/
def waitingPorts (d : Dev) (l : List Nat) : Dev := { d with stk := { d.stk with avs := { d.stk.avs with ports := l } } }

/-- The write of AdminUp to a port that exists: 0 disables it and takes its link down, 1 enables it once the core voltage allows and
waits until then (R184). -/
theorem adminUpWrite_cases {d : Dev} {p : Nat} (hp : p < 32) (hex : portExists d p = true) :
    let others := d.stk.avs.ports.filter (fun x => x != p)
    (720 ≤ d.stk.avs.reported → 720 ≤ d.stk.avs.command →
      adminUpWrite p 1 d = accept (oset (waitingPorts d others) Obj.adminUp p 0 1)) ∧
    (d.stk.avs.reported < 720 ∨ d.stk.avs.command < 720 → adminUpWrite p 1 d = accept (waitingPorts d (others ++ [p]))) ∧
    adminUpWrite p 0 d = accept (linkDown (oset (waitingPorts d others) Obj.adminUp p 0 0) p) := by
  have hp' : ¬ 32 ≤ p := by omega
  refine ⟨fun hr hc => ?_, fun hlow => ?_, ?_⟩
  · have hnot : (decide (d.stk.avs.reported < 720) || decide (d.stk.avs.command < 720)) = false := by simp; omega
    simp [adminUpWrite, hp', hex, hnot, waitingPorts]
  · have hlow' : (decide (d.stk.avs.reported < 720) || decide (d.stk.avs.command < 720)) = true := by simpa using hlow
    simp [adminUpWrite, hp', hex, hlow', waitingPorts]
  · simp [adminUpWrite, hp', hex, waitingPorts]

/-- A link change on a device without a twin partner is the port's own. -/
theorem linkStateChange_alone {d : Dev} (h : d.twin.state < 2) (p : Nat) (up : Bool) : linkStateChange p up d = linkChange p up d := by
  have htwin : (linkChange p up d).twin = d.twin := by
    unfold linkChange
    split
    · rfl
    · split
      · split <;> rfl
      · exact linkDown_twin d p
  have hoff : unionOn (linkChange p up d) = false := by
    simp only [unionOn, htwin, Bool.and_eq_false_iff, decide_eq_false_iff_not]
    omega
  unfold linkStateChange
  dsimp only
  rw [hoff]
  rfl

/-- A link comes up on an enabled port with good lanes outside a start, a quench and a reset of the port (R42). -/
theorem linkChange_up {d : Dev} {p : Nat} (hex : portExists d p = true) (hup : oget d Obj.adminUp p 0 = 1)
    (hlanes : laneFailed d p = false) (hrun : d.start.state < 2) (hhigh : d.start.resetLow = false)
    (hphase : (blockSt d 1 p).phase ≠ 1) : linkChange p true d = setPort d p { portOf d p with linkUp := true } := by
  have hq : quenched d = false := by simp [quenched]; omega
  simp [linkChange, hex, ogetB, hup, hlanes, hq, hrun, hhigh, hphase]

theorem linkChange_down {d : Dev} {p : Nat} (hex : portExists d p = true) : linkChange p false d = linkDown d p := by
  simp [linkChange, hex]

/-! ### Pauses (R47 to R49) -/

theorem pauseExpiry_due {d : Dev} {p q : Nat} (hf : (pauseOf d p q).from_.isSome = true)
    (hr : canReach d (pauseOf d p q).until_ = true) : pauseExpiry p q d =
      setPause (passUntil d (pauseOf d p q).until_) p q { pauseOf d p q with from_ := none, until_ := 0 } := by
  unfold pauseExpiry
  dsimp only
  rw [if_neg (by simp [Option.isSome_iff_ne_none.mp hf, hr])]

/-- A priority with no pause in effect is not paused. -/
theorem pausedNow_of_from_none {d : Dev} {p q : Nat} (h : (pauseOf d p q).from_ = none) : pausedNow d p q = false := by
  simp [pausedNow, h]

theorem damperIgnoreEnd_due {d : Dev} {p q t : Nat} (hi : (pauseOf d p q).ignore = some t) (hr : canReach d t = true) :
    damperIgnoreEnd p q d = setPause (passUntil d t) p q { pauseOf d p q with ignore := none } := by
  unfold damperIgnoreEnd
  dsimp only
  rw [hi]
  exact if_pos hr

/-! ### The damper (R49) -/

/-- Frames that leave a queue may let pause be sent or withdrawn, and nothing else moves. -/
theorem settlePause_pauseSent (gone : List QItem) : ∀ d, Dev.PauseSent d (settlePause d gone) := by
  induction gone with
  | nil => exact Dev.PauseSent.refl
  | cons i gone ih =>
    intro d
    refine Dev.PauseSent.trans ?_ (ih _)
    dsimp only
    split
    · split
      · exact ingressPause_pauseSent _ _ _
      · exact Dev.PauseSent.refl d
    · exact Dev.PauseSent.refl d

/-- The egress queue of priority q of port p (Table 9.2). -/
def egressQueue (p q : Nat) : Nat := 196608 + 8 * p + q

/-- An item is not past an age in milliseconds, unless it is a frame older than that. -/
theorem agedItem_eq_false {d : Dev} {age : Nat} {i : QItem} :
    agedItem d age i = false ↔ ∀ f, i.info = .frame f → d.time.elapsed ≤ f.stamp + msec age := by
  unfold agedItem now
  cases i.info <;> simp

/-- The frames that stay in a queue when those past DamperAgeLimit are discarded; a limit of 0 discards none. -/
def DamperLeaves (age elapsed : Nat) (before after : List QItem) : Prop :=
  ∀ i, i ∈ after ↔ i ∈ before ∧ (age ≠ 0 → ∀ f, i.info = .frame f → elapsed ≤ f.stamp + msec age)

/-- Frames past the limit are discarded from that queue alone; the ingress cells that this frees may let pause be sent. -/
theorem damperDiscard_leaves (d : Dev) (p q : Nat) :
    let n := (damperDiscard d p q).1
    DamperLeaves (ogetN d Obj.damperAgeLimit p q) d.time.elapsed (queueOf d (egressQueue p q)).items (queueOf n (egressQueue p q)).items ∧
    (∀ k, k ≠ egressQueue p q → queueOf n k = queueOf d k) ∧ n.time = d.time ∧ (∀ r, pauseOf n p r = pauseOf d p r) ∧
    Dev.ObjBut txPlaces d n := by
  intro n
  by_cases hage : ogetN d Obj.damperAgeLimit p q = 0
  · have hn : n = d := congrArg Prod.fst (if_pos hage)
    rw [hn]
    exact ⟨fun i => by simp [hage], fun _ _ => rfl, rfl, fun _ => rfl, Dev.ObjBut.of_eq rfl⟩
  · obtain ⟨m, gone, hm, hn⟩ : ∃ m gone, m = setQueue d (egressQueue p q) { queueOf d (egressQueue p q) with
        items := (queueOf d (egressQueue p q)).items.filter (fun i => !agedItem d (ogetN d Obj.damperAgeLimit p q) i),
        read := 0, off := 0, mark := none } ∧ n = settlePause m gone := ⟨_, _, rfl, congrArg Prod.fst (if_neg hage)⟩
    have hs : Dev.PauseSent m n := hn ▸ settlePause_pauseSent gone m
    have hq : ∀ k, queueOf n k = queueOf m k := fun k => by simp only [queueOf, hs.queues]
    subst hm
    refine ⟨fun i => ?_, fun k hk => (hq k).trans (queueOf_setQueue_other d _ k _ hk), hs.time, fun r => hs.pauses p r,
      (Dev.ObjBut.of_eq rfl).trans hs.obj⟩
    rw [hq, queueOf_setQueue_same, List.mem_filter, Bool.not_eq_true', agedItem_eq_false]
    simp [hage]

/-- What a break of priority q of port p does (R49): the pause ends and pauses are ignored for a time, the break is counted, and
the frames past the limit are gone. -/
structure Broken (d n : Dev) (p q : Nat) : Prop where
  pause : pauseOf n p q =
    { from_ := none, until_ := 0, ignore := some (n.time.elapsed + msec (ogetN d Obj.damperIgnoreTime 0 0)) }
  breaks : oget n Obj.damperBreaks p q = oget d Obj.damperBreaks p q + 1
  items : DamperLeaves (ogetN d Obj.damperAgeLimit p q) n.time.elapsed (queueOf d (egressQueue p q)).items
    (queueOf n (egressQueue p q)).items

/-- `n` is `d` to the damper of priority q of port p. -/
structure DamperKept (d n : Dev) (p q : Nat) : Prop where
  pause : pauseOf n p q = pauseOf d p q
  breaks : oget n Obj.damperBreaks p q = oget d Obj.damperBreaks p q
  queue : queueOf n (egressQueue p q) = queueOf d (egressQueue p q)
  age : ogetN n Obj.damperAgeLimit p q = ogetN d Obj.damperAgeLimit p q
  ignoreTime : ogetN n Obj.damperIgnoreTime 0 0 = ogetN d Obj.damperIgnoreTime 0 0

theorem DamperKept.refl (d : Dev) (p q : Nat) : DamperKept d d p q := ⟨rfl, rfl, rfl, rfl, rfl⟩

theorem DamperKept.trans {a b c : Dev} {p q : Nat} (h : DamperKept a b p q) (k : DamperKept b c p q) : DamperKept a c p q :=
  ⟨k.pause.trans h.pause, k.breaks.trans h.breaks, k.queue.trans h.queue, k.age.trans h.age, k.ignoreTime.trans h.ignoreTime⟩

theorem Broken.after {a b c : Dev} {p q : Nat} (h : DamperKept a b p q) (k : Broken b c p q) : Broken a c p q := by
  obtain ⟨hp, hb, hi⟩ := k
  rw [h.ignoreTime] at hp
  rw [h.breaks] at hb
  rw [h.age, h.queue] at hi
  exact ⟨hp, hb, hi⟩

theorem Broken.before {a b c : Dev} {p q : Nat} (h : Broken a b p q) (k : DamperKept b c p q) (ht : c.time = b.time) :
    Broken a c p q := by
  obtain ⟨hp, hb, hi⟩ := h
  refine ⟨?_, k.breaks.trans hb, ?_⟩
  · rw [k.pause, ht, hp]
  · rw [k.queue, ht]
    exact hi

/-- The objects that breaks of the eight priorities move. -/
def breakPlaces : List Nat :=
  (List.range 8).map Obj.damperBreaks.place ++ (List.range 8).map Obj.damperDiscards.place ++ txPlaces

/-- Priority q of port p with its pause ended, ignoring pauses for DamperIgnoreTime from now. -/
def cutPause (d : Dev) (p q : Nat) : Dev :=
  setPause d p q { from_ := none, until_ := 0, ignore := some (now d + msec (ogetN d Obj.damperIgnoreTime 0 0)) }

/-- What a break leaves before it is counted: the pause ended and the frames past the limit gone. -/
def beforeCount (d : Dev) (p q : Nat) : Dev := (damperDiscard (cutPause d p q) p q).1

theorem breakPause_eq (d : Dev) (p q : Nat) : breakPause d p q =
    bumpBy (bump (beforeCount d p q) Obj.damperBreaks p q) Obj.damperDiscards p q (damperDiscard (cutPause d p q) p q).2 := rfl

/-- Up to there nothing of the objects moves but what a pause sent counts, and no clock. -/
theorem beforeCount_objBut (d : Dev) (p q : Nat) : Dev.ObjBut txPlaces d (beforeCount d p q) := by
  obtain ⟨-, -, -, -, hobj⟩ := damperDiscard_leaves (cutPause d p q) p q
  exact (Dev.ObjBut.of_eq rfl).trans hobj

/-- The clocks do not move in a break. -/
theorem breakPause_time (d : Dev) (p q : Nat) : (breakPause d p q).time = d.time := by
  obtain ⟨-, -, htime, -, -⟩ := damperDiscard_leaves (cutPause d p q) p q
  rw [breakPause_eq]
  exact htime

/-- A break leaves the pauses of the other priorities. -/
theorem breakPause_pauseOf_other (d : Dev) {p q r : Nat} (h : r ≠ q) : pauseOf (breakPause d p q) p r = pauseOf d p r := by
  obtain ⟨-, -, -, hpauses, -⟩ := damperDiscard_leaves (cutPause d p q) p q
  rw [breakPause_eq]
  exact (hpauses r).trans (pauseOf_setPause_other d p q r _ h)

/-- It counts at its own priority alone. -/
theorem breakPause_breaks (d : Dev) (p : Nat) {q r : Nat} (hq : q < 8) (hr : r < 8) :
    oget (breakPause d p q) Obj.damperBreaks p r = oget d Obj.damperBreaks p r + if r = q then 1 else 0 := by
  have hplaces : ∀ r < 8, ∀ q < 8, Obj.damperBreaks.place r ∉ txPlaces ∧ Obj.damperBreaks.place r ≠ Obj.damperDiscards.place q ∧
      (r ≠ q → Obj.damperBreaks.place r ≠ Obj.damperBreaks.place q) := by decide
  obtain ⟨htx, hdiscards, hbreaks⟩ := hplaces r hr q hq
  have hbefore := (beforeCount_objBut d p q).oget Obj.damperBreaks p r htx rfl
  rw [breakPause_eq, oget_bumpBy_apart _ _ _ _ _ _ _ _ hdiscards rfl]
  split
  · subst r
    rw [oget_bump_same, hbefore]
  · rename_i hne
    rw [oget_bump_apart _ _ _ _ _ _ _ (hbreaks hne) rfl, hbefore, Int.add_zero]

theorem breakPause_objBut (d : Dev) (p : Nat) {q : Nat} (hq : q < 8) : Dev.ObjBut breakPlaces d (breakPause d p q) := by
  have hmem : ∀ q < 8, Obj.damperBreaks.place q ∈ breakPlaces ∧ Obj.damperDiscards.place q ∈ breakPlaces := by decide
  have htx : ∀ k ∈ txPlaces, k ∈ breakPlaces := by decide
  have hbefore : Dev.ObjBut breakPlaces d (beforeCount d p q) := fun k hk => beforeCount_objBut d p q k (fun h => hk (htx _ h))
  rw [breakPause_eq]
  exact (hbefore.trans (bump_objBut _ _ _ _ _ (hmem q hq).1)).trans (bumpBy_objBut _ _ _ _ _ _ (hmem q hq).2)

theorem breakPause_broken (d : Dev) (p : Nat) {q : Nat} (hq : q < 8) : Broken d (breakPause d p q) p q := by
  obtain ⟨hitems, -, -, hpauses, -⟩ := damperDiscard_leaves (cutPause d p q) p q
  refine ⟨?_, by rw [breakPause_breaks d p hq hq, if_pos rfl], ?_⟩
  · rw [breakPause_time]
    exact (hpauses q).trans (pauseOf_setPause_same _ _ _ _)
  · rw [breakPause_time]
    exact hitems

/-- To the damper of another priority a break is none. -/
theorem breakPause_kept (d : Dev) (p : Nat) {q r : Nat} (hq : q < 8) (hr : r < 8) (h : r ≠ q) : DamperKept d (breakPause d p q) p r := by
  have hage : ∀ r < 8, Obj.damperAgeLimit.place r ∉ breakPlaces := by decide
  have hobj := breakPause_objBut d p hq
  obtain ⟨-, hqueues, -, -, -⟩ := damperDiscard_leaves (cutPause d p q) p q
  refine ⟨breakPause_pauseOf_other d h, ?_, ?_, hobj.ogetN _ _ _ (hage r hr) rfl, hobj.ogetN _ _ _ (by decide) rfl⟩
  · rw [breakPause_breaks d p hq hr, if_neg h, Int.add_zero]
  · rw [breakPause_eq]
    exact hqueues (egressQueue p r) (by unfold egressQueue; omega)

/-- Breaks of several priorities: each is broken once, and the others are left. -/
theorem foldl_breakPause (p : Nat) (l : List Nat) : ∀ d : Dev, l.Nodup → (∀ q ∈ l, q < 8) →
    let n := l.foldl (fun d q => breakPause d p q) d
    n.time = d.time ∧ ∀ q < 8, (q ∈ l → Broken d n p q) ∧ (q ∉ l → DamperKept d n p q) := by
  induction l with
  | nil => exact fun d _ _ => ⟨rfl, fun q _ => ⟨fun h => absurd h List.not_mem_nil, fun _ => DamperKept.refl d p q⟩⟩
  | cons a l ih =>
    intro d hnodup hlt
    obtain ⟨ha, hl⟩ := List.nodup_cons.mp hnodup
    have ha8 := hlt a List.mem_cons_self
    obtain ⟨hrest, hall⟩ := ih (breakPause d p a) hl (fun q hq => hlt q (List.mem_cons_of_mem a hq))
    refine ⟨hrest.trans (breakPause_time d p a), fun q hq => ?_⟩
    obtain ⟨hin, hout⟩ := hall q hq
    by_cases hqa : q = a
    · subst hqa
      exact ⟨fun _ => (breakPause_broken d p ha8).before (hout ha) hrest, fun h => absurd List.mem_cons_self h⟩
    · have hkept := breakPause_kept d p ha8 hq hqa
      refine ⟨fun h => (hin ?_).after hkept, fun h => hkept.trans (hout (fun hm => h (List.mem_cons_of_mem a hm)))⟩
      exact (List.mem_cons.mp h).resolve_left hqa

/-- Minima taken along a list come to the least value. -/
theorem foldl_min_eq {f : Nat → Nat} (l : List Nat) : ∀ a m : Nat, m ≤ a → (∀ i ∈ l, m ≤ f i) → (m = a ∨ ∃ i ∈ l, m = f i) →
    l.foldl (fun m i => min m (f i)) a = m := by
  induction l with
  | nil =>
    intro a m _ _ h
    rcases h with h | ⟨i, hi, -⟩
    · exact h.symm
    · exact absurd hi List.not_mem_nil
  | cons b l ih =>
    intro a m hma hle h
    have hb : m ≤ f b := hle b List.mem_cons_self
    refine ih (min a (f b)) m (by omega) (fun i hi => hle i (List.mem_cons_of_mem b hi)) ?_
    rcases h with h | ⟨i, hi, h⟩
    · exact .inl (by omega)
    · rcases List.mem_cons.mp hi with rfl | hi
      · exact .inl (by omega)
      · exact .inr ⟨i, hi, h⟩

/-- The limit of a watchdog under PAUSE is the least of the eight (R49). -/
theorem watchdogLimit_pause {d : Dev} {p limit : Nat} (hm : ogetN d Obj.pauseMode p 0 = 1)
    (hle : ∀ i < 8, limit ≤ ogetN d Obj.pauseWatchdogLimit p i) (hex : ∃ i < 8, limit = ogetN d Obj.pauseWatchdogLimit p i) (q : Nat) :
    watchdogLimit d p q = limit := by
  obtain ⟨i, hi, h⟩ := hex
  unfold watchdogLimit
  rw [if_pos hm]
  exact foldl_min_eq (f := ogetN d Obj.pauseWatchdogLimit p) (List.range 8) _ limit (hle 0 (by decide))
    (fun i hi => hle i (List.mem_range.mp hi)) (.inr ⟨i, List.mem_range.mpr hi, h⟩)

/-- A pause that stands beyond the watchdog's limit is broken at the limit, with one notice (R49). -/
theorem damperBreak_due {d : Dev} {p q t limit : Nat} (hf : (pauseOf d p q).from_ = some t) (hl : watchdogLimit d p q = limit)
    (hlong : t + msec limit < (pauseOf d p q).until_) (hr : canReach d (t + msec limit) = true) : damperBreak p q d =
      report ((breakScope d p q).foldl (fun d q => breakPause d p q) (passUntil d (t + msec limit))) 0 0x0101 p q := by
  unfold damperBreak
  dsimp only
  rw [hf, hl]
  dsimp only
  rw [if_neg (by simp only [hr, Bool.true_eq_false, or_false]; omega)]
  unfold breakScope
  rw [passUntil_time_only]
  rfl

theorem passUntil_damperKept (d : Dev) (due p q : Nat) : DamperKept d (passUntil d due) p q := by
  rw [passUntil_time_only]
  exact ⟨rfl, rfl, rfl, rfl, rfl⟩

/-- A notice leaves the damper alone. -/
theorem report_damperKept (d : Dev) (code inst detail p : Nat) {q : Nat} (hq : q < 8) :
    DamperKept d (report d 0 code inst detail) p q := by
  have hplaces : ∀ q < 8, Obj.damperBreaks.place q ∉ noticePlaces ∧ Obj.damperAgeLimit.place q ∉ noticePlaces := by decide
  obtain ⟨hb, ha⟩ := hplaces q hq
  obtain ⟨hobj, -⟩ := report_noticed d code inst detail
  refine ⟨?_, hobj.oget _ _ _ hb rfl, ?_, hobj.ogetN _ _ _ ha rfl, hobj.ogetN _ _ _ (by decide) rfl⟩
  · simp only [pauseOf, portOf, report_fwd]
  · simp only [queueOf, report_queues]

/-- A break acts on the priorities of its scope, and on no other. -/
theorem damperBreak_broken {d : Dev} {p q t limit : Nat} (hq : q < 8) (hf : (pauseOf d p q).from_ = some t)
    (hl : watchdogLimit d p q = limit) (hlong : t + msec limit < (pauseOf d p q).until_) (hr : canReach d (t + msec limit) = true) :
    ∀ i ∈ breakScope d p q, Broken d (damperBreak p q d) p i := by
  have hscope : (breakScope d p q).Nodup ∧ ∀ i ∈ breakScope d p q, i < 8 := by
    unfold breakScope
    split
    · exact ⟨List.nodup_range, fun i => List.mem_range.mp⟩
    · exact ⟨List.pairwise_singleton _ q, fun i hi => by rw [List.mem_singleton.mp hi]; exact hq⟩
  obtain ⟨-, hall⟩ := foldl_breakPause p _ (passUntil d (t + msec limit)) hscope.1 hscope.2
  intro i hi
  have h8 := hscope.2 i hi
  rw [damperBreak_due hf hl hlong hr]
  exact (((hall i h8).1 hi).after (passUntil_damperKept d _ p i)).before (report_damperKept _ _ _ _ p h8) (report_time ..)

/-- Outside PAUSE the other priorities keep their pauses. -/
theorem damperBreak_pauseOf_other {d : Dev} {p q t limit : Nat} (hm : ogetN d Obj.pauseMode p 0 ≠ 1)
    (hf : (pauseOf d p q).from_ = some t) (hl : watchdogLimit d p q = limit) (hlong : t + msec limit < (pauseOf d p q).until_)
    (hr : canReach d (t + msec limit) = true) {i : Nat} (hi : i ≠ q) : pauseOf (damperBreak p q d) p i = pauseOf d p i := by
  rw [damperBreak_due hf hl hlong hr, show breakScope d p q = [q] from if_neg hm]
  calc pauseOf (report _ 0 0x0101 p q) p i
      = pauseOf (breakPause (passUntil d (t + msec limit)) p q) p i := by simp only [pauseOf, portOf, report_fwd, List.foldl]
    _ = pauseOf (passUntil d (t + msec limit)) p i := breakPause_pauseOf_other _ hi
    _ = pauseOf d p i := (passUntil_damperKept d _ p i).pause

/-! ### The pause that a port sends (R48) -/

/-- Port p sends a pause under key k now, and notes when (R48). -/
def startPause (d : Dev) (p k : Nat) : Dev := sendPause (setXoff d p k (some (now d, true))) p k (ogetN d Obj.pauseTxQuanta p 0)

/-- Where the excess stands, ingress congestion starts a pause unless one is standing already. -/
theorem ingressPause_starts {d : Dev} {p q k : Nat} (hk : pauseKey d p q = k) (hs : sendsPause d p k = true)
    (hoff : ogetN d Obj.xoffCells p 0 < ingressCells d p k) (hon : ogetN d Obj.xonCells p 0 ≤ ingressCells d p k)
    (hnew : ∀ t, sfind (portOf d p).xoff k ≠ some (t, true)) : ingressPause d p q = startPause d p k := by
  subst hk
  unfold ingressPause
  rcases hx : sfind (portOf d p).xoff (pauseKey d p q) with - | ⟨t, stands⟩
  · simp [hx, hs, hoff, startPause]
  · cases stands with
    | true => exact absurd hx (hnew t)
    | false => simp [hx, hs, hoff, Nat.not_lt.mpr hon, startPause]

/-- PAUSE_TX_REFRESH while the excess lasts starts a pause, at half the time of the last one where one stands. -/
theorem pauseTxRefresh_starts {d : Dev} {p q k : Nat} (hk : pauseKey d p q = k) (hs : sendsPause d p k = true)
    (hoff : ogetN d Obj.xoffCells p 0 < ingressCells d p k) (hon : ogetN d Obj.xonCells p 0 ≤ ingressCells d p k)
    (hdue : ∀ t, sfind (portOf d p).xoff k = some (t, true) →
      canReach d (t + bitTimes d p (ogetN d Obj.pauseTxQuanta p 0 * 512) / 2) = true) :
    ∃ time, pauseTxRefresh p q d = startPause { d with time := time } p k := by
  unfold pauseTxRefresh
  dsimp only
  rw [hk]
  rcases hx : sfind (portOf d p).xoff k with - | ⟨t, _ | _⟩
  case some.true =>
    have hpass : ∀ m : Dev, m = passUntil d (t + bitTimes d p (ogetN d Obj.pauseTxQuanta p 0 * 512) / 2) →
        ogetN m Obj.xoffCells p 0 < ingressCells m p k ∧ sendsPause m p k = true := fun m hm => by
      rw [hm, passUntil_time_only]
      exact ⟨hoff, hs⟩
    obtain ⟨hoff', hs'⟩ := hpass _ rfl
    dsimp only
    rw [if_neg (by simp [hdue t hx]), if_pos (by simp [hoff', hs']), passUntil_time_only]
    exact ⟨_, rfl⟩
  all_goals exact ⟨d.time, ingressPause_starts hk hs hoff hon (by simp [hx])⟩

/-- A pause that starts: when it was sent is noted, it counts among the frames and the pauses sent, and it goes out. -/
theorem startPause_sent (d : Dev) (p k : Nat) :
    let n := startPause d p k
    sfind (portOf n p).xoff k = some (n.time.elapsed, true) ∧ oget n Obj.txCounters p 2 = oget d Obj.txCounters p 2 + 1 ∧
    oget n Obj.txCounters p 0 = oget d Obj.txCounters p 0 + 1 ∧
    n.out = .mac p 0x8808 (octets (pauseFrame d p k (ogetN d Obj.pauseTxQuanta p 0))) :: d.out := by
  refine ⟨?_, ?_, ?_, rfl⟩
  · show sfind (portOf (setPort d p { portOf d p with xoff := sput (portOf d p).xoff k (now d, true) }) p).xoff k = _
    rw [portOf_setPort_same]
    exact sfind_sput_same _ _ _
  · unfold startPause sendPause sendDirect
    rw [oget_bump_same, oget_bumpBy_apart _ _ _ _ _ _ _ _ (by decide) rfl, oget_bump_apart _ _ _ _ _ _ _ (by decide) rfl]
    rfl
  · unfold startPause sendPause sendDirect
    rw [oget_bump_apart _ _ _ _ _ _ _ (by decide) rfl, oget_bumpBy_apart _ _ _ _ _ _ _ _ (by decide) rfl, oget_bump_same]
    rfl

/-! ### PRP (R56) -/

/-- A frame of the MAC's own counts at its port. -/
theorem sendDirect_counts (d : Dev) (p code : Nat) (frame : List Nat) :
    oget (sendDirect d p code frame) Obj.txCounters p 0 = oget d Obj.txCounters p 0 + 1 := by
  unfold sendDirect
  rw [oget_bumpBy_apart _ _ _ _ _ _ _ _ (by decide) rfl, oget_bump_same]
  rfl

/-- A counter that moves leaves the other copies of its object, where their default is fixed. -/
theorem oget_bumpBy_copy (d : Dev) (r : Row) {i k : Nat} (j : Nat) (v : Int) (h : k ≠ i) (hr : r.dflt.fixed = true) {l : Nat}
    (hj : r.sub + j < 256) (hl : r.sub + l < 256) : oget (bumpBy d r i j v) r k l = oget d r k l := by
  unfold bumpBy oget
  rw [ofind_oset_other _ _ _ _ _ _ _ _ (by unfold Row.key; omega), dfltOf_fixed d _ r k l hr]

theorem sendDirect_counts_other (d : Dev) {p a : Nat} (h : a ≠ p) (code : Nat) (frame : List Nat) :
    oget (sendDirect d p code frame) Obj.txCounters a 0 = oget d Obj.txCounters a 0 := by
  unfold sendDirect bump
  rw [oget_bumpBy_copy _ _ _ _ h rfl (by decide) (by decide), oget_bumpBy_copy _ _ _ _ h rfl (by decide) (by decide)]
  rfl

theorem sendDirect_objBut (d : Dev) (p code : Nat) (frame : List Nat) : Dev.ObjBut txPlaces d (sendDirect d p code frame) :=
  ((Dev.ObjBut.of_eq rfl).trans (bump_objBut _ (emit d _) Obj.txCounters p 0 (by decide))).trans
    (bumpBy_objBut _ _ Obj.txCounters p 1 _ (by decide))

/-- A supervision frame depends on the device by the MAC address of its port alone. -/
theorem supervisionFrame_congr {d n : Dev} (h : Dev.ObjBut txPlaces d n) (p seq lan : Nat) :
    supervisionFrame n p seq lan = supervisionFrame d p seq lan := by
  unfold supervisionFrame
  rw [h.ogetN Obj.macAddress p 0 (by decide) rfl]

/-- The ports of a pair are two. -/
theorem pairPorts_ne {d : Dev} {i a b : Nat} (h : pairPorts d i = some (a, b)) : a ≠ b := by
  unfold pairPorts at h
  dsimp only at h
  split at h
  · exact absurd h (by simp)
  · rename_i hc
    obtain ⟨rfl, rfl⟩ := Prod.mk.inj (Option.some.inj h)
    exact fun he => hc (.inr (.inl he))

/-- The device when the supervision frame of pair i is due, its number taken and its time noted. -/
def lifeCheckDue (d : Dev) (i : Nat) : Dev :=
  let m := (nextPrpSeq (passUntil d (sget d.fwd.lifeAt i 0 + msec (ogetN d Obj.lifeCheckInterval 0 0))) i supervisionMac).2
  { m with fwd := { m.fwd with lifeAt := sput m.fwd.lifeAt i (now m) } }

/-- The supervision frame on one LAN of a pair, where the link of its port is up. -/
def superviseLan (seq : Nat) (d : Dev) (p lan : Nat) : Dev :=
  if (portOf d p).linkUp then sendDirect d p 0x88FB (supervisionFrame d p seq lan) else d

/-- A pair whose links are up sends its supervision frame on LAN A and on LAN B. -/
theorem lifeCheckTx_due {d : Dev} {i a b : Nat} (hi : i < 16) (hready : d.start.ready = true) (hpair : pairPorts d i = some (a, b))
    (ha : (portOf d a).linkUp = true) (hb : (portOf d b).linkUp = true)
    (hr : canReach d (sget d.fwd.lifeAt i 0 + msec (ogetN d Obj.lifeCheckInterval 0 0)) = true) :
    let seq := (nextPrpSeq d i supervisionMac).1
    let m := sendDirect (lifeCheckDue d i) a 0x88FB (supervisionFrame (lifeCheckDue d i) a seq 10)
    lifeCheckTx i d = sendDirect m b 0x88FB (supervisionFrame m b seq 11) := by
  have hport : ∀ p, portOf (lifeCheckDue d i) p = portOf d p := fun p => by
    unfold lifeCheckDue
    rw [passUntil_time_only]
    rfl
  have hseq : (nextPrpSeq (passUntil d (sget d.fwd.lifeAt i 0 + msec (ogetN d Obj.lifeCheckInterval 0 0))) i supervisionMac).1 =
      (nextPrpSeq d i supervisionMac).1 := by
    rw [passUntil_time_only]
    rfl
  intro seq m
  have htx : lifeCheckTx i d = superviseLan seq (superviseLan seq (lifeCheckDue d i) a 10) b 11 := by
    unfold lifeCheckTx
    dsimp only
    rw [hpair]
    dsimp only
    rw [if_neg (by simp [isReady, hready, hr]; omega), hseq]
    rfl
  have hlanA : superviseLan seq (lifeCheckDue d i) a 10 = m := if_pos (by rw [hport, ha])
  have hlanB : superviseLan seq m b 11 = sendDirect m b 0x88FB (supervisionFrame m b seq 11) :=
    if_pos ((congrArg Port.linkUp (hport b)).trans hb)
  rw [htx, hlanA, hlanB]

/-- What the supervision frames of a pair leave (R56). -/
theorem lifeCheckTx_sent {d : Dev} {i a b : Nat} (hi : i < 16) (hready : d.start.ready = true) (hpair : pairPorts d i = some (a, b))
    (ha : (portOf d a).linkUp = true) (hb : (portOf d b).linkUp = true)
    (hr : canReach d (sget d.fwd.lifeAt i 0 + msec (ogetN d Obj.lifeCheckInterval 0 0)) = true) :
    let n := lifeCheckTx i d
    let seq := (nextPrpSeq d i supervisionMac).1
    sfind n.fwd.lifeAt i = some n.time.elapsed ∧ oget n Obj.txCounters a 0 = oget d Obj.txCounters a 0 + 1 ∧
    oget n Obj.txCounters b 0 = oget d Obj.txCounters b 0 + 1 ∧
    n.out = .mac b 0x88FB (octets (supervisionFrame d b seq 11)) :: .mac a 0x88FB (octets (supervisionFrame d a seq 10)) :: d.out := by
  have hab := pairPorts_ne hpair
  have hdict : (lifeCheckDue d i).dict = d.dict := passUntil_dict d _
  have hout : (lifeCheckDue d i).out = d.out := passUntil_out d _
  have hlife : sfind (lifeCheckDue d i).fwd.lifeAt i = some (lifeCheckDue d i).time.elapsed := sfind_sput_same _ _ _
  have hobj : Dev.ObjBut txPlaces d (lifeCheckDue d i) := Dev.ObjBut.of_eq (by rw [hdict])
  have hcount : ∀ p, oget (lifeCheckDue d i) Obj.txCounters p 0 = oget d Obj.txCounters p 0 := fun p =>
    (Dev.ObjBut.of_eq (l := []) (by rw [hdict])).oget Obj.txCounters p 0 (by simp) rfl
  intro n seq
  have hn : n = _ := lifeCheckTx_due hi hready hpair ha hb hr
  generalize lifeCheckDue d i = m at hn hout hlife hobj hcount
  have hsent := sendDirect_objBut m a 0x88FB (supervisionFrame m a seq 10)
  rw [hn]
  refine ⟨hlife, ?_, ?_, ?_⟩
  · rw [sendDirect_counts_other _ hab, sendDirect_counts, hcount]
  · rw [sendDirect_counts, sendDirect_counts_other _ hab.symm, hcount]
  · rw [supervisionFrame_congr (hobj.trans hsent), supervisionFrame_congr hobj, ← hout]
    rfl

/-- Nodes and their entries that have aged out are forgotten, and the others stay. -/
theorem prpNodeForget_nodes (d : Dev) :
    (prpNodeForget d).fwd.nodes.map PrpNode.mac = (d.fwd.nodes.filter (fun m =>
      decide (d.time.elapsed < m.seen + msec (ogetN d Obj.nodeForgetTime 0 0)))).map PrpNode.mac ∧
    ∀ m ∈ (prpNodeForget d).fwd.nodes, ∀ y ∈ m.seqs, d.time.elapsed < y.2 + msec (ogetN d Obj.entryForgetTime 0 0) := by
  constructor
  · unfold prpNodeForget
    rw [List.map_map]
    rfl
  · intro m hm y hy
    obtain ⟨x, -, rfl⟩ := List.mem_map.mp hm
    exact of_decide_eq_true (List.mem_filter.mp hy).2

/-! ### Flow keys (R53) -/

theorem mem_of_sfind {α : Type} {m : SMap α} {k : Nat} {v : α} (h : sfind m k = some v) : (k, v) ∈ m := by
  induction m with
  | nil => exact absurd h (by simp [sfind])
  | cons p m ih =>
    obtain ⟨i, w⟩ := p
    unfold sfind at h
    split at h
    · rename_i hi
      subst hi
      rw [Option.some.inj h]
      exact List.mem_cons_self
    · exact List.mem_cons_of_mem _ (ih h)

theorem flowKey_code : Obj.flowKey.code = 0x214003 := by decide

/-- No rule of a chapter refuses a flow key before its place is sought (R281). -/
theorem checkRules_flowKey (d : Dev) (i j : Nat) (v : Int) : checkRules d Obj.flowKey i j v = 0 := by
  have hname : queueNamers.find? (fun n => decide (n.1.code = Obj.flowKey.code)) = none := by decide
  have hports : ∀ c, checkPorts Obj.flowKey c i v = 0 := fun c => by
    have hcells : ¬ (Obj.flowKey.code = Obj.xoffCells.code ∨ Obj.flowKey.code = Obj.xonCells.code) := by decide
    unfold checkPorts
    split
    · exact absurd ‹Obj.flowKey.code = 0x214004› (by decide)
    · exact absurd ‹Obj.flowKey.code = 0x214008› (by decide)
    · exact if_neg (fun h => hcells h.1)
  unfold checkRules
  dsimp only
  rw [hname]
  exact hports _

/-- A flow key without its reserved bits 51:0. -/
def keyBits (v : Nat) : Nat := v / 2 ^ 52 * 2 ^ 52

theorem unreserved_flowKey (v : Nat) : unreserved Obj.flowKey v = (keyBits v : Int) := by
  unfold unreserved keyBits
  rw [if_pos flowKey_code]
  omega

/-- A staging write of FlowKey: the key is staged in a Ready device where a place is found for it, and refused where not. -/
theorem stageWrite_flowKey (d : Dev) (i v : Nat) : stageWrite d Obj.flowKey i 0 v =
    if (stageKey d i (keyBits v)).2 = false then refuse (stageKey d i (keyBits v)).1 abortStore
    else if isReady (stageKey d i (keyBits v)).1 then
      let n := (stageKey d i (keyBits v)).1
      accept { n with dict := { n.dict with staged := sput n.dict.staged (Obj.flowKey.key i 0) (keyBits v) } }
    else accept (applyNow (stageKey d i (keyBits v)).1 Obj.flowKey i 0 (keyBits v)) := by
  unfold stageWrite
  dsimp only
  rw [checkRules_flowKey, unreserved_flowKey, if_neg (by decide), if_pos flowKey_code, Int.toNat_natCast]
  dsimp only
  cases (stageKey d i (keyBits v)).2 <;> rfl

/-- A key that another placed entry has in the same profile is refused. -/
theorem stageWrite_flowKey_taken {d : Dev} {i v : Nat} (h : keyTaken d i (comingN d Obj.flowProfile i) (keyBits v) = true) :
    stageWrite d Obj.flowKey i 0 v = refuse d abortStore := by
  have hkey : stageKey d i (keyBits v) = (d, false) := if_pos (by rw [h]; rfl)
  rw [stageWrite_flowKey, hkey]
  rfl

/-- An installed entry takes its key in its profile. -/
theorem keyTaken_installed {d : Dev} {i m profile key : Nat} (hm : m ≠ i) (hp : sfind d.fwd.placed m = some 2)
    (hprofile : ogetN d Obj.flowProfile m 0 = profile) (hkey : ogetN d Obj.flowKey m 0 = key) : keyTaken d i profile key = true := by
  unfold keyTaken
  rw [List.any_eq_true]
  exact ⟨(m, 2), mem_of_sfind hp, by simp [hm, hprofile, hkey]⟩

/-- Below 245,760 placed entries a place is always found. -/
theorem placeFound_of_few {d : Dev} (h : d.fwd.placed.length < 245760) (i : Nat) : placeFound d i = true := by
  have hle := List.length_filter_le (fun p : Nat × Nat => decide (p.1 ≠ i)) d.fwd.placed
  unfold placeFound
  dsimp only
  rw [decide_eq_true (by omega), Bool.true_or]

/-- A free key is staged in a Ready device, and its entry is placed. -/
theorem stageWrite_flowKey_free {d : Dev} {i v : Nat} (hfree : keyTaken d i (comingN d Obj.flowProfile i) (keyBits v) = false)
    (hfew : d.fwd.placed.length < 245760) (hready : d.start.ready = true) :
    let n := stageWrite d Obj.flowKey i 0 v
    sfind n.dict.staged (Obj.flowKey.key i 0) = some (keyBits v : Int) ∧ (sfind n.fwd.placed i).isSome = true ∧ n.dict.abort = 0 := by
  obtain ⟨w, hw, hkey⟩ : ∃ w, (sfind w i).isSome = true ∧
      stageKey d i (keyBits v) = ({ d with fwd := { d.fwd with placed := w } }, true) := by
    refine ⟨if shas d.fwd.placed i then d.fwd.placed else sput d.fwd.placed i 1, ?_,
      if_neg (by rw [hfree, placeFound_of_few hfew]; decide)⟩
    split
    · assumption
    · rw [sfind_sput_same]
      rfl
  intro n
  have hn : n = _ := stageWrite_flowKey d i v
  rw [hkey] at hn
  rw [hn, if_neg (by simp), if_pos (by exact hready)]
  exact ⟨sfind_sput_same _ _ _, hw, rfl⟩

/-! ### What a report of any class counts (R298, R303 to R305) -/

/-- The objects in which the collector and its emergency messages count. -/
def collectorPlaces : List Nat :=
  [Obj.faultDetected, Obj.faultConsequential, Obj.faultCoalesced, Obj.faultLost, Obj.faultLogged].flatMap
    (fun r => (List.range 5).map r.place) ++
  [Obj.consequentialReports.place 0, Obj.ringOverwritten.place 0, Obj.emcySent.place 0, Obj.emcyInhibited.place 0]

theorem bumpIf_objBut (l : List Nat) (c : Bool) (d : Dev) (r : Row) (i j : Nat) (h : r.place j ∈ l) :
    Dev.ObjBut l d (bumpIf c d r i j) := by
  cases c
  · exact Dev.ObjBut.of_eq rfl
  · exact bump_objBut l d r i j h

theorem Dev.ObjBut.ite {l : List Nat} {c : Prop} [Decidable c] {d a b : Dev} (h : Dev.ObjBut l d a) (k : Dev.ObjBut l d b) :
    Dev.ObjBut l d (if c then a else b) := by split <;> assumption

theorem logReport_objBut (d : Dev) {cls : Nat} (hc : cls < 5) (code inst detail : Nat) (escal : Bool) :
    Dev.ObjBut collectorPlaces d (logReport d cls code inst detail escal).dev := by
  have hplaces : ∀ c < 5, ∀ r ∈ [Obj.faultDetected, Obj.faultConsequential, Obj.faultCoalesced, Obj.faultLost, Obj.faultLogged],
      r.place c ∈ collectorPlaces := by decide
  have hcount := hplaces cls hc
  unfold logReport
  extract_lets win cause d1 d2 d3 merges low f0 seq e f d4 f1 d5
  have h1 : Dev.ObjBut collectorPlaces d d1 := bump_objBut _ _ _ _ _ (hcount _ (by simp))
  have h2 : Dev.ObjBut collectorPlaces d1 d2 := bumpIf_objBut _ _ _ _ _ _ (hcount _ (by simp))
  have h3 : ∀ w : Option (Nat × Nat), Dev.ObjBut collectorPlaces d2 (match w with
      | some w => bump d2 Obj.consequentialReports w.1 0
      | none => d2) := by
    intro w
    cases w
    · exact Dev.ObjBut.of_eq rfl
    · exact bump_objBut _ _ _ _ _ (by decide)
  have h : Dev.ObjBut collectorPlaces d d3 := (h1.trans h2).trans (h3 win)
  have hon : ∀ (f : Faults) (r : Row), r.place cls ∈ collectorPlaces →
      Dev.ObjBut collectorPlaces d3 (bump { d3 with faults := f } r 0 cls) := fun f r hr =>
    (Dev.ObjBut.of_eq rfl).trans (bump_objBut _ { d3 with faults := f } r 0 cls hr)
  have h4 : Dev.ObjBut collectorPlaces d3 d4 := hon _ _ (hcount _ (by simp))
  have hring : Dev.ObjBut collectorPlaces d4 (toRing d4 e) :=
    (Dev.ObjBut.of_eq rfl).trans (bumpIf_objBut _ _ { d4 with faults := _ } _ _ _ (by decide))
  have h5 : Dev.ObjBut collectorPlaces d4 d5 := Dev.ObjBut.ite (Dev.ObjBut.of_eq rfl) hring
  split
  · exact h.trans (hon _ _ (hcount _ (by simp)))
  · split
    · exact h.trans (hon _ _ (hcount _ (by simp)))
    · exact (h.trans h4).trans h5

/-- An emergency message is counted as sent or as inhibited, and leaves FAULT_N. -/
theorem sendEmcy_counted (d : Dev) (err code inst : Nat) :
    Dev.ObjBut collectorPlaces d (sendEmcy d err code inst) ∧ (sendEmcy d err code inst).faults.faultN = d.faults.faultN := by
  have hgo : Dev.ObjBut collectorPlaces d (sendEmcy.go d err code inst) ∧
      (sendEmcy.go d err code inst).faults.faultN = d.faults.faultN := by
    unfold sendEmcy.go
    extract_lets body id d1 d2 f
    have h1 : d1.dict = d.dict ∧ d1.faults = d.faults := by unfold d1; split <;> exact ⟨rfl, rfl⟩
    have h2 : d2.dict = d1.dict ∧ d2.faults = d1.faults := by unfold d2; split <;> exact ⟨rfl, rfl⟩
    refine ⟨(Dev.ObjBut.of_eq ?_).trans (bump_objBut _ { d2 with faults := _ } _ _ _ (by decide)), ?_⟩
    · rw [h2.1, h1.1]
    · show d2.faults.faultN = _
      rw [h2.2, h1.2]
  unfold sendEmcy
  extract_lets wait
  split
  · exact ⟨Dev.ObjBut.of_eq rfl, rfl⟩
  · split
    · split
      · exact ⟨bump_objBut _ _ _ _ _ (by decide), rfl⟩
      · exact hgo
    · exact hgo

theorem reportL_objBut (d : Dev) {cls : Nat} (hc : cls < 5) (code inst detail : Nat) (escal : Bool) :
    Dev.ObjBut collectorPlaces d (reportL d cls code inst detail escal).dev := by
  unfold reportL
  extract_lets l conseq d1 stand f0 d2 d3
  have h := logReport_objBut d hc code inst detail escal
  have h1 : Dev.ObjBut collectorPlaces l.dev d1 := Dev.ObjBut.ite (Dev.ObjBut.of_eq rfl) (Dev.ObjBut.of_eq rfl)
  have h2 : Dev.ObjBut collectorPlaces d1 d2 := Dev.ObjBut.ite (Dev.ObjBut.of_eq rfl) (Dev.ObjBut.of_eq rfl)
  have h3 : Dev.ObjBut collectorPlaces d2 d3 := Dev.ObjBut.ite (sendEmcy_counted _ _ _ _).1 (Dev.ObjBut.of_eq rfl)
  exact ((h.trans h1).trans h2).trans h3

theorem logReport_window (d : Dev) {cls : Nat} (h : cls ≠ 4) (code inst detail : Nat) (escal : Bool) :
    (logReport d cls code inst detail escal).window = windowOf d (itemOf code inst detail) := by
  unfold logReport
  rw [if_neg h]
  extract_lets cause d1 d2 d3 merges low f0 seq e f d4 f1 d5
  split
  · rfl
  · split <;> rfl

/-- A report of class FC3 that no window covers asserts FAULT_N (R308). -/
theorem reportL_faultN {d : Dev} {code inst detail : Nat} (h : windowOf d (itemOf code inst detail) = none) (escal : Bool) :
    (reportL d 3 code inst detail escal).dev.faults.faultN = true := by
  have hw := logReport_window d (cls := 3) (by decide) code inst detail escal
  unfold reportL
  extract_lets l conseq d1 stand f0 d2 d3
  have hc : conseq = false := by
    unfold conseq
    rw [hw, h]
    rfl
  have h1 : d1.faults.faultN = true := by
    unfold d1
    rw [hc]
    rfl
  show d3.faults.faultN = true
  unfold d3
  split
  · rw [(sendEmcy_counted _ _ _ _).2]
    exact h1
  · exact h1

/-! ### A flue audit failure (R62) -/

/-- A fold whose steps keep a value of the device keeps it. -/
theorem foldl_keeps {α β γ : Type} (g : α → γ) {f : α → β → α} (h : ∀ a b, g (f a b) = g a) (l : List β) :
    ∀ a, g (l.foldl f a) = g a := by
  induction l with
  | nil => exact fun _ => rfl
  | cons b l ih => exact fun a => (ih _).trans (h a b)

theorem setReady_faults (d : Dev) (h : Nat) (l : List Ready) : (setReady d h l).faults = d.faults := by
  have howe : ∀ (d : Dev) (n : Nat), (oweRetries d h n).faults = d.faults := fun d n => by
    unfold oweRetries
    split <;> rfl
  unfold setReady
  extract_lets _ d1
  have h1 : d1.faults = d.faults := howe _ _
  split
  · exact h1
  · exact h1

theorem restartThread_faults (d : Dev) (t : Nat) : (restartThread d t).faults = d.faults := by
  have hdrop : (dropKinds d t [6]).faults = d.faults := foldl_keeps Dev.faults (fun d h => setReady_faults d h _) _ d
  unfold restartThread
  split
  · rfl
  · dsimp only
    split
    · rfl
    · split
      · exact (setReady_faults _ _ _).trans hdrop
      · exact hdrop

/-- The reset of a hearth leaves the collector alone (R300). -/
theorem hearthResetStart_faults (d : Dev) (h : Nat) : (hearthResetStart d h).faults = d.faults :=
  (foldl_keeps Dev.faults restartThread_faults _ _).trans (setReady_faults _ _ _)

theorem windowOf_noBlocks {d : Dev} (h : d.faults.blocks = []) (it : Item) : windowOf d it = none := by
  unfold windowOf
  rw [h]
  rfl

@[simp] theorem blockSt_setBlock_same (d : Dev) (kind b : Nat) (x : BlockSt) : blockSt (setBlock d kind b x) kind b = x := by
  simp [blockSt, setBlock]

/-- The first FC3 report of a device starts the reset of its block, and asserts FAULT_N (R298, R308). -/
theorem raiseFc3_first {d : Dev} (h : d.faults.blocks = []) (code inst detail : Nat) :
    ∃ n, raiseFc3 d code inst detail = (n, some (blockOf code inst)) ∧
      (blockSt n (blockOf code inst).1 (blockOf code inst).2).phase = 1 ∧ n.faults.faultN = true := by
  have hw : windowOf d (itemOf code inst detail) = none := windowOf_noBlocks h _
  have hblock : blockSt d (blockOf code inst).1 (blockOf code inst).2 = ⟨0, 0, 0, 0, [], 0⟩ := by
    unfold blockSt
    rw [h]
    rfl
  unfold raiseFc3
  dsimp only
  rw [hw, hblock]
  refine ⟨_, rfl, ?_, reportL_faultN hw false⟩
  show (blockSt (setBlock _ _ _ _) _ _).phase = 1
  rw [blockSt_setBlock_same]

/-- One copy of a counter after each of a list of copies has been bumped. -/
theorem oget_foldl_bump (r : Row) (hr : r.dflt.fixed = true) (hs : r.sub < 256) (w : Nat) (l : List Nat) : ∀ d : Dev,
    oget (l.foldl (fun d k => bump d r k 0) d) r w 0 = oget d r w 0 + l.count w := by
  induction l with
  | nil => exact fun d => by simp
  | cons k l ih =>
    intro d
    have hstep : oget (bump d r k 0) r w 0 = oget d r w 0 + if k = w then 1 else 0 := by
      split
      · subst k
        exact oget_bump_same d r w 0
      · rename_i hne
        unfold bump
        rw [oget_bumpBy_copy d r 0 1 (Ne.symm hne) hr hs hs, Int.add_zero]
    rw [List.foldl_cons, ih, hstep, List.count_cons]
    by_cases hk : k = w
    · simp only [hk, if_true, beq_self_eq_true]
      omega
    · simp [hk]

/-- The device with the mismatch counted on the channels of a flue stop's links. -/
def mismatchCounted (d : Dev) (stop : Nat) : Dev :=
  ((List.range 432).filter (fun w => decide (w / 18 = stop))).foldl (fun d w => bump d Obj.flueAuditMismatches w 0) d

theorem mismatchCounted_faults (d : Dev) (stop : Nat) : (mismatchCounted d stop).faults = d.faults :=
  foldl_keeps Dev.faults (f := fun d w => bump d Obj.flueAuditMismatches w 0) (fun _ _ => rfl) _ d

theorem mismatchCounted_start (d : Dev) (stop : Nat) : (mismatchCounted d stop).start = d.start :=
  foldl_keeps Dev.start (f := fun d w => bump d Obj.flueAuditMismatches w 0) (fun _ _ => rfl) _ d

theorem mismatchCounted_first (d : Dev) {stop : Nat} (h : stop < 24) :
    oget (mismatchCounted d stop) Obj.flueAuditMismatches (18 * stop) 0 = oget d Obj.flueAuditMismatches (18 * stop) 0 + 1 := by
  have hin : decide (18 * stop / 18 = stop) = true := decide_eq_true (by omega)
  have hcount : ((List.range 432).filter (fun w => decide (w / 18 = stop))).count (18 * stop) = 1 := by
    rw [List.count_filter (p := fun w => decide (w / 18 = stop)) hin, List.count_range, if_pos (by omega)]
  unfold mismatchCounted
  rw [oget_foldl_bump _ rfl (by decide), hcount]
  rfl

/-- A mismatch on a device that is neither in RESET_N nor quenched is counted and raised as an FC3 report on the stop. -/
theorem flueCreditMismatch_raised {d : Dev} {stop : Nat} (h : stop < 24) (hhigh : d.start.resetLow = false) (hq : d.start.state ≠ 4) :
    flueCreditMismatch stop d = fc3Reaction (mismatchCounted d stop) 0x0121 stop 0 8 := by
  have hrun : ¬ (24 ≤ stop ∨ d.start.resetLow = true ∨ quenched d = true) := by simp [hhigh, quenched, hq, h]
  unfold flueCreditMismatch
  rw [if_neg hrun]
  rfl

/-- At a stop of a hearth the hearth's reset starts. -/
theorem fc3Reaction_hearth {d : Dev} {stop b : Nat} (hb : d.faults.blocks = []) (hs : stopHearth stop = some b) :
    let n := fc3Reaction d 0x0121 stop 0 8
    (blockSt n 2 b).phase = 1 ∧ n.faults.faultN = true := by
  have hblock : blockOf 0x0121 stop = (2, b) := by simp [blockOf, hs]
  obtain ⟨m, hm, hphase, hfault⟩ := raiseFc3_first hb 0x0121 stop 0
  rw [hblock] at hm hphase
  have hn : fc3Reaction d 0x0121 stop 0 8 = hearthResetStart m b := by
    unfold fc3Reaction
    rw [hblock, hm, if_neg (by simp)]
    rfl
  intro n
  have hf : n.faults = m.faults := by
    show (fc3Reaction _ _ _ _ _).faults = _
    rw [hn, hearthResetStart_faults]
  exact ⟨by unfold blockSt; rw [hf]; exact hphase, by rw [hf]; exact hfault⟩

/-- At another stop a running device begins a warm start (R320). -/
theorem fc3Reaction_warm {d : Dev} {stop : Nat} (hb : d.faults.blocks = []) (hs : stopHearth stop = none) (hrun : d.start.state = 1) :
    let n := fc3Reaction d 0x0121 stop 0 8
    n.start.state = 2 ∧ n.start.due = some 8 := by
  have hblock : blockOf 0x0121 stop = (8, 0) := by simp [blockOf, hs]
  obtain ⟨m, hm, -, -⟩ := raiseFc3_first hb 0x0121 stop 0
  rw [hblock] at hm
  have hn : fc3Reaction d 0x0121 stop 0 8 = beginWarm m 8 false := by
    unfold fc3Reaction
    rw [hblock, hm, if_neg (by simp [hrun])]
    rfl
  rw [hn]
  exact ⟨rfl, rfl⟩

/-- A device that does not run only reports it. -/
theorem fc3Reaction_reported {d : Dev} {stop : Nat} (hs : stopHearth stop = none) (hrun : d.start.state ≠ 1) :
    fc3Reaction d 0x0121 stop 0 8 = report d 3 0x0121 stop 0 := by
  have hblock : blockOf 0x0121 stop = (8, 0) := by simp [blockOf, hs]
  unfold fc3Reaction
  rw [hblock]
  exact if_pos ⟨rfl, hrun⟩

/-! ### The statement -/

/-- Settles O48, from what each command of the ports comes to: layouts and enables (R41, R184), links (R42), pauses and the damper
(R47 to R49), PRP upkeep (R56), flow keys (R53), and a flue audit failure (R62). -/
theorem linksAndPauses : Obligations.LinksAndPauses := by
  unfold Obligations.LinksAndPauses
  intro s p q d x ends hhigh hquench
  have hends : ∀ {c : Instr} {g : Dev → Dev} {n : Dev} {f : Dev → Prop}, exec c s = effectDev g s → g d = n → f n → ends c f :=
    fun hc hn hf => completes_with hc hn hf
  clear_value ends -- a goal `ends c f` is to be met as it stands, by `hends`
  refine ⟨?layout, ?enable, ?link, ?expiry, ?damper, ?ignore, ?refresh, ?life, ?forget, ?key, ?flue⟩
  case layout =>
    intro g mode hserved hg hl hm htwo
    obtain ⟨hdown, hup⟩ := laneGroupModeWrite_cases hg hl hm htwo
    have hguard := guarded_served hserved (laneGroupModeWrite g mode)
    exact ⟨fun h => hends rfl (hguard.trans (hdown h)) ⟨groupMode_oset d g mode, rfl⟩,
      fun h => hends rfl (hguard.trans (hup h)) ⟨rfl, rfl⟩⟩
  case enable =>
    intro hserved hp hex
    obtain ⟨hon, hwait, hoff⟩ := adminUpWrite_cases hp hex
    have hguard := fun v => guarded_served hserved (adminUpWrite p v)
    refine ⟨fun hr hc => hends rfl ((hguard 1).trans (hon hr hc)) ⟨oget_oset_same _ Obj.adminUp p 0 1, rfl⟩,
      fun hlow => hends rfl ((hguard 1).trans (hwait hlow)) ⟨rfl, ?_, rfl⟩,
      hends rfl ((hguard 0).trans hoff) ⟨?_, linkDown_linkUp _ p, ?_, rfl⟩⟩
    · exact List.mem_append_right _ (List.mem_singleton_self p)
    · exact ((linkDown_objBut _ p).oget Obj.adminUp p 0 (by decide) rfl).trans (oget_oset_same _ Obj.adminUp p 0 0)
    · rw [show ∀ n : Dev, (accept n).stk = n.stk from fun _ => rfl, linkDown_stk]
      simp [waitingPorts]
  case link =>
    intro hex halone
    have hchange := linkStateChange_alone halone p
    refine ⟨fun hup hlanes hrun hphase => hends rfl
        ((hchange true).trans (linkChange_up hex hup hlanes hrun hhigh hphase)) ?_,
      fun hup => hends rfl ((hchange false).trans (linkChange_down hex)) ⟨linkDown_linkUp d p, linkDown_counts hup⟩⟩
    rw [portOf_setPort_same]
    exact ⟨rfl, rfl⟩
  case expiry =>
    intro hfrom hreach
    have hpause : ∀ m : Dev, pauseOf (setPause m p q { x with from_ := none, until_ := 0 }) p q = _ :=
      fun m => pauseOf_setPause_same m p q _
    exact hends rfl (pauseExpiry_due hfrom hreach)
      ⟨pausedNow_of_from_none (by rw [hpause]), by rw [hpause], by rw [hpause]⟩
  case damper =>
    intro t limit _ hq hfrom all broken hall hone hlong hreach
    refine hends rfl rfl ⟨fun h i hi => ?_, fun h => ⟨?_, fun i hi => ?_⟩⟩
    · obtain ⟨hle, hex⟩ := hall h
      obtain ⟨hpause, hbreaks, hitems⟩ := damperBreak_broken hq hfrom (watchdogLimit_pause h hle hex q) hlong hreach i
        (by rw [show breakScope d p q = List.range 8 from if_pos h]; exact List.mem_range.mpr hi)
      exact ⟨hpause, hbreaks, hitems⟩
    · have hlimit : watchdogLimit d p q = limit := (if_neg h).trans (hone h).symm
      obtain ⟨hpause, hbreaks, hitems⟩ := damperBreak_broken hq hfrom hlimit hlong hreach q
        (by rw [show breakScope d p q = [q] from if_neg h]; exact List.mem_singleton_self q)
      exact ⟨hpause, hbreaks, hitems⟩
    · exact damperBreak_pauseOf_other h hfrom ((if_neg h).trans (hone h).symm) hlong hreach hi
  case ignore =>
    intro t hignore hreach
    refine hends rfl (damperIgnoreEnd_due hignore hreach) ?_
    rw [pauseOf_setPause_same]
    exact ⟨rfl, rfl, rfl⟩
  case refresh =>
    intro k hsends hoff hon hdue
    obtain ⟨time, hstart⟩ := pauseTxRefresh_starts (q := q) rfl hsends hoff hon hdue
    exact hends rfl hstart (startPause_sent { d with time := time } p k)
  case life =>
    intro i a b hi hready hpair ha hb hreach
    exact hends rfl rfl (lifeCheckTx_sent hi hready hpair ha hb hreach)
  case forget => exact hends rfl rfl (prpNodeForget_nodes d)
  case key =>
    intro i v hserved key
    have hguard := guarded_served hserved (fun d => stageWrite d Obj.flowKey i 0 v)
    refine ⟨fun m hm hplaced hprofile hkey => ?_, fun hfree hfew hready => ?_⟩
    · have htaken := keyTaken_installed hm hplaced hprofile hkey
      exact hends rfl (hguard.trans (stageWrite_flowKey_taken htaken)) ⟨rfl, rfl, rfl⟩
    · exact hends rfl hguard (stageWrite_flowKey_free hfree hfew hready)
  case flue =>
    intro stop hstop hblocks
    have hraised := flueCreditMismatch_raised hstop hhigh hquench
    have hnone : (mismatchCounted d stop).faults.blocks = [] := by rw [mismatchCounted_faults, hblocks]
    have hstart := mismatchCounted_start d stop
    refine ⟨fun h hs => hends rfl hraised (fc3Reaction_hearth hnone hs),
      fun hs hrun => hends rfl hraised (fc3Reaction_warm hnone hs (by rw [hstart, hrun])),
      fun hs hrun => hends rfl (hraised.trans (fc3Reaction_reported hs (by rw [hstart]; exact hrun))) ⟨?_, ?_⟩⟩
    · have hreport := reportL_objBut (mismatchCounted d stop) (cls := 3) (by decide) 0x0121 stop 0 false
      exact (hreport.oget Obj.flueAuditMismatches (18 * stop) 0 (by decide) rfl).trans (mismatchCounted_first d hstop)
    · rw [report_start, hstart]

end Sys2Proof.Machine

/-! SUPPORT. O51: what a write to the dictionary comes to (R279 to R281), epochs (R86), the results of setup records (R75) and the keys
that are written (R66, R209, R288). -/
namespace Sys2Proof.Machine

/-! ### Writes and reads that are served -/

/-- A read that the device state lets through comes to its own rules (R309). -/
theorem guardedRead_served {d : Dev} {r : Row} (h : ServedRead d r) (f : Dev → Dev) : guardedRead r f d = f d := by
  obtain ⟨hs, hr⟩ := h
  unfold guardedRead
  rw [hs, hr]
  rfl

/-- A command that comes to a refusal completes with its code, and no value, staging set or commit has changed. -/
theorem denies_with {c : Instr} {s : State} {g : Dev → Dev} {code : Nat} (hc : exec c s = effectDev g s)
    (hn : g s.sys.dev = refuse s.sys.dev code) : ∃ w : State, exec c s = .next w ∧
      (w.sys.dev.dict.abort = code ∧ w.sys.dev.dict.obj = s.sys.dev.dict.obj ∧ w.sys.dev.dict.staged = s.sys.dev.dict.staged ∧
        w.sys.dev.dict.commit = s.sys.dev.dict.commit ∧ w.sys.dev.out = .answer code noBytes :: s.sys.dev.out) :=
  ⟨_, hc, by
    show (g s.sys.dev).dict.abort = code ∧ _
    rw [show (Sys.onDev g s.sys).dev = refuse s.sys.dev code from hn, hn]
    exact ⟨rfl, rfl, rfl, rfl, rfl⟩⟩

/-- A write that passes the checks of the access comes to the rules of its access type (Table 14.4). -/
def writeByAccess (x : Outside) (r : Row) (i j : Nat) (data : Bytes) (d : Dev) : Dev :=
  match r.acc with
  | .wo => actWrite x r i j data d
  | .rws => stageWrite d r i j (r.ty.decode data.val)
  | _ => rwWrite r i j (r.ty.decode data.val) d

/-- The checks of a write to an object that its route and the device state serve, in their order (R280, Table 14.5). -/
theorem objectWrite_object {d : Dev} {route idx sub item i j : Nat} {r : Row} (hidx : idx < 0x5000)
    (hres : resolve d route idx sub item = .inr (.obj r i j)) (hsilent : silent d = false)
    (hstate : stateRefuses d idx sub true = false) (hselect : isSelect r = false) (data : Bytes) (x : Outside) :
    objectWrite route idx sub item data x d =
      if instanceGated d r.idx i j then refuse d abortState
      else if r.acc = .const ∨ r.acc = .ro then refuse d abortRo
      else if r.ty ≠ .domain ∧ data.len ≠ r.ty.size then refuse d abortLength
      else if r.ty ≠ .domain ∧ (r.ty.decode data.val < r.lo ∨ r.hi < r.ty.decode data.val) then refuse d abortRange
      else if r.ty = .bool ∧ 1 < r.ty.decode data.val then refuse d abortRange
      else writeByAccess x r i j data d := by
  have hwindow : ¬ 0x5000 ≤ idx := by omega
  unfold objectWrite writeAccess
  rw [hres, hsilent]
  dsimp only
  rw [if_neg hwindow, hstate, hselect]
  rfl

/-- A value with no rule of its own takes effect at once (R280). -/
theorem rwWrite_plain {d : Dev} {r : Row} {i j : Nat} {v : Int}
    (hown : r.code ∉ [0x210001, 0x300001, 0x300002, 0x300003, 0x300004, 0x252006, 0x280004, 0x280005, 0x2A3004, 0x2A3005, 0x2B0001,
      0x2B400B, 0x100300]) (hpdo : r.code / 65536 ∉ [0x14, 0x16, 0x18, 0x1A]) :
    rwWrite r i j v d = accept (oset d r i j v) := by
  unfold rwWrite
  split
  case h_14 => exact if_neg (by simpa using hpdo)
  all_goals
    rename_i h
    exact absurd (by rw [h]; decide) hown

/-- A checked value of an object with no key of a flow joins the staging set of a device that is Ready (R281). -/
theorem stageWrite_ready {d : Dev} {r : Row} (hk : r.code ≠ 0x214003) (hp : r.code ≠ 0x21400D) (hr : d.start.ready = true) (i j : Nat)
    (v : Int) : stageWrite d r i j v =
      if checkRules d r i j (unreserved r v) ≠ 0 then refuse d (checkRules d r i j (unreserved r v))
      else accept { d with dict := { d.dict with staged := sput d.dict.staged (r.key i j) (unreserved r v) } } := by
  have hready : isReady d = true := hr
  unfold stageWrite
  simp only [hk, hp, hready, if_false, false_and]
  rfl

/-! ### Epochs -/

theorem joinCommit_dict (t : Nat) (d : Dev) : (joinCommit t d).dict = d.dict := by
  unfold joinCommit
  split <;> rfl

theorem joinCommit_oget (t : Nat) (d : Dev) (r : Row) (i j : Nat) (hr : r.dflt.fixed = true) :
    oget (joinCommit t d) r i j = oget d r i j :=
  (Dev.ObjBut.of_eq (l := []) (by rw [joinCommit_dict])).oget r i j (by simp) hr

/-- The values of `n` lie over those of `m` (R86). -/
theorem sfind_sover {α : Type} (n : SMap α) (k : Nat) : ∀ m : SMap α, (n.map Prod.fst).Nodup →
    sfind (sover m n) k = (sfind n k).or (sfind m k) := by
  induction n with
  | nil => exact fun _ _ => rfl
  | cons p n ih =>
    obtain ⟨i, v⟩ := p
    intro m hn
    obtain ⟨hi, hn⟩ := List.nodup_cons.mp hn
    show sfind (sover (sput m i v) n) k = _
    rw [ih _ hn]
    by_cases hk : i = k
    · subst hk
      have hnone : sfind n i = none := by
        cases h : sfind n i with
        | none => rfl
        | some w => exact absurd (List.mem_map_of_mem (f := Prod.fst) (mem_of_sfind h)) hi
      simp [sfind, hnone, sfind_sput_same]
    · simp [sfind, hk, sfind_sput_other m i k v (Ne.symm hk)]

/-- An abort in time returns the pending values to staging, beneath later writes (R86). -/
theorem epochAbort_dict {d : Dev} {c : Commit} (hc : d.dict.commit = some c) (ht : curTick d + 2 ≤ c.tick) (hq : quenched d = false) :
    (epochAbort d).dict = { d.dict with commit := none, staged := sover c.values d.dict.staged, abort := 0 } := by
  unfold epochAbort
  rw [hc]
  dsimp only
  rw [if_neg (by simp [hq, ht])]
  split <;> rfl

theorem epochAbort_late {d : Dev} {c : Commit} (hc : d.dict.commit = some c) (ht : c.tick < curTick d + 2) :
    epochAbort d = refuse d abortState := by
  unfold epochAbort
  rw [hc]
  exact if_pos (Or.inl ht)

theorem epochAbort_none {d : Dev} (hc : d.dict.commit = none) : epochAbort d = refuse d abortState := by
  unfold epochAbort
  rw [hc]

section
variable {d : Dev} (hr : d.start.ready = true) (hq : quenched d = false)
include hr hq

theorem epochCommit_refused {e t : Nat} (h : (e ≠ (d.dict.epoch + 1) % 2 ^ 32 ∧ (d.twin.state ≠ 2 ∨ d.twin.joinStep ≠ 3)) ∨
      t < curTick d + 4 ∨ d.dict.commit.isSome = true) :
    epochCommit e t d = refuse (bump d Obj.commitsRefused 0 0) abortStore := by
  unfold epochCommit
  rw [if_neg (by simp [isReady, hr, hq]), if_pos]
  simpa only [forwarded, Bool.not_eq_true', Bool.and_eq_false_iff, decide_eq_false_iff_not] using h

/-- A commit that passes its checks closes the staging set (R86). -/
theorem epochCommit_taken {e t : Nat} (he : e = (d.dict.epoch + 1) % 2 ^ 32) (ht : curTick d + 4 ≤ t) (hc : d.dict.commit = none) :
    epochCommit e t d = joinCommit t (bump (accept { d with dict := { d.dict with
      commit := some { epoch := e, tick := t, values := d.dict.staged }, staged := [] } }) Obj.epochsCommitted 0 0) := by
  unfold epochCommit
  subst he
  rw [if_neg (by simp [isReady, hr, hq]), if_neg (by simp [hc, ht])]

end

/-! ### The statement -/

/-- Settles O51, from the order of the checks of a write (R280, R281), what a commit and an abort do with the staging set (R86), and
what each key write and the read of the results come to (R66, R75, R209, R288). -/
theorem dictionaryAndEpochs : Obligations.DictionaryAndEpochs := by
  unfold Obligations.DictionaryAndEpochs
  intro s d ends denied
  have hends : ∀ {c : Instr} {g : Dev → Dev} {n : Dev} {f : Dev → Prop}, exec c s = effectDev g s → g d = n → f n → ends c f :=
    fun hc hn hf => completes_with hc hn hf
  have hdenied : ∀ {c : Instr} {g : Dev → Dev} {code : Nat}, exec c s = effectDev g s → g d = refuse d code → denied c code :=
    fun hc hn => denies_with hc hn
  clear_value denied ends
  refine ⟨?write, ?commit, ?abort, ?results, ?transport, ?twin, ?goa⟩
  case write =>
    intro route idx sub item i j data x r hidx hres hsilent hstate hselect v c sized inRange
    have hw := objectWrite_object hidx hres hsilent hstate hselect data x
    refine ⟨fun hg => hdenied rfl (hw.trans (if_pos hg)), fun hg ha => hdenied rfl ?_, fun hg hc ho => ?_⟩
    · rw [hw, if_neg (by simp [hg]), if_pos ha]
      rfl
    · rw [if_neg (by simp [hg]), if_neg (not_or.mpr ⟨hc, ho⟩)] at hw
      refine ⟨fun hl => hdenied rfl (hw.trans (if_pos (not_or.mp hl))), fun hl hv => hdenied rfl ?_, fun hl hv hb => ⟨?_, ?_⟩⟩
      · obtain ⟨hd, hv⟩ := not_or.mp hv
        rw [hw, if_neg (fun ⟨hd, h⟩ => hl.elim hd h), if_pos ⟨hd, by omega⟩]
        rfl
      all_goals
        rw [if_neg (fun ⟨hd, h⟩ => hl.elim hd h), if_neg (fun ⟨hd, h⟩ => by have := hv.resolve_left hd; omega),
          if_neg (fun ⟨ht, h⟩ => absurd h (Int.not_lt.mpr (hb ht)))] at hw
        intro hacc
      · have hstage : objectWrite route idx sub item data x d = stageWrite d r i j v := by
          rw [hw, writeByAccess, hacc]
        intro hk hp hr
        rw [stageWrite_ready hk hp hr] at hstage
        refine ⟨fun h0 => hends rfl (hstage.trans (if_neg (by simp [h0]))) ⟨sfind_sput_same _ _ _, rfl, rfl, rfl, rfl⟩,
          fun h0 => hdenied rfl (hstage.trans (if_pos h0))⟩
      · intro hown hpdo
        have hset : objectWrite route idx sub item data x d = accept (oset d r i j v) := by
          rw [hw, writeByAccess, hacc]
          exact rwWrite_plain hown hpdo
        exact hends rfl hset ⟨oget_oset_same d r i j v, rfl, rfl⟩
  case commit =>
    intro hserved hr hs e t
    have hq : quenched d = false := by simpa [quenched] using hs
    have hguard := guarded_served hserved (epochCommit e t)
    refine ⟨fun he ht hc => hends rfl (hguard.trans (epochCommit_taken hr hq he ht hc)) ?_,
      fun h => hends rfl (hguard.trans (epochCommit_refused hr hq h)) ⟨rfl, rfl, rfl, oget_bump_same d Obj.commitsRefused 0 0⟩⟩
    rw [joinCommit_dict, joinCommit_oget _ _ Obj.epochsCommitted 0 0 rfl]
    exact ⟨rfl, rfl, rfl, oget_bump_same _ Obj.epochsCommitted 0 0, rfl⟩
  case abort =>
    intro hserved hs
    have hq : quenched d = false := by simpa [quenched] using hs
    have hguard := guarded_served hserved epochAbort
    refine ⟨fun hc => hdenied rfl (hguard.trans (epochAbort_none hc)),
      fun c hc ht => hdenied rfl (hguard.trans (epochAbort_late hc ht)), fun c hc ht hn => hends rfl hguard ?_⟩
    rw [epochAbort_dict hc ht hq]
    refine ⟨rfl, rfl, rfl, fun k v hk => ?_, fun k hk => ?_⟩
    all_goals
      show sfind (sover c.values d.dict.staged) k = _
      rw [sfind_sover _ _ _ hn, hk]
      rfl
  case results =>
    intro hserved
    exact hends rfl (guardedRead_served hserved setupResultsRead) ⟨rfl, rfl, rfl⟩
  case transport =>
    intro key hserved
    have hguard := fun bad => guarded_served hserved (keyTransportKeyWrite key bad)
    refine ⟨hends rfl ((hguard false).trans (if_neg (by simp))) ⟨oget_oset_same d Obj.keyTransportKey 0 0 key, rfl⟩,
      fun hk => hends rfl ((hguard true).trans (if_pos ⟨rfl, hk⟩)) ⟨?_, rfl, oget_bump_same d Obj.keyUnwrapFailures 0 0⟩⟩
    exact oget_bump_apart d Obj.keyUnwrapFailures Obj.keyTransportKey 0 0 0 0 (by decide) rfl
  case twin =>
    intro key bad hserved
    have hguard := guarded_served hserved (twinLinkKeyWrite key bad)
    exact ⟨fun hb hk => hends rfl (hguard.trans (if_neg (by simp [hb, hk]))) ⟨rfl, rfl, rfl⟩,
      fun h => hends rfl (hguard.trans (if_pos h)) ⟨rfl, rfl⟩⟩
  case goa =>
    intro slot key hserved hslot
    have hguard := fun bad => guarded_served hserved (goaKeyWrite slot key bad)
    exact ⟨hends rfl ((hguard false).trans (if_neg (by simp))) ⟨List.getElem?_set_self hslot, rfl, rfl⟩,
      fun hk => hends rfl ((hguard true).trans (if_pos ⟨rfl, hk⟩)) ⟨rfl, rfl⟩⟩

end Sys2Proof.Machine

/-! SUPPORT. O50: a channel's close seals the bank slots that are not sealed yet and counts each in the element of its source code
(R203 to R205), and a state may hold a slot with any number there. -/
namespace Sys2Proof.Machine

/-- A source code that R203 does not have and no push can write (Table 9.5 gives a source two bits): as an element of the counters of
slots sealed by source (0x2540:06 of channel 0) it stands where SetupApplied does (0x2601:0A). -/
def straySource : Nat := (0x2601 - 0x2540) * 256 + 0x0A - 0x06

/-- Channel 0 as it is opened at tick 0 on a free endpoint, receive-only and not recorded, with one slot of that source in its bank. -/
def strayChannel : Channel :=
  let x := freshChannel Dev.reset 0 0xFFFFFFFF 0 0 0 ⟨0, 0, 0⟩ 0 0 0 false
  { x with banks := { x.banks with slots := [(0, ⟨straySource, 0, false, []⟩)] } }

/-- The device in tick 1 with that channel alone. -/
def strayState : State :=
  { State.reset with sys := { Sys.reset with dev := { Dev.reset with
    chans := [(0, strayChannel)], time := { TimeUnit.reset with ticking := true, tick := 1 } } } }

/-- A CHANNEL_CLOSE of channel 0. -/
def closeRecord : SetupRec := { seq := 0, kind := 4, subject := 0, tick := 0, cookie := 0, body := noBytes }

/-- The close seals the slot, which counts one record applied, and its result counts another. -/
theorem strayState_close_counts : oget strayState.sys.dev Obj.setupApplied 0 0 = 0 ∧
    oget (recordChannelClose closeRecord strayState.sys.dev) Obj.setupApplied 0 0 = 2 := by decide

/-- Refutes O50: its clause on CHANNEL_CLOSE says that SetupApplied rises by one, and says it of every state. In one whose speech bank holds
a slot of a source code above 3 the final seal (R205) counts that slot beside its four counters, on SetupApplied itself. The
statement lacks the hypothesis that the sources held are codes of R203. -/
theorem not_setupRecords : ¬ Obligations.SetupRecords := by
  unfold Obligations.SetupRecords
  intro h
  obtain ⟨-, -, -, -, -, -, -, -, -, -, -, hchannel⟩ := h strayState closeRecord
  obtain ⟨hclose, -⟩ := hchannel strayChannel rfl (by decide +kernel)
  obtain ⟨w, hw, -, -, hcount⟩ := hclose rfl rfl rfl rfl
  have hdev : w.sys.dev = recordChannelClose closeRecord strayState.sys.dev := by
    cases hw
    rfl
  obtain ⟨hbefore, hafter⟩ := strayState_close_counts
  rw [hdev, hafter, hbefore] at hcount
  exact absurd hcount (by decide)

end Sys2Proof.Machine
